-- ==== Sys2Proof/Word.lean ====
section
/-! DEFINITION. The word types and the named field values of Silius instructions (R26, R30–R33, R42, R44, R45). -/

namespace Sys2Proof

/-- A 64-bit register value (R30). -/
abbrev Word := BitVec 64
/-- One byte of memory. -/
abbrev Byte := BitVec 8

/-- A register operand field: 0–7 name v0–v7 and 8–15 name s0–s7 (R26). -/
abbrev Reg := Fin 16
/-- A predicate field: p0–p15 (R26). -/
abbrev Pred := Fin 16
/-- A handle number h0–h63 (R172). -/
abbrev HNum := Fin 64
/-- A barrier number as an instruction names it (R336). -/
abbrev BNum := Fin 64

/-- The guard of a guarded instruction: it executes when p(g) xor n = 1 (R27). -/
structure Guard where
  n : Bool
  p : Pred
  deriving DecidableEq, Repr

/-- Lane types, codes 0 to 7 (R30). -/
inductive LaneType where
  | i64 | i32 | i16 | i8 | f64 | f32 | bf16 | f16
  deriving DecidableEq, Repr

/-- Rounding modes, codes 0 to 3 (R31, R85). -/
inductive Round where
  | rne | rtz | rup | rdn
  deriving DecidableEq, Repr

/-- Scopes, codes 0 to 5 (R32, R223); `recov` is `.rec`. -/
inductive Scope where
  | core | clu | die | dev | sys | recov
  deriving DecidableEq, Repr

/-- Orders, codes 0 to 3 (R32). -/
inductive Order where
  | rlx | acq | rel | sc
  deriving DecidableEq, Repr

/-- Condition codes 0 to 13 of layouts C and CI and of `vcmp` (R33). -/
inductive Cond where
  | eq | ne | lt | ge | ltu | geu | le | gt | leu | gtu | tst | ntst | un | ord
  deriving DecidableEq, Repr

/-- Condition codes of `fcmp` (R40, R126). -/
inductive FCond where
  | eq | ne | lt | le | gt | ge | un | ord
  deriving DecidableEq, Repr

/-- Access sizes, codes 0 to 4: 1, 2, 4, 8 and 16 bytes (R42). -/
inductive MSize where
  | b | h | w | d | q
  deriving DecidableEq, Repr

/-- Atomic types, codes 0 to 7 (R44). -/
inductive AmoType where
  | i32 | i64 | bf16 | f32 | f64 | f32x2 | bf16x2 | i128
  deriving DecidableEq, Repr

/-- Memory formats of `ldt` and `stt`, codes 0 to 5 (R45). -/
inductive MemFmt where
  | i8 | z8 | e4m3 | e5m2 | fp4 | bf16
  deriving DecidableEq, Repr

/-- Operations of `tv.red`, codes 0 to 2 (R49). -/
inductive RedOp where
  | add | min | max
  deriving DecidableEq, Repr

/-- The modes of `resume`: replay, skip, deliver to a handler (R375). -/
inductive ResumeMode where
  | replay | skip | handler
  deriving DecidableEq, Repr

/-- A flit on a die edge or a Troty port: its network and message, its place among the header (0) and up to four data flits, where
the message comes from and goes to (core sites on a die edge, peer numbers on a Troty port), its payload and its poison bit
(R345, R346).  DESIGN CHOICE, log entry 74. -/
structure FlitBody where
  vn : Nat
  msg : Nat
  idx : Nat
  last : Nat
  src : Nat
  dst : Nat
  data : List Byte
  poison : Bool
  deriving DecidableEq, Repr

/-- The operations of `amo` and `red` (R44, R150); `cas` with type i128 is `cas128`. -/
inductive AmoOp where
  | add | and | or | xor | min | max | minu | maxu | swap | cas | fadd | fmin | fmax
  deriving DecidableEq, Repr

/-- What a Troty peer asks of the device's physical address space: a write, a read of n bytes, or an atomic (R353). -/
inductive PeerReq where
  | write (d : List Byte)
  | read (n : Nat)
  | amo (op : AmoOp) (y : AmoType) (src cmp : Nat)
  deriving DecidableEq, Repr

/-- A notification that a member on a Troty peer sends: the receiver's logical core number, the kernel and barrier, the round and
parity, the sender's core number and its device (R341). -/
structure PeerNotif where
  to_ : Nat
  kid : Nat
  b : Nat
  round : Nat
  parity : Nat
  from_ : Nat
  dev : Nat
  deriving DecidableEq, Repr

/-- What NOTIFICATION brings to a core: the notification of a message of the package, one of a member on a Troty peer, or a peer's NET reply to
one that has left, which names the sending core of this device, what it sent, and the member it sent it to (R341, R344). -/
inductive NotifFrom where
  | message (m : Nat)
  | peer (x : PeerNotif)
  | net (x : PeerNotif)
  deriving DecidableEq, Repr

/-- The end of a tile vector operation: its core, and whether the residues of a beat differ, with the beat (R194, R390). -/
structure TvEnd where
  core : Nat
  upset : Bool
  beat : Nat := 0
  deriving DecidableEq, Repr

/-- What disturbs the check of a pass: what an upset of the unit adds to P, with the macro and the row of it that fail, and whether the
second aligner differs (R215, R423). -/
structure PassUpset where
  sum : Nat
  align : Bool
  macro_ : Nat
  row : Nat
  deriving DecidableEq, Repr

/-- The flit on which an injector fires, with the direction of both (R356). -/
structure InjectedFlit where
  link : Nat
  flit : FlitBody
  deriving DecidableEq, Repr

end Sys2Proof
end

