-- ==== Sys2Proof/Config.lean ====
section
/-! DEFINITION. What an implementation fixes and the free values: constants without a body, of which nothing can be proved. -/

namespace Sys2Proof.Config

/-- A byte the spec leaves unpredictable or unstated; applied to the state's counter of free values (DESIGN CHOICE, log entry 2). -/
opaque freeByte : Nat → Byte

/-- A 64-bit value the spec leaves unstated; applied to the state's counter of free values (DESIGN CHOICE, log entry 2). -/
opaque freeWord : Nat → Word

/-- Which of the two HBM stacks of its die a line of 64 bytes lies on, which the spec leaves unstated (R24, R396). -/
opaque upperStack : Nat → Bool

/-- What a Troty peer answers to a packet written to its aperture: taken, busy or denied, as its rings and its access list say
(R320).  Applied to the state's counter of free values (DESIGN CHOICE, log entry 2). -/
opaque peerAnswer : Nat → Nat

/-- The energy estimate of a matrix pass or a tile vector operation, which the spec leaves unstated, by the operation's number
(R425; DESIGN CHOICE, log entry 79). -/
opaque energyEstimate : Nat → Nat

/-- SHA-256, which the spec names and does not define (R416, R426, R427, R429; DESIGN CHOICE, log entry 4). -/
opaque sha256 : List Byte → Nat

/-- Whether an ECDSA P-256 signature of a hash verifies against the patch key or the firmware key (R417, R427; DESIGN CHOICE, log entry 4). -/
opaque signed (key : Nat) (hash : Nat) (signature : List Byte) : Bool

/-- The signature the device key gives a hash (R426; DESIGN CHOICE, log entry 4). -/
opaque deviceSign : Nat → List Byte

/-- The page number of the boot ROM, whose address the spec does not give (R428, R435). -/
opaque romPage : Nat

/-- What an identity or status word of BAR 0, a rail word, a patch-readback header word or an object-readback word holds:
the spec gives none of their contents or layouts (R358, R419, R422, R424; DESIGN CHOICE, log entry 8).  Applied to the offset and to what
the word reports about. -/
opaque deviceWord : Nat → Nat → Word

end Sys2Proof.Config
end

