-- ==== Sys2Proof/Syntax.lean ====
section
/-! DEFINITION. The instructions of the Silius set and the steps of the device, one constructor per row of
spec/opcode_table.json.  The first 233 constructors are the encoded instructions (R36–R49, R34) with their decoded
fields; the last 150 are the steps of the device (spec/95), whose arguments name the slot, line, message or unit
that takes the step, or hold what comes from outside the device. -/

namespace Sys2Proof

/-- One constructor per row of the opcode table. -/
inductive Instr where
  /-- ADD (R110). -/
  | add (g : Guard) (t : LaneType) (d : Reg) (a : Reg) (b : Reg)
  /-- SUB (R110). -/
  | sub (g : Guard) (t : LaneType) (d : Reg) (a : Reg) (b : Reg)
  /-- AND (R110). -/
  | and (g : Guard) (t : LaneType) (d : Reg) (a : Reg) (b : Reg)
  /-- OR (R110). -/
  | or (g : Guard) (t : LaneType) (d : Reg) (a : Reg) (b : Reg)
  /-- XOR (R110). -/
  | xor (g : Guard) (t : LaneType) (d : Reg) (a : Reg) (b : Reg)
  /-- SHL (R110). -/
  | shl (g : Guard) (t : LaneType) (d : Reg) (a : Reg) (b : Reg)
  /-- SHR (R110). -/
  | shr (g : Guard) (t : LaneType) (d : Reg) (a : Reg) (b : Reg)
  /-- SRA (R110). -/
  | sra (g : Guard) (t : LaneType) (d : Reg) (a : Reg) (b : Reg)
  /-- MUL (R110). -/
  | mul (g : Guard) (t : LaneType) (d : Reg) (a : Reg) (b : Reg)
  /-- MULH (R110). -/
  | mulh (g : Guard) (t : LaneType) (d : Reg) (a : Reg) (b : Reg)
  /-- MULHU (R110). -/
  | mulhu (g : Guard) (t : LaneType) (d : Reg) (a : Reg) (b : Reg)
  /-- MIN (R110). -/
  | min (g : Guard) (t : LaneType) (d : Reg) (a : Reg) (b : Reg)
  /-- MAX (R110). -/
  | max (g : Guard) (t : LaneType) (d : Reg) (a : Reg) (b : Reg)
  /-- MINU (R110). -/
  | minu (g : Guard) (t : LaneType) (d : Reg) (a : Reg) (b : Reg)
  /-- MAXU (R110). -/
  | maxu (g : Guard) (t : LaneType) (d : Reg) (a : Reg) (b : Reg)
  /-- MOV (R110). -/
  | mov (g : Guard) (t : LaneType) (d : Reg) (a : Reg)
  /-- MOV_16 (R130). -/
  | mov16 (t : LaneType) (d : Reg) (s : Reg)
  /-- ADD_16 (R130). -/
  | add16 (t : LaneType) (d : Reg) (s : Reg)
  /-- SUB_16 (R130). -/
  | sub16 (t : LaneType) (d : Reg) (s : Reg)
  /-- AND_16 (R130). -/
  | and16 (t : LaneType) (d : Reg) (s : Reg)
  /-- OR_16 (R130). -/
  | or16 (t : LaneType) (d : Reg) (s : Reg)
  /-- XOR_16 (R130). -/
  | xor16 (t : LaneType) (d : Reg) (s : Reg)
  /-- SHL_16 (R130). -/
  | shl16 (t : LaneType) (d : Reg) (s : Reg)
  /-- SHR_16 (R130). -/
  | shr16 (t : LaneType) (d : Reg) (s : Reg)
  /-- SRA_16 (R130). -/
  | sra16 (t : LaneType) (d : Reg) (s : Reg)
  /-- MUL_16 (R130). -/
  | mul16 (t : LaneType) (d : Reg) (s : Reg)
  /-- MIN_16 (R130). -/
  | min16 (t : LaneType) (d : Reg) (s : Reg)
  /-- MAX_16 (R130). -/
  | max16 (t : LaneType) (d : Reg) (s : Reg)
  /-- FADD_16 (R130). -/
  | fadd16 (t : LaneType) (d : Reg) (s : Reg)
  /-- FSUB_16 (R130). -/
  | fsub16 (t : LaneType) (d : Reg) (s : Reg)
  /-- FMUL_16 (R130). -/
  | fmul16 (t : LaneType) (d : Reg) (s : Reg)
  /-- FMAX_16 (R130). -/
  | fmax16 (t : LaneType) (d : Reg) (s : Reg)
  /-- ADDI (R111). -/
  | addi (g : Guard) (d : Reg) (a : Reg) (i : BitVec 12)
  /-- ANDI (R111). -/
  | andi (g : Guard) (d : Reg) (a : Reg) (i : BitVec 12)
  /-- ORI (R111). -/
  | ori (g : Guard) (d : Reg) (a : Reg) (i : BitVec 12)
  /-- XORI (R111). -/
  | xori (g : Guard) (d : Reg) (a : Reg) (i : BitVec 12)
  /-- SHLI (R112). -/
  | shli (g : Guard) (t : LaneType) (d : Reg) (a : Reg) (h : Fin 64)
  /-- SHRI (R112). -/
  | shri (g : Guard) (t : LaneType) (d : Reg) (a : Reg) (h : Fin 64)
  /-- SRAI (R112). -/
  | srai (g : Guard) (t : LaneType) (d : Reg) (a : Reg) (h : Fin 64)
  /-- RORI (R112). -/
  | rori (g : Guard) (t : LaneType) (d : Reg) (a : Reg) (h : Fin 64)
  /-- MOVI (R113). -/
  | movi (d : Reg) (i : BitVec 16) (w : Fin 4)
  /-- MOVK (R113). -/
  | movk (d : Reg) (i : BitVec 16) (w : Fin 4)
  /-- CLZ (R114). -/
  | clz (g : Guard) (t : LaneType) (d : Reg) (a : Reg)
  /-- CTZ (R114). -/
  | ctz (g : Guard) (t : LaneType) (d : Reg) (a : Reg)
  /-- POPC (R114). -/
  | popc (g : Guard) (t : LaneType) (d : Reg) (a : Reg)
  /-- BSWAP (R114). -/
  | bswap (g : Guard) (t : LaneType) (d : Reg) (a : Reg)
  /-- BREV (R114). -/
  | brev (g : Guard) (t : LaneType) (d : Reg) (a : Reg)
  /-- SEXT (R114). -/
  | sext (g : Guard) (t : LaneType) (d : Reg) (a : Reg)
  /-- ZEXT (R114). -/
  | zext (g : Guard) (t : LaneType) (d : Reg) (a : Reg)
  /-- BEXT (R114). -/
  | bext (g : Guard) (t : LaneType) (d : Reg) (a : Reg) (b : Reg)
  /-- BINS (R114). -/
  | bins (g : Guard) (t : LaneType) (d : Reg) (a : Reg) (b : Reg)
  /-- DIV (R115). -/
  | div (g : Guard) (t : LaneType) (d : Reg) (a : Reg) (b : Reg)
  /-- DIVU (R115). -/
  | divu (g : Guard) (t : LaneType) (d : Reg) (a : Reg) (b : Reg)
  /-- REM (R115). -/
  | rem (g : Guard) (t : LaneType) (d : Reg) (a : Reg) (b : Reg)
  /-- REMU (R115). -/
  | remu (g : Guard) (t : LaneType) (d : Reg) (a : Reg) (b : Reg)
  /-- CMP (R116). -/
  | cmp (g : Guard) (t : LaneType) (c : Cond) (p : Pred) (a : Reg) (b : Reg)
  /-- CMPI (R117). -/
  | cmpi (g : Guard) (c : Cond) (p : Pred) (a : Reg) (i : BitVec 8)
  /-- PAND (R118). -/
  | pand (g : Guard) (d : Pred) (a : Pred) (b : Pred)
  /-- POR (R118). -/
  | por (g : Guard) (d : Pred) (a : Pred) (b : Pred)
  /-- PXOR (R118). -/
  | pxor (g : Guard) (d : Pred) (a : Pred) (b : Pred)
  /-- PANDN (R118). -/
  | pandn (g : Guard) (d : Pred) (a : Pred) (b : Pred)
  /-- PGET (R118). -/
  | pget (g : Guard) (d : Reg)
  /-- PPUT (R118). -/
  | pput (g : Guard) (a : Reg)
  /-- SEL (R119). -/
  | sel (g : Guard) (d : Reg) (a : Reg) (b : Reg) (c : Pred)
  /-- LEA (R119). -/
  | lea (g : Guard) (d : Reg) (a : Reg) (b : Reg) (h : Fin 16)
  /-- PADD (R119). -/
  | padd (g : Guard) (d : Reg) (a : Reg) (b : Reg)
  /-- ADDS (R120). -/
  | adds (g : Guard) (t : LaneType) (d : Reg) (a : Reg) (b : Reg)
  /-- SUBS (R120). -/
  | subs (g : Guard) (t : LaneType) (d : Reg) (a : Reg) (b : Reg)
  /-- ADDSU (R120). -/
  | addsu (g : Guard) (t : LaneType) (d : Reg) (a : Reg) (b : Reg)
  /-- SUBSU (R120). -/
  | subsu (g : Guard) (t : LaneType) (d : Reg) (a : Reg) (b : Reg)
  /-- AVGU (R120). -/
  | avgu (g : Guard) (t : LaneType) (d : Reg) (a : Reg) (b : Reg)
  /-- ABSD (R120). -/
  | absd (g : Guard) (t : LaneType) (d : Reg) (a : Reg) (b : Reg)
  /-- NEG (R120). -/
  | neg (g : Guard) (t : LaneType) (d : Reg) (a : Reg)
  /-- ABS (R120). -/
  | abs (g : Guard) (t : LaneType) (d : Reg) (a : Reg)
  /-- VSHUF (R121). -/
  | vshuf (g : Guard) (t : LaneType) (d : Reg) (a : Reg) (b : Reg)
  /-- VPACK (R121). -/
  | vpack (g : Guard) (t : LaneType) (d : Reg) (a : Reg) (b : Reg)
  /-- VUNPKL (R121). -/
  | vunpkl (g : Guard) (t : LaneType) (d : Reg) (a : Reg)
  /-- VUNPKH (R121). -/
  | vunpkh (g : Guard) (t : LaneType) (d : Reg) (a : Reg)
  /-- VBCAST (R121). -/
  | vbcast (g : Guard) (t : LaneType) (d : Reg) (a : Reg)
  /-- VDOT (R121). -/
  | vdot (g : Guard) (t : LaneType) (d : Reg) (a : Reg) (b : Reg)
  /-- VRSUM (R121). -/
  | vrsum (g : Guard) (t : LaneType) (d : Reg) (a : Reg)
  /-- VCMP (R122). -/
  | vcmp (g : Guard) (t : LaneType) (c : Cond) (d : Reg) (a : Reg) (b : Reg)
  /-- VSEL (R122). -/
  | vsel (g : Guard) (t : LaneType) (d : Reg) (a : Reg) (b : Reg)
  /-- VMSK (R122). -/
  | vmsk (g : Guard) (t : LaneType) (d : Reg) (a : Reg)
  /-- FADD (R123). -/
  | fadd (g : Guard) (t : LaneType) (r : Round) (d : Reg) (a : Reg) (b : Reg)
  /-- FSUB (R123). -/
  | fsub (g : Guard) (t : LaneType) (r : Round) (d : Reg) (a : Reg) (b : Reg)
  /-- FMUL (R123). -/
  | fmul (g : Guard) (t : LaneType) (r : Round) (d : Reg) (a : Reg) (b : Reg)
  /-- FMA (R123). -/
  | fma (g : Guard) (t : LaneType) (r : Round) (d : Reg) (a : Reg) (b : Reg)
  /-- FMS (R123). -/
  | fms (g : Guard) (t : LaneType) (r : Round) (d : Reg) (a : Reg) (b : Reg)
  /-- FNMA (R123). -/
  | fnma (g : Guard) (t : LaneType) (r : Round) (d : Reg) (a : Reg) (b : Reg)
  /-- FMIN (R123). -/
  | fmin (g : Guard) (t : LaneType) (d : Reg) (a : Reg) (b : Reg)
  /-- FMAX (R123). -/
  | fmax (g : Guard) (t : LaneType) (d : Reg) (a : Reg) (b : Reg)
  /-- FABS (R123). -/
  | fabs (g : Guard) (t : LaneType) (d : Reg) (a : Reg)
  /-- FNEG (R123). -/
  | fneg (g : Guard) (t : LaneType) (d : Reg) (a : Reg)
  /-- FSGNJ (R123). -/
  | fsgnj (g : Guard) (t : LaneType) (d : Reg) (a : Reg) (b : Reg)
  /-- FDIV (R124). -/
  | fdiv (g : Guard) (t : LaneType) (r : Round) (d : Reg) (a : Reg) (b : Reg)
  /-- FSQRT (R124). -/
  | fsqrt (g : Guard) (t : LaneType) (r : Round) (d : Reg) (a : Reg)
  /-- FRCPE (R124). -/
  | frcpe (g : Guard) (t : LaneType) (d : Reg) (a : Reg)
  /-- FRSQE (R124). -/
  | frsqe (g : Guard) (t : LaneType) (d : Reg) (a : Reg)
  /-- FCMP (R126). -/
  | fcmp (g : Guard) (t : LaneType) (c : FCond) (p : Pred) (a : Reg) (b : Reg)
  /-- FCLASS (R127). -/
  | fclass (g : Guard) (t : LaneType) (d : Reg) (a : Reg)
  /-- ICVTF (R129). -/
  | icvtf (g : Guard) (t : LaneType) (r : Round) (u : Bool) (e : LaneType) (d : Reg) (a : Reg)
  /-- FCVT (R129). -/
  | fcvt (g : Guard) (t : LaneType) (r : Round) (sr : Bool) (e : LaneType) (d : Reg) (a : Reg)
  /-- FCVTI (R129). -/
  | fcvti (g : Guard) (t : LaneType) (r : Round) (u : Bool) (e : LaneType) (d : Reg) (a : Reg)
  /-- BR (R131). -/
  | br (g : Guard) (off : BitVec 20)
  /-- CALL (R131). -/
  | call (g : Guard) (d : Reg) (off : BitVec 16)
  /-- JMP (R132). -/
  | jmp (g : Guard) (a : Reg)
  /-- JAL (R132). -/
  | jal (g : Guard) (d : Reg) (a : Reg)
  /-- RET (R132). -/
  | ret (g : Guard) (a : Reg)
  /-- BRX (R132). -/
  | brx (g : Guard) (a : Reg) (b : Reg)
  /-- DBNZ (R131). -/
  | dbnz (g : Guard) (d : Reg) (off : BitVec 16)
  /-- LD (R143). -/
  | ld (g : Guard) (z : MSize) (x : Bool) (d : Reg) (a : Reg) (i : BitVec 8)
  /-- ST (R143). -/
  | st (g : Guard) (z : MSize) (d : Reg) (a : Reg) (i : BitVec 8)
  /-- LD_ORD (R146). -/
  | ldOrd (z : MSize) (o : Order) (sc : Scope) (d : Reg) (a : Reg)
  /-- LD_ORD_SIGNED (R146). -/
  | ldOrdSigned (z : MSize) (o : Order) (sc : Scope) (d : Reg) (a : Reg)
  /-- ST_ORD (R147). -/
  | stOrd (z : MSize) (o : Order) (sc : Scope) (a : Reg) (b : Reg)
  /-- LDT (R148). -/
  | ldt (f : MemFmt) (t : LaneType) (r : Round) (d : Reg) (a : Reg) (b : Reg)
  /-- STT (R148). -/
  | stt (f : MemFmt) (t : LaneType) (r : Round) (sr : Bool) (d : Reg) (a : Reg) (b : Reg)
  /-- AMO_ADD (R150). -/
  | amoAdd (y : AmoType) (o : Order) (sc : Scope) (d : Reg) (a : Reg) (b : Reg)
  /-- AMO_AND (R150). -/
  | amoAnd (y : AmoType) (o : Order) (sc : Scope) (d : Reg) (a : Reg) (b : Reg)
  /-- AMO_OR (R150). -/
  | amoOr (y : AmoType) (o : Order) (sc : Scope) (d : Reg) (a : Reg) (b : Reg)
  /-- AMO_XOR (R150). -/
  | amoXor (y : AmoType) (o : Order) (sc : Scope) (d : Reg) (a : Reg) (b : Reg)
  /-- AMO_MIN (R150). -/
  | amoMin (y : AmoType) (o : Order) (sc : Scope) (d : Reg) (a : Reg) (b : Reg)
  /-- AMO_MAX (R150). -/
  | amoMax (y : AmoType) (o : Order) (sc : Scope) (d : Reg) (a : Reg) (b : Reg)
  /-- AMO_MINU (R150). -/
  | amoMinu (y : AmoType) (o : Order) (sc : Scope) (d : Reg) (a : Reg) (b : Reg)
  /-- AMO_MAXU (R150). -/
  | amoMaxu (y : AmoType) (o : Order) (sc : Scope) (d : Reg) (a : Reg) (b : Reg)
  /-- AMO_SWAP (R150). -/
  | amoSwap (y : AmoType) (o : Order) (sc : Scope) (d : Reg) (a : Reg) (b : Reg)
  /-- AMO_CAS (R150). -/
  | amoCas (y : AmoType) (o : Order) (sc : Scope) (d : Reg) (a : Reg) (b : Reg)
  /-- AMO_CAS128 (R150). -/
  | amoCas128 (o : Order) (sc : Scope) (d : Reg) (a : Reg) (b : Reg)
  /-- AMO_FADD (R150). -/
  | amoFadd (y : AmoType) (o : Order) (sc : Scope) (d : Reg) (a : Reg) (b : Reg)
  /-- AMO_FMIN (R150). -/
  | amoFmin (y : AmoType) (o : Order) (sc : Scope) (d : Reg) (a : Reg) (b : Reg)
  /-- AMO_FMAX (R150). -/
  | amoFmax (y : AmoType) (o : Order) (sc : Scope) (d : Reg) (a : Reg) (b : Reg)
  /-- RED_ADD (R154). -/
  | redAdd (y : AmoType) (o : Order) (sc : Scope) (a : Reg) (b : Reg)
  /-- RED_AND (R154). -/
  | redAnd (y : AmoType) (o : Order) (sc : Scope) (a : Reg) (b : Reg)
  /-- RED_OR (R154). -/
  | redOr (y : AmoType) (o : Order) (sc : Scope) (a : Reg) (b : Reg)
  /-- RED_XOR (R154). -/
  | redXor (y : AmoType) (o : Order) (sc : Scope) (a : Reg) (b : Reg)
  /-- RED_MIN (R154). -/
  | redMin (y : AmoType) (o : Order) (sc : Scope) (a : Reg) (b : Reg)
  /-- RED_MAX (R154). -/
  | redMax (y : AmoType) (o : Order) (sc : Scope) (a : Reg) (b : Reg)
  /-- RED_MINU (R154). -/
  | redMinu (y : AmoType) (o : Order) (sc : Scope) (a : Reg) (b : Reg)
  /-- RED_MAXU (R154). -/
  | redMaxu (y : AmoType) (o : Order) (sc : Scope) (a : Reg) (b : Reg)
  /-- RED_FADD (R154). -/
  | redFadd (y : AmoType) (o : Order) (sc : Scope) (a : Reg) (b : Reg)
  /-- RED_FMIN (R154). -/
  | redFmin (y : AmoType) (o : Order) (sc : Scope) (a : Reg) (b : Reg)
  /-- RED_FMAX (R154). -/
  | redFmax (y : AmoType) (o : Order) (sc : Scope) (a : Reg) (b : Reg)
  /-- LDR_W (R156). -/
  | ldrW (d : Reg) (a : Reg)
  /-- STC (R157). -/
  | stc (a : Reg) (b : Reg)
  /-- RCANCEL (R158). -/
  | rcancel (a : Reg)
  /-- FENCE (R163). -/
  | fence (o : Order) (sc : Scope)
  /-- DRAIN_TS (R164). -/
  | drainTs
  /-- DRAIN_GM (R164). -/
  | drainGm
  /-- DRAIN_MX (R164). -/
  | drainMx
  /-- CLN (R165). -/
  | cln (sc : Scope) (a : Reg)
  /-- CINV (R166). -/
  | cinv (a : Reg)
  /-- IINV (R167). -/
  | iinv (a : Reg)
  /-- PREF (R168). -/
  | pref (a : Reg)
  /-- YIELD (R75). -/
  | yield (g : Guard)
  /-- PARK (R75). -/
  | park (g : Guard)
  /-- WAKE (R76). -/
  | wake (g : Guard) (a : Reg)
  /-- EXIT (R77). -/
  | exit (g : Guard)
  /-- MIGR (R78). -/
  | migr (g : Guard) (a : Reg)
  /-- MFS (R79). -/
  | mfs (g : Guard) (n : BitVec 12) (d : Reg)
  /-- MTS (R79). -/
  | mts (g : Guard) (n : BitVec 12) (d : Reg)
  /-- WID_F (R80). -/
  | widF (g : Guard) (k : Fin 8) (d : Reg)
  /-- FORK (R302). -/
  | fork (g : Guard) (off : BitVec 16)
  /-- SYNC (R303). -/
  | sync (g : Guard)
  /-- GANG (R308). -/
  | gang (g : Guard) (a : Reg)
  /-- LAUNCH (R287). -/
  | launch (g : Guard) (a : Reg)
  /-- TRIG (R288). -/
  | trig (g : Guard)
  /-- GRUN (R290). -/
  | grun (g : Guard) (a : Reg) (b : Reg)
  /-- SEND (R324). -/
  | send (g : Guard) (l : Fin 4) (a : Reg) (b : Reg)
  /-- QPUSH (R325). -/
  | qpush (g : Guard) (a : Reg) (b : Reg)
  /-- QPOP (R326). -/
  | qpop (g : Guard) (a : Reg) (d : Reg)
  /-- QSTAT (R327). -/
  | qstat (g : Guard) (a : Reg) (d : Reg)
  /-- WENQ (R160). -/
  | wenq (sc : Scope) (h : HNum) (a : Reg) (b : Reg)
  /-- BAR_INIT (R334). -/
  | barInit (g : Guard) (j : BNum) (a : Reg)
  /-- BAR_ARV (R337). -/
  | barArv (g : Guard) (j : BNum)
  /-- BAR_ARVB (R337). -/
  | barArvb (g : Guard) (j : BNum) (a : Reg)
  /-- BAR_EXP (R340). -/
  | barExp (g : Guard) (j : BNum) (a : Reg)
  /-- BAR_WAIT (R339). -/
  | barWait (g : Guard) (j : BNum) (a : Reg)
  /-- BAR_AW (R338). -/
  | barAw (g : Guard) (j : BNum)
  /-- BAR_TEST (R340). -/
  | barTest (g : Guard) (j : BNum) (d : Reg)
  /-- BAR_INV (R340). -/
  | barInv (g : Guard) (j : BNum)
  /-- DBAR (R338). -/
  | dbar (g : Guard) (j : BNum)
  /-- APND (R262). -/
  | apnd (g : Guard) (d : Reg) (a : Reg) (b : Reg)
  /-- APNDH (R262). -/
  | apndh (g : Guard) (h : HNum) (d : Reg) (a : Reg)
  /-- LDTAIL (R263). -/
  | ldtail (g : Guard) (d : Reg) (a : Reg)
  /-- SEAL (R264). -/
  | seal (g : Guard) (a : Reg)
  /-- XINV (R257). -/
  | xinv (g : Guard) (a : Reg) (b : Reg)
  /-- RCOMMIT (R401). -/
  | rcommit (g : Guard) (st : Fin 8) (a : Reg) (b : Reg)
  /-- RMARK (R403). -/
  | rmark (g : Guard) (st : Fin 8) (d : Reg)
  /-- TRAP (R376). -/
  | trap (g : Guard) (i : BitVec 12)
  /-- EBRK (R376). -/
  | ebrk (g : Guard)
  /-- RESUME (R375). -/
  | resume (g : Guard) (m : ResumeMode) (a : Reg) (b : Reg)
  /-- HALT (R376). -/
  | halt (g : Guard)
  /-- TRC (R376). -/
  | trc (g : Guard) (i : BitVec 12)
  /-- HDEF (R176). -/
  | hdef (h : HNum) (a : Reg)
  /-- HINFO (R182). -/
  | hinfo (h : HNum) (d : Reg)
  /-- HSEAL (R176). -/
  | hseal (h : HNum)
  /-- HOPEN (R176). -/
  | hopen (h : HNum)
  /-- HMAP (R179). -/
  | hmap (h : HNum) (a : Reg)
  /-- HUNMAP (R176). -/
  | hunmap (h : HNum)
  /-- LDH (R183). -/
  | ldh (h : HNum) (d : Reg) (a : Reg)
  /-- STH (R183). -/
  | sth (h : HNum) (a : Reg) (b : Reg)
  /-- CPY_G2T (R185). -/
  | cpyG2t (sc : Scope) (h : HNum) (a : Reg) (b : Reg)
  /-- CPY_T2G (R185). -/
  | cpyT2g (sc : Scope) (h : HNum) (a : Reg) (b : Reg)
  /-- CPY_T2T (R185). -/
  | cpyT2t (sc : Scope) (h : HNum) (ha : HNum) (b : Reg)
  /-- CPY_G2G (R185). -/
  | cpyG2g (sc : Scope) (d : Reg) (a : Reg) (b : Reg)
  /-- CPY_G2Q (R185). -/
  | cpyG2q (sc : Scope) (q : Fin 4) (a : Reg) (b : Reg)
  /-- CPY_GAT (R185). -/
  | cpyGat (sc : Scope) (h : HNum) (a : Reg) (b : Reg)
  /-- CPY_SCA (R185). -/
  | cpySca (sc : Scope) (h : HNum) (a : Reg) (b : Reg)
  /-- TV_ADD (R195). -/
  | tvAdd (r : Round) (hd : HNum) (ha : HNum) (hb : HNum)
  /-- TV_SUB (R195). -/
  | tvSub (r : Round) (hd : HNum) (ha : HNum) (hb : HNum)
  /-- TV_MUL (R195). -/
  | tvMul (r : Round) (hd : HNum) (ha : HNum) (hb : HNum)
  /-- TV_FMA (R195). -/
  | tvFma (r : Round) (hd : HNum) (ha : HNum) (hb : HNum)
  /-- TV_MIN (R195). -/
  | tvMin (r : Round) (hd : HNum) (ha : HNum) (hb : HNum)
  /-- TV_MAX (R195). -/
  | tvMax (r : Round) (hd : HNum) (ha : HNum) (hb : HNum)
  /-- TV_ABS (R195). -/
  | tvAbs (hd : HNum) (ha : HNum)
  /-- TV_EXP2 (R195). -/
  | tvExp2 (hd : HNum) (ha : HNum)
  /-- TV_RCP (R195). -/
  | tvRcp (hd : HNum) (ha : HNum)
  /-- TV_CVT (R196). -/
  | tvCvt (r : Round) (sr : Bool) (hd : HNum) (ha : HNum)
  /-- TV_RED (R196). -/
  | tvRed (ro : RedOp) (all : Bool) (hd : HNum) (ha : HNum)
  /-- TV_BCAST (R196). -/
  | tvBcast (hd : HNum) (ha : HNum)
  /-- TV_TRANS (R196). -/
  | tvTrans (hd : HNum) (ha : HNum)
  /-- TV_SEL (R195). -/
  | tvSel (hd : HNum) (ha : HNum) (hb : HNum)
  /-- TV_SCALE (R195). -/
  | tvScale (hd : HNum) (ha : HNum) (hb : HNum)
  /-- MCFG (R209). -/
  | mcfg (m : Fin 8) (a : Reg)
  /-- MLOADB (R210). -/
  | mloadb (m : Fin 8) (ha : HNum)
  /-- MMAC (R211). -/
  | mmac (m : Fin 8) (ha : HNum) (hd : HNum) (a : Reg)
  /-- MMACS (R212). -/
  | mmacs (m : Fin 8) (ha : HNum) (hd : HNum) (a : Reg)
  /-- MEPI (R213). -/
  | mepi (m : Fin 8) (ha : HNum) (hd : HNum) (a : Reg)
  /-- CTSWAP (R214). -/
  | ctswap (t : Fin 8)
  /-- MSEM_WAIT (R219). -/
  | msemWait (g : Guard) (n : Fin 16)
  /-- MSEM_POST (R219). -/
  | msemPost (g : Guard) (n : Fin 16)
  /-- MDRAIN (R220). -/
  | mdrain (g : Guard)
  /-- Step LINE_BIND (R65). -/
  | lineBind (c : Nat) (k : Nat)
  /-- Step ROTATION (R65). -/
  | rotation (c : Nat) (k : Nat)
  /-- Step PRIORITY_AGING (R65). -/
  | priorityAging (l : Nat)
  /-- Step CONTEXT_FILL (R67). -/
  | contextFill (c : Nat)
  /-- Step LINE_FORWARD (R67). -/
  | lineForward (l : Nat)
  /-- Step LOAD_REPLY (R68). -/
  | loadReply (m : Nat)
  /-- Step S_REGISTER_REPLY (R71). -/
  | sRegisterReply (m : Nat)
  /-- Step LONG_OPERATION_COMPLETION (R106). -/
  | longOperationCompletion (m : Nat)
  /-- Step WRITE_ACKNOWLEDGEMENT (R138). -/
  | writeAcknowledgement (m : Nat)
  /-- Step DURABLE_ACKNOWLEDGEMENT (R138). -/
  | durableAcknowledgement (m : Nat)
  /-- Step FAULT_ANSWER (R372). -/
  | faultAnswer (m : Nat)
  /-- Step HELD_RELEASE (R216). -/
  | heldRelease (c : Nat) (l : Nat)
  /-- Step WAIT_DEADLINE (R69). -/
  | waitDeadline (l : Nat)
  /-- Step WAKE_APPLY (R76). -/
  | wakeApply (m : Nat)
  /-- Step RESUME_APPLY (R375). -/
  | resumeApply (m : Nat)
  /-- Step MIGRATE_MOVE (R78). -/
  | migrateMove (m : Nat)
  /-- Step TRANSLATE (R250). -/
  | translate (m : Nat)
  /-- Step PAGE_WALK (R250). -/
  | pageWalk (m : Nat)
  /-- Step HOME_ACCESS (R224). -/
  | homeAccess (m : Nat)
  /-- Step VISITOR_INVALIDATE (R229). -/
  | visitorInvalidate (m : Nat)
  /-- Step OWNERSHIP_REQUEST (R153). -/
  | ownershipRequest (m : Nat)
  /-- Step OWNER_RECALL (R153). -/
  | ownerRecall (c : Nat) (l : Nat)
  /-- Step STASH_FILL (R179). -/
  | stashFill (m : Nat)
  /-- Step STASH_RECALL (R180). -/
  | stashRecall (c : Nat) (l : Nat)
  /-- Step RESERVATION_ENQUEUE (R156). -/
  | reservationEnqueue (m : Nat)
  /-- Step RESERVATION_GRANT (R156). -/
  | reservationGrant (l : Nat)
  /-- Step CONDITIONAL_STORE (R157). -/
  | conditionalStore (m : Nat)
  /-- Step RESERVATION_TIMEOUT (R158). -/
  | reservationTimeout (l : Nat)
  /-- Step WENQ_ACCEPT (R161). -/
  | wenqAccept (m : Nat)
  /-- Step WENQ_PUSH (R161). -/
  | wenqPush (m : Nat)
  /-- Step SEND_DELIVERY (R324). -/
  | sendDelivery (m : Nat)
  /-- Step FAULT_MESSAGE (R369). -/
  | faultMessage (m : Nat)
  /-- Step MISMATCH_THRESHOLD (R423). -/
  | mismatchThreshold (c : Nat)
  /-- Step COPY_ACCEPT (R184). -/
  | copyAccept (m : Nat)
  /-- Step COPY_START (R192). -/
  | copyStart (cl : Nat)
  /-- Step MULTICAST_DELIVERY (R187). -/
  | multicastDelivery (m : Nat)
  /-- Step COPY_COMPLETE (R188). -/
  | copyComplete (cl : Nat) (id : Nat)
  /-- Step COPY_ERROR (R190). -/
  | copyError (cl : Nat) (id : Nat)
  /-- Step BYTE_ARRIVAL (R342). -/
  | byteArrival (m : Nat)
  /-- Step TV_START (R194). -/
  | tvStart (c : Nat)
  /-- Step TV_COMPLETE (R194). -/
  | tvComplete (x : TvEnd)
  /-- Step MATRIX_ACCEPT (R205). -/
  | matrixAccept (m : Nat)
  /-- Step MATRIX_OP_START (R206). -/
  | matrixOpStart (cl : Nat)
  /-- Step MLOADB_EXECUTE (R210). -/
  | mloadbExecute (cl : Nat)
  /-- Step MASK_POP (R212). -/
  | maskPop (cl : Nat)
  /-- Step MATRIX_PASS (R201). -/
  | matrixPass (cl : Nat)
  /-- Step PASS_CHECK (R215). -/
  | passCheck (cl : Nat) (x : PassUpset)
  /-- Step EPILOGUE_ROW (R213). -/
  | epilogueRow (cl : Nat)
  /-- Step MATRIX_COMPLETE (R207). -/
  | matrixComplete (cl : Nat)
  /-- Step ENGINE_SEMAPHORE_POST (R219). -/
  | engineSemaphorePost (m : Nat)
  /-- Step SEMAPHORE_GRANT (R219). -/
  | semaphoreGrant (m : Nat)
  /-- Step TABLE_SWAP (R214). -/
  | tableSwap (cl : Nat) (t : Nat)
  /-- Step BARRIER_COMPLETION (R331). -/
  | barrierCompletion (m : Nat)
  /-- Step NOTIFICATION (R341). -/
  | notification (x : NotifFrom)
  /-- Step GROUP_TABLE_READ (R335). -/
  | groupTableRead (m : Nat)
  /-- Step LAUNCH_ACCEPT (R287). -/
  | launchAccept (m : Nat)
  /-- Step PLACE_KERNEL (R274). -/
  | placeKernel (p : Nat)
  /-- Step SEED_CONTEXT (R276). -/
  | seedContext (p : Nat) (kid : Nat)
  /-- Step RESERVATION_PRIORITY (R310). -/
  | reservationPriority (p : Nat)
  /-- Step GANG_PLACE (R309). -/
  | gangPlace (p : Nat)
  /-- Step GANG_GRANT (R309). -/
  | gangGrant (m : Nat)
  /-- Step GANG_WITHDRAW (R308). -/
  | gangWithdraw (m : Nat)
  /-- Step TRIGGER_EVENT (R281). -/
  | triggerEvent (m : Nat)
  /-- Step TRIGGER_MESSAGE (R281). -/
  | triggerMessage (p : Nat) (kid : Nat) (j : Nat)
  /-- Step DONE_MESSAGE (R282). -/
  | doneMessage (p : Nat) (kid : Nat) (j : Nat)
  /-- Step GRUN_APPLY (R290). -/
  | grunApply (m : Nat)
  /-- Step GRAPH_REPLAY (R291). -/
  | graphReplay (p : Nat)
  /-- Step CONTINUATION_POP (R298). -/
  | continuationPop (c : Nat) (k : Nat)
  /-- Step RESUME_RECORD_POP (R299). -/
  | resumeRecordPop (c : Nat) (k : Nat)
  /-- Step RECORD_STEAL (R300). -/
  | recordSteal (cl : Nat)
  /-- Step RECORD_AGING (R297). -/
  | recordAging (cl : Nat) (lvl : Nat)
  /-- Step FORK_ALLOCATE (R302). -/
  | forkAllocate (m : Nat)
  /-- Step SYNC_TEST (R303). -/
  | syncTest (m : Nat)
  /-- Step JOIN_COMPLETION (R304). -/
  | joinCompletion (m : Nat)
  /-- Step APPEND_ARRIVAL (R262). -/
  | appendArrival (m : Nat)
  /-- Step TAIL_PUBLISH (R262). -/
  | tailPublish (f : Nat)
  /-- Step SEAL_ARRIVAL (R260). -/
  | sealArrival (m : Nat)
  /-- Step SEAL_COMPLETE (R260). -/
  | sealComplete (f : Nat)
  /-- Step REPLICA_MAKE (R265). -/
  | replicaMake (m : Nat)
  /-- Step RECLAIM (R260). -/
  | reclaim (f : Nat)
  /-- Step RECLAIM_COMPLETE (R260). -/
  | reclaimComplete (f : Nat)
  /-- Step XINV_INVALIDATE (R256). -/
  | xinvInvalidate (m : Nat)
  /-- Step XINV_ACK (R256). -/
  | xinvAck (m : Nat)
  /-- Step COMMIT_RECORD (R401). -/
  | commitRecord (m : Nat)
  /-- Step MIRROR_RETRY (R396). -/
  | mirrorRetry (d : Nat)
  /-- Step RCP_WRITE (R398). -/
  | rcpWrite (m : Nat)
  /-- Step SRSEED_WRITE (R79). -/
  | srseedWrite (c : Nat) (v : Word)
  /-- Step CTBL_WRITE (R94). -/
  | ctblWrite (m : Nat)
  /-- Step TSW_WRITE (R383). -/
  | tswWrite (l : Nat) (v : Word)
  /-- Step TRCCTL_WRITE (R379). -/
  | trcctlWrite (c : Nat) (v : Word)
  /-- Step GSWT_WRITE (R385). -/
  | gswtWrite (p : Nat) (v : Word)
  /-- Step GANG_SWITCH (R385). -/
  | gangSwitch (p : Nat)
  /-- Step REINJECT_ROUND (R387). -/
  | reinjectRound (p : Nat)
  /-- Step MACHINE_CHECK (R377). -/
  | machineCheck (c : Nat) (bank : Nat) (synd : Nat) (kind : Nat) (size : Nat) (pa : Word)
  /-- Step CONTAIN (R393). -/
  | contain (c : Nat)
  /-- Step CONTAINMENT_COMPLETE (R392). -/
  | containmentComplete (c : Nat)
  /-- Step DIE_RESET (R395). -/
  | dieReset (d : Nat) (keep : List Nat)
  /-- Step STACK_LOSS (R396). -/
  | stackLoss (st : Nat)
  /-- Step POWER_LOSS (R396). -/
  | powerLoss
  /-- Step THERMAL_LIMIT (R422). -/
  | thermalLimit (cl : Nat) (temp : Nat)
  /-- Step POWER_GRANT_STEP (R425). -/
  | powerGrantStep (req : List Nat)
  /-- Step FLIT_RECEIVE (R349). -/
  | flitReceive (lk : Nat) (sq : Nat) (f : FlitBody) (noise : List Byte)
  /-- Step REPLAY_REQUEST (R349). -/
  | replayRequest (lk : Nat) (sq : Nat)
  /-- Step LINK_ACK (R349). -/
  | linkAck (lk : Nat) (sq : Nat)
  /-- Step REPLAY_TIMEOUT (R349). -/
  | replayTimeout (lk : Nat)
  /-- Step LINK_RETRAIN (R349). -/
  | linkRetrain (lk : Nat)
  /-- Step LINK_ENABLE (R350). -/
  | linkEnable (lk : Nat)
  /-- Step TRAINING_COMPLETE (R350). -/
  | trainingComplete (lk : Nat)
  /-- Step TRAINING_TIMEOUT (R350). -/
  | trainingTimeout (lk : Nat)
  /-- Step LANE_DEGRADE (R350). -/
  | laneDegrade (lk : Nat) (lane : Nat)
  /-- Step LINK_DISABLE (R350). -/
  | linkDisable (lk : Nat)
  /-- Step INJCTL_WRITE (R355). -/
  | injctlWrite (i : Nat) (v : Word)
  /-- Step INJECTOR_FIRE (R356). -/
  | injectorFire (x : InjectedFlit)
  /-- Step HOST_MEM_ACCESS (R363). -/
  | hostMemAccess (pa : Nat) (wr : Bool) (d : List Byte)
  /-- Step BAR2_ACCESS (R357). -/
  | bar2Access (off : Nat) (wr : Bool) (d : List Byte)
  /-- Step SNP_INV (R362). -/
  | snpInv (pa : Nat)
  /-- Step SNP_DATA (R362). -/
  | snpData (pa : Nat)
  /-- Step SNP_CUR (R362). -/
  | snpCur (pa : Nat)
  /-- Step HOST_RESPONSE (R361). -/
  | hostResponse (m : Nat) (d : List Byte) (err : Bool)
  /-- Step BIRSP (R364). -/
  | birsp (m : Nat) (d : List Byte)
  /-- Step BIAS_FLIP_HOST (R364). -/
  | biasFlipHost (p : Nat)
  /-- Step BIAS_FLIP_DEVICE (R364). -/
  | biasFlipDevice (p : Nat)
  /-- Step FLIP_COMPLETE (R364). -/
  | flipComplete (p : Nat)
  /-- Step INTERRUPT_CAUSE_WRITE (R359). -/
  | interruptCauseWrite (p : Nat) (v : Word)
  /-- Step RING_DOORBELL (R359). -/
  | ringDoorbell (p : Nat) (k : Nat) (v : Nat)
  /-- Step RING_CONSUME (R318). -/
  | ringConsume (p : Nat) (k : Nat)
  /-- Step RING_RESET (R318). -/
  | ringReset (p : Nat) (k : Nat) (v : Nat)
  /-- Step PEER_PACKET (R320, R353). -/
  | peerPacket (dev : Nat) (pa : Nat) (q : PeerReq)
  /-- Step REGISTER_WRITE (R358). -/
  | registerWrite (fn : Nat) (off : Nat) (size : Nat) (v : Word)
  /-- Step MERGE (R382). -/
  | merge (m : Nat)
  /-- Step SPLIT (R382). -/
  | split (m : Nat)
  /-- Step END_KERNEL (R406). -/
  | endKernel (m : Nat)
  /-- Step LOAD_PATCH_IMAGE (R418). -/
  | loadPatchImage (m : Nat)
  /-- Step RESTART_CORE (R392). -/
  | restartCore (m : Nat) (pass : Bool)
  /-- Step RETIRE_CORE (R423). -/
  | retireCore (m : Nat)
  /-- Step ATTEST (R426). -/
  | attest (m : Nat)
  /-- Step UPDATE_FIRMWARE (R427). -/
  | updateFirmware (m : Nat)
  /-- Step LINK_STATE (R350). -/
  | linkState (m : Nat)
  /-- Step OBJECT_SELECT (R424). -/
  | objectSelect (v : Word)
  /-- Step POWER_UP (R428). -/
  | powerUp (img : List Byte)
  /-- Step PROBE (R436). -/
  | probe (die : Nat) (port : Nat) (r : Nat)
  /-- Step PRESENT (R436). -/
  | present (m : Nat)
  /-- Step DONE (R436). -/
  | done (m : Nat)
  /-- Step MAP_INSTALL (R438). -/
  | mapInstall (die : Nat)
  /-- Step IMAGE_STREAM (R438). -/
  | imageStream (die : Nat)
  /-- Step IMAGE_RECEIVE (R438). -/
  | imageReceive (m : Nat)
  /-- Step SOURCE_READ_COMPLETE (R177). -/
  | sourceReadComplete (cl : Nat) (id : Nat)
  /-- Step NOTIFICATION_NET_REPLY (R344). -/
  | notificationNetReply (m : Nat)
  /-- Step HOST_COMPLETION_TIMEOUT (R354). -/
  | hostCompletionTimeout (m : Nat)
  /-- Step LANE_TRAINING_FAILURE (R350). -/
  | laneTrainingFailure (lk : Nat) (lane : Nat)
  deriving DecidableEq, Repr

end Sys2Proof
end

