-- ==== Sys2Proof/WellFormed.lean ====
section
/-! DEFINITION. Which instructions are well formed: the operand combinations of R33, R34, R37–R45, R47, R48 that do
not raise ILL at step 5 of R52.  A step of the device is always well formed. -/

namespace Sys2Proof

/-- The integer lane types, codes 0 to 3 (R30). -/
def LaneType.isInt (t : LaneType) : Bool :=
  match t with
  | .i64 | .i32 | .i16 | .i8 => true
  | .f64 | .f32 | .bf16 | .f16 => false

/-- The floating-point lane types, codes 4 to 7 (R30). -/
def LaneType.isFp (t : LaneType) : Bool := !t.isInt

/-- Lane width in bits (R30). -/
def LaneType.width (t : LaneType) : Nat :=
  match t with
  | .i64 | .f64 => 64
  | .i32 | .f32 => 32
  | .i16 | .bf16 | .f16 => 16
  | .i8 => 8

/-- Condition codes 0 to 11, which integer lane types accept (R33). -/
def Cond.isInt (c : Cond) : Bool :=
  match c with
  | .eq | .ne | .lt | .ge | .ltu | .geu | .le | .gt | .leu | .gtu | .tst | .ntst => true
  | .un | .ord => false

/-- Condition codes 0–3, 6, 7, 12 and 13, which FP lane types accept (R33). -/
def Cond.isFp (c : Cond) : Bool :=
  match c with
  | .eq | .ne | .lt | .ge | .le | .gt | .un | .ord => true
  | .ltu | .geu | .leu | .gtu | .tst | .ntst => false

/-- The floating-point atomic types, codes 2 to 6 (R44). -/
def AmoType.isFp (y : AmoType) : Bool :=
  match y with
  | .bf16 | .f32 | .f64 | .f32x2 | .bf16x2 => true
  | .i32 | .i64 | .i128 => false

/-- A register pair names a register of even index (R26). -/
def evenReg (r : Reg) : Bool := r.val % 2 == 0

/-- Legal pairs of memory format and lane type for `ldt` (R45). -/
def ldtLegal (f : MemFmt) (t : LaneType) : Bool :=
  match f with
  | .i8 | .z8 => t == .i64 || t == .i32 || t == .i16
  | .e4m3 | .e5m2 => t == .f32 || t == .bf16 || t == .f16
  | .fp4 => t == .bf16
  | .bf16 => t == .f32

/-- Legal pairs for `stt`: those of `ldt` without z8 (R45). -/
def sttLegal (f : MemFmt) (t : LaneType) : Bool := f != .z8 && ldtLegal f t

/-- The system register numbers of R48 and R383. -/
def sysRegListed (n : BitVec 12) : Bool :=
  let k := n.toNat
  decide (k ≤ 0x008) || (decide (0x010 ≤ k) && decide (k ≤ 0x017)) || (decide (0x020 ≤ k) && decide (k ≤ 0x027)) ||
  (decide (0x100 ≤ k) && decide (k ≤ 0x105)) || (decide (0x108 ≤ k) && decide (k ≤ 0x10B)) ||
  (decide (0x110 ≤ k) && decide (k ≤ 0x114)) || k == 0x118 ||
  (decide (0x120 ≤ k) && decide (k ≤ 0x123)) || k == 0x125

/-- The operand checks of step 5 of R52, per instruction. -/
def Instr.wellFormed (i : Instr) : Bool :=
  match i with
  | .add _ t _ _ _ => t.isInt
  | .sub _ t _ _ _ => t.isInt
  | .and _ t _ _ _ => t.isInt
  | .or _ t _ _ _ => t.isInt
  | .xor _ t _ _ _ => t.isInt
  | .shl _ t _ _ _ => t.isInt
  | .shr _ t _ _ _ => t.isInt
  | .sra _ t _ _ _ => t.isInt
  | .mul _ t _ _ _ => t.isInt
  | .mulh _ t _ _ _ => t.isInt
  | .mulhu _ t _ _ _ => t.isInt
  | .min _ t _ _ _ => t.isInt
  | .max _ t _ _ _ => t.isInt
  | .minu _ t _ _ _ => t.isInt
  | .maxu _ t _ _ _ => t.isInt
  | .mov _ _ _ _ => true
  | .mov16 t d s => !(t == .i64 && d == 0 && s == 0)
  | .add16 t _ _ => t.isInt
  | .sub16 t _ _ => t.isInt
  | .and16 t _ _ => t.isInt
  | .or16 t _ _ => t.isInt
  | .xor16 t _ _ => t.isInt
  | .shl16 t _ _ => t.isInt
  | .shr16 t _ _ => t.isInt
  | .sra16 t _ _ => t.isInt
  | .mul16 t _ _ => t.isInt
  | .min16 t _ _ => t.isInt
  | .max16 t _ _ => t.isInt
  | .fadd16 t _ _ => t.isFp
  | .fsub16 t _ _ => t.isFp
  | .fmul16 t _ _ => t.isFp
  | .fmax16 t _ _ => t.isFp
  | .addi _ _ _ _ => true
  | .andi _ _ _ _ => true
  | .ori _ _ _ _ => true
  | .xori _ _ _ _ => true
  | .shli _ t _ _ h => t.isInt && decide (h.val < t.width)
  | .shri _ t _ _ h => t.isInt && decide (h.val < t.width)
  | .srai _ t _ _ h => t.isInt && decide (h.val < t.width)
  | .rori _ t _ _ h => t.isInt && decide (h.val < t.width)
  | .movi _ _ _ => true
  | .movk _ _ _ => true
  | .clz _ t _ _ => t.isInt
  | .ctz _ t _ _ => t.isInt
  | .popc _ t _ _ => t.isInt
  | .bswap _ t _ _ => t.isInt
  | .brev _ t _ _ => t.isInt
  | .sext _ t _ _ => t.isInt && t != .i64
  | .zext _ t _ _ => t.isInt && t != .i64
  | .bext _ t _ _ _ => t.isInt
  | .bins _ t _ _ _ => t.isInt
  | .div _ t _ _ _ => t.isInt
  | .divu _ t _ _ _ => t.isInt
  | .rem _ t _ _ _ => t.isInt
  | .remu _ t _ _ _ => t.isInt
  | .cmp _ t c _ _ _ => t.isInt && c.isInt
  | .cmpi _ c _ _ _ => c.isInt
  | .pand _ _ _ _ => true
  | .por _ _ _ _ => true
  | .pxor _ _ _ _ => true
  | .pandn _ _ _ _ => true
  | .pget _ _ => true
  | .pput _ _ => true
  | .sel _ _ _ _ _ => true
  | .lea _ _ _ _ _ => true
  | .padd _ _ _ _ => true
  | .adds _ t _ _ _ => t.isInt
  | .subs _ t _ _ _ => t.isInt
  | .addsu _ t _ _ _ => t.isInt
  | .subsu _ t _ _ _ => t.isInt
  | .avgu _ t _ _ _ => t.isInt
  | .absd _ t _ _ _ => t.isInt
  | .neg _ t _ _ => t.isInt
  | .abs _ t _ _ => t.isInt
  | .vshuf _ t _ _ _ => t.isInt
  | .vpack _ t _ _ _ => t == .i32 || t == .i16
  | .vunpkl _ t _ _ => t == .i16 || t == .i8
  | .vunpkh _ t _ _ => t == .i16 || t == .i8
  | .vbcast _ t _ _ => t.isInt
  | .vdot _ t _ _ _ => t == .i16 || t == .i8
  | .vrsum _ t _ _ => t.isInt
  | .vcmp _ t c _ _ _ => if t.isInt then c.isInt else c.isFp
  | .vsel _ _ _ _ _ => true
  | .vmsk _ _ _ _ => true
  | .fadd _ t _ _ _ _ => t.isFp
  | .fsub _ t _ _ _ _ => t.isFp
  | .fmul _ t _ _ _ _ => t.isFp
  | .fma _ t _ _ _ _ => t.isFp
  | .fms _ t _ _ _ _ => t.isFp
  | .fnma _ t _ _ _ _ => t.isFp
  | .fmin _ t _ _ _ => t.isFp
  | .fmax _ t _ _ _ => t.isFp
  | .fabs _ t _ _ => t.isFp
  | .fneg _ t _ _ => t.isFp
  | .fsgnj _ t _ _ _ => t.isFp
  | .fdiv _ t _ _ _ _ => t.isFp
  | .fsqrt _ t _ _ _ => t.isFp
  | .frcpe _ t _ _ => t.isFp
  | .frsqe _ t _ _ => t.isFp
  | .fcmp _ t _ _ _ _ => t.isFp
  | .fclass _ t _ _ => t.isFp
  | .icvtf _ t _ _ e _ _ => t.isFp && e.isInt
  | .fcvt _ t r sr e _ _ => t.isFp && e.isFp && (!sr || (t == .bf16 && r == .rne))
  | .fcvti _ t _ _ e _ _ => t.isInt && e.isFp
  | .br _ _ => true
  | .call _ _ _ => true
  | .jmp _ _ => true
  | .jal _ _ _ => true
  | .ret _ _ => true
  | .brx _ _ _ => true
  | .dbnz _ _ _ => true
  | .ld _ z x d _ _ => (!x || (z != .d && z != .q)) && (z != .q || evenReg d)
  | .st _ z d _ _ => z != .q || evenReg d
  | .ldOrd z o sc d _ => o != .rel && sc != .recov && (z != .q || evenReg d)
  | .ldOrdSigned z o sc _ _ => (z == .b || z == .h || z == .w) && o != .rel && sc != .recov
  | .stOrd z o sc _ b => o != .acq && (sc != .recov || o == .rel) && (z != .q || evenReg b)
  | .ldt f t r _ _ b => ldtLegal f t && (f == .fp4 || (b == 0 && r == .rne))
  | .stt f t r sr _ _ b => sttLegal f t && (f == .fp4 || b == 0) && (f != .i8 || (r == .rne && !sr)) && (!sr || r == .rne)
  | .amoAdd y o sc _ _ _ => (y == .i32 || y == .i64) && (sc != .recov || o == .rel)
  | .amoAnd y o sc _ _ _ => (y == .i32 || y == .i64) && (sc != .recov || o == .rel)
  | .amoOr y o sc _ _ _ => (y == .i32 || y == .i64) && (sc != .recov || o == .rel)
  | .amoXor y o sc _ _ _ => (y == .i32 || y == .i64) && (sc != .recov || o == .rel)
  | .amoMin y o sc _ _ _ => (y == .i32 || y == .i64) && (sc != .recov || o == .rel)
  | .amoMax y o sc _ _ _ => (y == .i32 || y == .i64) && (sc != .recov || o == .rel)
  | .amoMinu y o sc _ _ _ => (y == .i32 || y == .i64) && (sc != .recov || o == .rel)
  | .amoMaxu y o sc _ _ _ => (y == .i32 || y == .i64) && (sc != .recov || o == .rel)
  | .amoSwap y o sc _ _ _ => (y == .i32 || y == .i64) && (sc != .recov || o == .rel)
  | .amoCas y o sc _ _ _ => (y == .i32 || y == .i64) && (sc != .recov || o == .rel)
  | .amoCas128 o sc d _ b => (sc != .recov || o == .rel) && evenReg d && evenReg b
  | .amoFadd y o sc _ _ _ => y.isFp && (sc != .recov || o == .rel)
  | .amoFmin y o sc _ _ _ => y.isFp && (sc != .recov || o == .rel)
  | .amoFmax y o sc _ _ _ => y.isFp && (sc != .recov || o == .rel)
  | .redAdd y o sc _ _ => (y == .i32 || y == .i64) && (sc != .recov || o == .rel) && (o == .rlx || o == .rel)
  | .redAnd y o sc _ _ => (y == .i32 || y == .i64) && (sc != .recov || o == .rel) && (o == .rlx || o == .rel)
  | .redOr y o sc _ _ => (y == .i32 || y == .i64) && (sc != .recov || o == .rel) && (o == .rlx || o == .rel)
  | .redXor y o sc _ _ => (y == .i32 || y == .i64) && (sc != .recov || o == .rel) && (o == .rlx || o == .rel)
  | .redMin y o sc _ _ => (y == .i32 || y == .i64) && (sc != .recov || o == .rel) && (o == .rlx || o == .rel)
  | .redMax y o sc _ _ => (y == .i32 || y == .i64) && (sc != .recov || o == .rel) && (o == .rlx || o == .rel)
  | .redMinu y o sc _ _ => (y == .i32 || y == .i64) && (sc != .recov || o == .rel) && (o == .rlx || o == .rel)
  | .redMaxu y o sc _ _ => (y == .i32 || y == .i64) && (sc != .recov || o == .rel) && (o == .rlx || o == .rel)
  | .redFadd y o sc _ _ => y.isFp && (sc != .recov || o == .rel) && (o == .rlx || o == .rel)
  | .redFmin y o sc _ _ => y.isFp && (sc != .recov || o == .rel) && (o == .rlx || o == .rel)
  | .redFmax y o sc _ _ => y.isFp && (sc != .recov || o == .rel) && (o == .rlx || o == .rel)
  | .ldrW _ _ => true
  | .stc _ _ => true
  | .rcancel _ => true
  | .fence o _ => o != .rlx
  | .drainTs => true
  | .drainGm => true
  | .drainMx => true
  | .cln _ _ => true
  | .cinv _ => true
  | .iinv _ => true
  | .pref _ => true
  | .yield _ => true
  | .park _ => true
  | .wake _ _ => true
  | .exit _ => true
  | .migr _ _ => true
  | .mfs _ n _ => sysRegListed n
  | .mts _ n _ => sysRegListed n
  | .widF _ k _ => k != 0 && k != 7
  | .fork _ _ => true
  | .sync _ => true
  | .gang _ _ => true
  | .launch _ _ => true
  | .trig _ => true
  | .grun _ _ _ => true
  | .send _ l _ b => decide (b.val % 8 + l.val ≤ 7)
  | .qpush _ _ _ => true
  | .qpop _ _ d => evenReg d
  | .qstat _ _ _ => true
  | .wenq _ _ _ _ => true
  | .barInit _ _ _ => true
  | .barArv _ _ => true
  | .barArvb _ _ _ => true
  | .barExp _ _ _ => true
  | .barWait _ _ _ => true
  | .barAw _ _ => true
  | .barTest _ _ _ => true
  | .barInv _ _ => true
  | .dbar _ _ => true
  | .apnd _ _ _ _ => true
  | .apndh _ _ _ _ => true
  | .ldtail _ _ _ => true
  | .seal _ _ => true
  | .xinv _ _ _ => true
  | .rcommit _ _ _ _ => true
  | .rmark _ _ _ => true
  | .trap _ _ => true
  | .ebrk _ => true
  | .resume _ m _ b => m == .handler || b == 0
  | .halt _ => true
  | .trc _ _ => true
  | .hdef _ _ => true
  | .hinfo _ _ => true
  | .hseal _ => true
  | .hopen _ => true
  | .hmap _ _ => true
  | .hunmap _ => true
  | .ldh _ _ _ => true
  | .sth _ _ _ => true
  | .cpyG2t _ _ _ _ => true
  | .cpyT2g _ _ _ _ => true
  | .cpyT2t _ _ _ _ => true
  | .cpyG2g _ _ _ _ => true
  | .cpyG2q _ _ _ _ => true
  | .cpyGat _ _ _ _ => true
  | .cpySca _ _ _ _ => true
  | .tvAdd _ _ _ _ => true
  | .tvSub _ _ _ _ => true
  | .tvMul _ _ _ _ => true
  | .tvFma _ _ _ _ => true
  | .tvMin _ _ _ _ => true
  | .tvMax _ _ _ _ => true
  | .tvAbs _ _ => true
  | .tvExp2 _ _ => true
  | .tvRcp _ _ => true
  | .tvCvt _ _ _ _ => true
  | .tvRed _ _ _ _ => true
  | .tvBcast _ _ => true
  | .tvTrans _ _ => true
  | .tvSel _ _ _ => true
  | .tvScale _ _ _ => true
  | .mcfg _ _ => true
  | .mloadb _ _ => true
  | .mmac _ _ _ _ => true
  | .mmacs _ _ _ _ => true
  | .mepi _ _ _ _ => true
  | .ctswap _ => true
  | .msemWait _ _ => true
  | .msemPost _ _ => true
  | .mdrain _ => true
  | .lineBind _ _ => true
  | .rotation _ _ => true
  | .priorityAging _ => true
  | .contextFill _ => true
  | .lineForward _ => true
  | .loadReply _ => true
  | .sRegisterReply _ => true
  | .longOperationCompletion _ => true
  | .writeAcknowledgement _ => true
  | .durableAcknowledgement _ => true
  | .faultAnswer _ => true
  | .heldRelease _ _ => true
  | .waitDeadline _ => true
  | .wakeApply _ => true
  | .resumeApply _ => true
  | .migrateMove _ => true
  | .translate _ => true
  | .pageWalk _ => true
  | .homeAccess _ => true
  | .visitorInvalidate _ => true
  | .ownershipRequest _ => true
  | .ownerRecall _ _ => true
  | .stashFill _ => true
  | .stashRecall _ _ => true
  | .reservationEnqueue _ => true
  | .reservationGrant _ => true
  | .conditionalStore _ => true
  | .reservationTimeout _ => true
  | .wenqAccept _ => true
  | .wenqPush _ => true
  | .sendDelivery _ => true
  | .faultMessage _ => true
  | .mismatchThreshold _ => true
  | .copyAccept _ => true
  | .copyStart _ => true
  | .multicastDelivery _ => true
  | .copyComplete _ _ => true
  | .copyError _ _ => true
  | .byteArrival _ => true
  | .tvStart _ => true
  | .tvComplete _ => true
  | .matrixAccept _ => true
  | .matrixOpStart _ => true
  | .mloadbExecute _ => true
  | .maskPop _ => true
  | .matrixPass _ => true
  | .passCheck _ _ => true
  | .epilogueRow _ => true
  | .matrixComplete _ => true
  | .engineSemaphorePost _ => true
  | .semaphoreGrant _ => true
  | .tableSwap _ _ => true
  | .barrierCompletion _ => true
  | .notification _ => true
  | .groupTableRead _ => true
  | .launchAccept _ => true
  | .placeKernel _ => true
  | .seedContext _ _ => true
  | .reservationPriority _ => true
  | .gangPlace _ => true
  | .gangGrant _ => true
  | .gangWithdraw _ => true
  | .triggerEvent _ => true
  | .triggerMessage _ _ _ => true
  | .doneMessage _ _ _ => true
  | .grunApply _ => true
  | .graphReplay _ => true
  | .continuationPop _ _ => true
  | .resumeRecordPop _ _ => true
  | .recordSteal _ => true
  | .recordAging _ _ => true
  | .forkAllocate _ => true
  | .syncTest _ => true
  | .joinCompletion _ => true
  | .appendArrival _ => true
  | .tailPublish _ => true
  | .sealArrival _ => true
  | .sealComplete _ => true
  | .replicaMake _ => true
  | .reclaim _ => true
  | .reclaimComplete _ => true
  | .xinvInvalidate _ => true
  | .xinvAck _ => true
  | .commitRecord _ => true
  | .mirrorRetry _ => true
  | .rcpWrite _ => true
  | .srseedWrite _ _ => true
  | .ctblWrite _ => true
  | .tswWrite _ _ => true
  | .trcctlWrite _ _ => true
  | .gswtWrite _ _ => true
  | .gangSwitch _ => true
  | .reinjectRound _ => true
  | .machineCheck _ _ _ _ _ _ => true
  | .contain _ => true
  | .containmentComplete _ => true
  | .dieReset _ _ => true
  | .stackLoss _ => true
  | .powerLoss => true
  | .thermalLimit _ _ => true
  | .powerGrantStep _ => true
  | .flitReceive _ _ _ _ => true
  | .replayRequest _ _ => true
  | .linkAck _ _ => true
  | .replayTimeout _ => true
  | .linkRetrain _ => true
  | .linkEnable _ => true
  | .trainingComplete _ => true
  | .trainingTimeout _ => true
  | .laneDegrade _ _ => true
  | .linkDisable _ => true
  | .injctlWrite _ _ => true
  | .injectorFire _ => true
  | .hostMemAccess _ _ _ => true
  | .bar2Access _ _ _ => true
  | .snpInv _ => true
  | .snpData _ => true
  | .snpCur _ => true
  | .hostResponse _ _ _ => true
  | .birsp _ _ => true
  | .biasFlipHost _ => true
  | .biasFlipDevice _ => true
  | .flipComplete _ => true
  | .interruptCauseWrite _ _ => true
  | .ringDoorbell _ _ _ => true
  | .ringConsume _ _ => true
  | .ringReset _ _ _ => true
  | .peerPacket _ _ _ => true
  | .registerWrite _ _ _ _ => true
  | .merge _ => true
  | .split _ => true
  | .endKernel _ => true
  | .loadPatchImage _ => true
  | .restartCore _ _ => true
  | .retireCore _ => true
  | .attest _ => true
  | .updateFirmware _ => true
  | .linkState _ => true
  | .objectSelect _ => true
  | .powerUp _ => true
  | .probe _ _ _ => true
  | .present _ => true
  | .done _ => true
  | .mapInstall _ => true
  | .imageStream _ => true
  | .imageReceive _ => true
  | .sourceReadComplete _ _ => true
  | .notificationNetReply _ => true
  | .hostCompletionTimeout _ => true
  | .laneTrainingFailure _ _ => true

/-- Steps of the device, which have no encoding (rows 234 to 383 of the table). -/
def Instr.isEvent (i : Instr) : Bool :=
  match i with
  | .add _ _ _ _ _ => false
  | .sub _ _ _ _ _ => false
  | .and _ _ _ _ _ => false
  | .or _ _ _ _ _ => false
  | .xor _ _ _ _ _ => false
  | .shl _ _ _ _ _ => false
  | .shr _ _ _ _ _ => false
  | .sra _ _ _ _ _ => false
  | .mul _ _ _ _ _ => false
  | .mulh _ _ _ _ _ => false
  | .mulhu _ _ _ _ _ => false
  | .min _ _ _ _ _ => false
  | .max _ _ _ _ _ => false
  | .minu _ _ _ _ _ => false
  | .maxu _ _ _ _ _ => false
  | .mov _ _ _ _ => false
  | .mov16 _ _ _ => false
  | .add16 _ _ _ => false
  | .sub16 _ _ _ => false
  | .and16 _ _ _ => false
  | .or16 _ _ _ => false
  | .xor16 _ _ _ => false
  | .shl16 _ _ _ => false
  | .shr16 _ _ _ => false
  | .sra16 _ _ _ => false
  | .mul16 _ _ _ => false
  | .min16 _ _ _ => false
  | .max16 _ _ _ => false
  | .fadd16 _ _ _ => false
  | .fsub16 _ _ _ => false
  | .fmul16 _ _ _ => false
  | .fmax16 _ _ _ => false
  | .addi _ _ _ _ => false
  | .andi _ _ _ _ => false
  | .ori _ _ _ _ => false
  | .xori _ _ _ _ => false
  | .shli _ _ _ _ _ => false
  | .shri _ _ _ _ _ => false
  | .srai _ _ _ _ _ => false
  | .rori _ _ _ _ _ => false
  | .movi _ _ _ => false
  | .movk _ _ _ => false
  | .clz _ _ _ _ => false
  | .ctz _ _ _ _ => false
  | .popc _ _ _ _ => false
  | .bswap _ _ _ _ => false
  | .brev _ _ _ _ => false
  | .sext _ _ _ _ => false
  | .zext _ _ _ _ => false
  | .bext _ _ _ _ _ => false
  | .bins _ _ _ _ _ => false
  | .div _ _ _ _ _ => false
  | .divu _ _ _ _ _ => false
  | .rem _ _ _ _ _ => false
  | .remu _ _ _ _ _ => false
  | .cmp _ _ _ _ _ _ => false
  | .cmpi _ _ _ _ _ => false
  | .pand _ _ _ _ => false
  | .por _ _ _ _ => false
  | .pxor _ _ _ _ => false
  | .pandn _ _ _ _ => false
  | .pget _ _ => false
  | .pput _ _ => false
  | .sel _ _ _ _ _ => false
  | .lea _ _ _ _ _ => false
  | .padd _ _ _ _ => false
  | .adds _ _ _ _ _ => false
  | .subs _ _ _ _ _ => false
  | .addsu _ _ _ _ _ => false
  | .subsu _ _ _ _ _ => false
  | .avgu _ _ _ _ _ => false
  | .absd _ _ _ _ _ => false
  | .neg _ _ _ _ => false
  | .abs _ _ _ _ => false
  | .vshuf _ _ _ _ _ => false
  | .vpack _ _ _ _ _ => false
  | .vunpkl _ _ _ _ => false
  | .vunpkh _ _ _ _ => false
  | .vbcast _ _ _ _ => false
  | .vdot _ _ _ _ _ => false
  | .vrsum _ _ _ _ => false
  | .vcmp _ _ _ _ _ _ => false
  | .vsel _ _ _ _ _ => false
  | .vmsk _ _ _ _ => false
  | .fadd _ _ _ _ _ _ => false
  | .fsub _ _ _ _ _ _ => false
  | .fmul _ _ _ _ _ _ => false
  | .fma _ _ _ _ _ _ => false
  | .fms _ _ _ _ _ _ => false
  | .fnma _ _ _ _ _ _ => false
  | .fmin _ _ _ _ _ => false
  | .fmax _ _ _ _ _ => false
  | .fabs _ _ _ _ => false
  | .fneg _ _ _ _ => false
  | .fsgnj _ _ _ _ _ => false
  | .fdiv _ _ _ _ _ _ => false
  | .fsqrt _ _ _ _ _ => false
  | .frcpe _ _ _ _ => false
  | .frsqe _ _ _ _ => false
  | .fcmp _ _ _ _ _ _ => false
  | .fclass _ _ _ _ => false
  | .icvtf _ _ _ _ _ _ _ => false
  | .fcvt _ _ _ _ _ _ _ => false
  | .fcvti _ _ _ _ _ _ _ => false
  | .br _ _ => false
  | .call _ _ _ => false
  | .jmp _ _ => false
  | .jal _ _ _ => false
  | .ret _ _ => false
  | .brx _ _ _ => false
  | .dbnz _ _ _ => false
  | .ld _ _ _ _ _ _ => false
  | .st _ _ _ _ _ => false
  | .ldOrd _ _ _ _ _ => false
  | .ldOrdSigned _ _ _ _ _ => false
  | .stOrd _ _ _ _ _ => false
  | .ldt _ _ _ _ _ _ => false
  | .stt _ _ _ _ _ _ _ => false
  | .amoAdd _ _ _ _ _ _ => false
  | .amoAnd _ _ _ _ _ _ => false
  | .amoOr _ _ _ _ _ _ => false
  | .amoXor _ _ _ _ _ _ => false
  | .amoMin _ _ _ _ _ _ => false
  | .amoMax _ _ _ _ _ _ => false
  | .amoMinu _ _ _ _ _ _ => false
  | .amoMaxu _ _ _ _ _ _ => false
  | .amoSwap _ _ _ _ _ _ => false
  | .amoCas _ _ _ _ _ _ => false
  | .amoCas128 _ _ _ _ _ => false
  | .amoFadd _ _ _ _ _ _ => false
  | .amoFmin _ _ _ _ _ _ => false
  | .amoFmax _ _ _ _ _ _ => false
  | .redAdd _ _ _ _ _ => false
  | .redAnd _ _ _ _ _ => false
  | .redOr _ _ _ _ _ => false
  | .redXor _ _ _ _ _ => false
  | .redMin _ _ _ _ _ => false
  | .redMax _ _ _ _ _ => false
  | .redMinu _ _ _ _ _ => false
  | .redMaxu _ _ _ _ _ => false
  | .redFadd _ _ _ _ _ => false
  | .redFmin _ _ _ _ _ => false
  | .redFmax _ _ _ _ _ => false
  | .ldrW _ _ => false
  | .stc _ _ => false
  | .rcancel _ => false
  | .fence _ _ => false
  | .drainTs => false
  | .drainGm => false
  | .drainMx => false
  | .cln _ _ => false
  | .cinv _ => false
  | .iinv _ => false
  | .pref _ => false
  | .yield _ => false
  | .park _ => false
  | .wake _ _ => false
  | .exit _ => false
  | .migr _ _ => false
  | .mfs _ _ _ => false
  | .mts _ _ _ => false
  | .widF _ _ _ => false
  | .fork _ _ => false
  | .sync _ => false
  | .gang _ _ => false
  | .launch _ _ => false
  | .trig _ => false
  | .grun _ _ _ => false
  | .send _ _ _ _ => false
  | .qpush _ _ _ => false
  | .qpop _ _ _ => false
  | .qstat _ _ _ => false
  | .wenq _ _ _ _ => false
  | .barInit _ _ _ => false
  | .barArv _ _ => false
  | .barArvb _ _ _ => false
  | .barExp _ _ _ => false
  | .barWait _ _ _ => false
  | .barAw _ _ => false
  | .barTest _ _ _ => false
  | .barInv _ _ => false
  | .dbar _ _ => false
  | .apnd _ _ _ _ => false
  | .apndh _ _ _ _ => false
  | .ldtail _ _ _ => false
  | .seal _ _ => false
  | .xinv _ _ _ => false
  | .rcommit _ _ _ _ => false
  | .rmark _ _ _ => false
  | .trap _ _ => false
  | .ebrk _ => false
  | .resume _ _ _ _ => false
  | .halt _ => false
  | .trc _ _ => false
  | .hdef _ _ => false
  | .hinfo _ _ => false
  | .hseal _ => false
  | .hopen _ => false
  | .hmap _ _ => false
  | .hunmap _ => false
  | .ldh _ _ _ => false
  | .sth _ _ _ => false
  | .cpyG2t _ _ _ _ => false
  | .cpyT2g _ _ _ _ => false
  | .cpyT2t _ _ _ _ => false
  | .cpyG2g _ _ _ _ => false
  | .cpyG2q _ _ _ _ => false
  | .cpyGat _ _ _ _ => false
  | .cpySca _ _ _ _ => false
  | .tvAdd _ _ _ _ => false
  | .tvSub _ _ _ _ => false
  | .tvMul _ _ _ _ => false
  | .tvFma _ _ _ _ => false
  | .tvMin _ _ _ _ => false
  | .tvMax _ _ _ _ => false
  | .tvAbs _ _ => false
  | .tvExp2 _ _ => false
  | .tvRcp _ _ => false
  | .tvCvt _ _ _ _ => false
  | .tvRed _ _ _ _ => false
  | .tvBcast _ _ => false
  | .tvTrans _ _ => false
  | .tvSel _ _ _ => false
  | .tvScale _ _ _ => false
  | .mcfg _ _ => false
  | .mloadb _ _ => false
  | .mmac _ _ _ _ => false
  | .mmacs _ _ _ _ => false
  | .mepi _ _ _ _ => false
  | .ctswap _ => false
  | .msemWait _ _ => false
  | .msemPost _ _ => false
  | .mdrain _ => false
  | .lineBind _ _ => true
  | .rotation _ _ => true
  | .priorityAging _ => true
  | .contextFill _ => true
  | .lineForward _ => true
  | .loadReply _ => true
  | .sRegisterReply _ => true
  | .longOperationCompletion _ => true
  | .writeAcknowledgement _ => true
  | .durableAcknowledgement _ => true
  | .faultAnswer _ => true
  | .heldRelease _ _ => true
  | .waitDeadline _ => true
  | .wakeApply _ => true
  | .resumeApply _ => true
  | .migrateMove _ => true
  | .translate _ => true
  | .pageWalk _ => true
  | .homeAccess _ => true
  | .visitorInvalidate _ => true
  | .ownershipRequest _ => true
  | .ownerRecall _ _ => true
  | .stashFill _ => true
  | .stashRecall _ _ => true
  | .reservationEnqueue _ => true
  | .reservationGrant _ => true
  | .conditionalStore _ => true
  | .reservationTimeout _ => true
  | .wenqAccept _ => true
  | .wenqPush _ => true
  | .sendDelivery _ => true
  | .faultMessage _ => true
  | .mismatchThreshold _ => true
  | .copyAccept _ => true
  | .copyStart _ => true
  | .multicastDelivery _ => true
  | .copyComplete _ _ => true
  | .copyError _ _ => true
  | .byteArrival _ => true
  | .tvStart _ => true
  | .tvComplete _ => true
  | .matrixAccept _ => true
  | .matrixOpStart _ => true
  | .mloadbExecute _ => true
  | .maskPop _ => true
  | .matrixPass _ => true
  | .passCheck _ _ => true
  | .epilogueRow _ => true
  | .matrixComplete _ => true
  | .engineSemaphorePost _ => true
  | .semaphoreGrant _ => true
  | .tableSwap _ _ => true
  | .barrierCompletion _ => true
  | .notification _ => true
  | .groupTableRead _ => true
  | .launchAccept _ => true
  | .placeKernel _ => true
  | .seedContext _ _ => true
  | .reservationPriority _ => true
  | .gangPlace _ => true
  | .gangGrant _ => true
  | .gangWithdraw _ => true
  | .triggerEvent _ => true
  | .triggerMessage _ _ _ => true
  | .doneMessage _ _ _ => true
  | .grunApply _ => true
  | .graphReplay _ => true
  | .continuationPop _ _ => true
  | .resumeRecordPop _ _ => true
  | .recordSteal _ => true
  | .recordAging _ _ => true
  | .forkAllocate _ => true
  | .syncTest _ => true
  | .joinCompletion _ => true
  | .appendArrival _ => true
  | .tailPublish _ => true
  | .sealArrival _ => true
  | .sealComplete _ => true
  | .replicaMake _ => true
  | .reclaim _ => true
  | .reclaimComplete _ => true
  | .xinvInvalidate _ => true
  | .xinvAck _ => true
  | .commitRecord _ => true
  | .mirrorRetry _ => true
  | .rcpWrite _ => true
  | .srseedWrite _ _ => true
  | .ctblWrite _ => true
  | .tswWrite _ _ => true
  | .trcctlWrite _ _ => true
  | .gswtWrite _ _ => true
  | .gangSwitch _ => true
  | .reinjectRound _ => true
  | .machineCheck _ _ _ _ _ _ => true
  | .contain _ => true
  | .containmentComplete _ => true
  | .dieReset _ _ => true
  | .stackLoss _ => true
  | .powerLoss => true
  | .thermalLimit _ _ => true
  | .powerGrantStep _ => true
  | .flitReceive _ _ _ _ => true
  | .replayRequest _ _ => true
  | .linkAck _ _ => true
  | .replayTimeout _ => true
  | .linkRetrain _ => true
  | .linkEnable _ => true
  | .trainingComplete _ => true
  | .trainingTimeout _ => true
  | .laneDegrade _ _ => true
  | .linkDisable _ => true
  | .injctlWrite _ _ => true
  | .injectorFire _ => true
  | .hostMemAccess _ _ _ => true
  | .bar2Access _ _ _ => true
  | .snpInv _ => true
  | .snpData _ => true
  | .snpCur _ => true
  | .hostResponse _ _ _ => true
  | .birsp _ _ => true
  | .biasFlipHost _ => true
  | .biasFlipDevice _ => true
  | .flipComplete _ => true
  | .interruptCauseWrite _ _ => true
  | .ringDoorbell _ _ _ => true
  | .ringConsume _ _ => true
  | .ringReset _ _ _ => true
  | .peerPacket _ _ _ => true
  | .registerWrite _ _ _ _ => true
  | .merge _ => true
  | .split _ => true
  | .endKernel _ => true
  | .loadPatchImage _ => true
  | .restartCore _ _ => true
  | .retireCore _ => true
  | .attest _ => true
  | .updateFirmware _ => true
  | .linkState _ => true
  | .objectSelect _ => true
  | .powerUp _ => true
  | .probe _ _ _ => true
  | .present _ => true
  | .done _ => true
  | .mapInstall _ => true
  | .imageStream _ => true
  | .imageReceive _ => true
  | .sourceReadComplete _ _ => true
  | .notificationNetReply _ => true
  | .hostCompletionTimeout _ => true
  | .laneTrainingFailure _ _ => true

end Sys2Proof
end

