-- ==== Sys2Proof/Decode.lean ====
section
/-! DEFINITION. The decoder (R25–R52) and the encoder, written from the layouts of R28 and the codes of R30–R49.
Words are natural numbers, the first halfword in bits 15:0, so that a field is a quotient and a remainder. -/

namespace Sys2Proof

/-- Why an encoding raises ILL: the steps 2 to 5 of R52, and R25. -/
inductive DecodeError where
  /-- Fewer bytes than the length bit asks for (R25). -/
  | truncated
  /-- An unassigned 32-bit major opcode (step 2). -/
  | major
  /-- An unassigned funct, op or code value (step 3). -/
  | code
  /-- A non-zero reserved or unused field (step 4). -/
  | reserved
  /-- An illegal operand combination, the halfword 0x0000 included (step 5). -/
  | operands
  deriving DecidableEq, Repr

/-- The field of `n` bits whose lowest bit is bit `lo` (R4). -/
def fld (w lo n : Nat) : Nat := w / 2 ^ lo % 2 ^ n

/-- One bit as a number. -/
def b2n (b : Bool) : Nat := if b then 1 else 0

/-- The code of a LaneType (R30–R45). -/
def LaneType.code (x : LaneType) : Nat :=
  match x with
  | .i64 => 0
  | .i32 => 1
  | .i16 => 2
  | .i8 => 3
  | .f64 => 4
  | .f32 => 5
  | .bf16 => 6
  | .f16 => 7

/-- The LaneType of a code; none for a reserved code. -/
def LaneType.ofCode (k : Nat) : Option LaneType :=
  match k with
  | 0 => some .i64
  | 1 => some .i32
  | 2 => some .i16
  | 3 => some .i8
  | 4 => some .f64
  | 5 => some .f32
  | 6 => some .bf16
  | 7 => some .f16
  | _ => none

/-- The code of a Round (R30–R45). -/
def Round.code (x : Round) : Nat :=
  match x with
  | .rne => 0
  | .rtz => 1
  | .rup => 2
  | .rdn => 3

/-- The Round of a code; none for a reserved code. -/
def Round.ofCode (k : Nat) : Option Round :=
  match k with
  | 0 => some .rne
  | 1 => some .rtz
  | 2 => some .rup
  | 3 => some .rdn
  | _ => none

/-- The code of a Scope (R30–R45). -/
def Scope.code (x : Scope) : Nat :=
  match x with
  | .core => 0
  | .clu => 1
  | .die => 2
  | .dev => 3
  | .sys => 4
  | .recov => 5

/-- The Scope of a code; none for a reserved code. -/
def Scope.ofCode (k : Nat) : Option Scope :=
  match k with
  | 0 => some .core
  | 1 => some .clu
  | 2 => some .die
  | 3 => some .dev
  | 4 => some .sys
  | 5 => some .recov
  | _ => none

/-- The code of a Order (R30–R45). -/
def Order.code (x : Order) : Nat :=
  match x with
  | .rlx => 0
  | .acq => 1
  | .rel => 2
  | .sc => 3

/-- The Order of a code; none for a reserved code. -/
def Order.ofCode (k : Nat) : Option Order :=
  match k with
  | 0 => some .rlx
  | 1 => some .acq
  | 2 => some .rel
  | 3 => some .sc
  | _ => none

/-- The code of a Cond (R30–R45). -/
def Cond.code (x : Cond) : Nat :=
  match x with
  | .eq => 0
  | .ne => 1
  | .lt => 2
  | .ge => 3
  | .ltu => 4
  | .geu => 5
  | .le => 6
  | .gt => 7
  | .leu => 8
  | .gtu => 9
  | .tst => 10
  | .ntst => 11
  | .un => 12
  | .ord => 13

/-- The Cond of a code; none for a reserved code. -/
def Cond.ofCode (k : Nat) : Option Cond :=
  match k with
  | 0 => some .eq
  | 1 => some .ne
  | 2 => some .lt
  | 3 => some .ge
  | 4 => some .ltu
  | 5 => some .geu
  | 6 => some .le
  | 7 => some .gt
  | 8 => some .leu
  | 9 => some .gtu
  | 10 => some .tst
  | 11 => some .ntst
  | 12 => some .un
  | 13 => some .ord
  | _ => none

/-- The code of a FCond (R30–R45). -/
def FCond.code (x : FCond) : Nat :=
  match x with
  | .eq => 0
  | .ne => 1
  | .lt => 2
  | .le => 3
  | .gt => 4
  | .ge => 5
  | .un => 6
  | .ord => 7

/-- The FCond of a code; none for a reserved code. -/
def FCond.ofCode (k : Nat) : Option FCond :=
  match k with
  | 0 => some .eq
  | 1 => some .ne
  | 2 => some .lt
  | 3 => some .le
  | 4 => some .gt
  | 5 => some .ge
  | 6 => some .un
  | 7 => some .ord
  | _ => none

/-- The code of a MSize (R30–R45). -/
def MSize.code (x : MSize) : Nat :=
  match x with
  | .b => 0
  | .h => 1
  | .w => 2
  | .d => 3
  | .q => 4

/-- The MSize of a code; none for a reserved code. -/
def MSize.ofCode (k : Nat) : Option MSize :=
  match k with
  | 0 => some .b
  | 1 => some .h
  | 2 => some .w
  | 3 => some .d
  | 4 => some .q
  | _ => none

/-- The code of a AmoType (R30–R45). -/
def AmoType.code (x : AmoType) : Nat :=
  match x with
  | .i32 => 0
  | .i64 => 1
  | .bf16 => 2
  | .f32 => 3
  | .f64 => 4
  | .f32x2 => 5
  | .bf16x2 => 6
  | .i128 => 7

/-- The AmoType of a code; none for a reserved code. -/
def AmoType.ofCode (k : Nat) : Option AmoType :=
  match k with
  | 0 => some .i32
  | 1 => some .i64
  | 2 => some .bf16
  | 3 => some .f32
  | 4 => some .f64
  | 5 => some .f32x2
  | 6 => some .bf16x2
  | 7 => some .i128
  | _ => none

/-- The code of a MemFmt (R30–R45). -/
def MemFmt.code (x : MemFmt) : Nat :=
  match x with
  | .i8 => 0
  | .z8 => 1
  | .e4m3 => 2
  | .e5m2 => 3
  | .fp4 => 4
  | .bf16 => 5

/-- The MemFmt of a code; none for a reserved code. -/
def MemFmt.ofCode (k : Nat) : Option MemFmt :=
  match k with
  | 0 => some .i8
  | 1 => some .z8
  | 2 => some .e4m3
  | 3 => some .e5m2
  | 4 => some .fp4
  | 5 => some .bf16
  | _ => none

/-- The code of a RedOp (R30–R45). -/
def RedOp.code (x : RedOp) : Nat :=
  match x with
  | .add => 0
  | .min => 1
  | .max => 2

/-- The RedOp of a code; none for a reserved code. -/
def RedOp.ofCode (k : Nat) : Option RedOp :=
  match k with
  | 0 => some .add
  | 1 => some .min
  | 2 => some .max
  | _ => none

/-- The code of a ResumeMode (R30–R45). -/
def ResumeMode.code (x : ResumeMode) : Nat :=
  match x with
  | .replay => 0
  | .skip => 1
  | .handler => 2

/-- The ResumeMode of a code; none for a reserved code. -/
def ResumeMode.ofCode (k : Nat) : Option ResumeMode :=
  match k with
  | 0 => some .replay
  | 1 => some .skip
  | 2 => some .handler
  | _ => none

/-- A 4-bit register or predicate field. -/
def f4 (w lo : Nat) : Fin 16 := Fin.ofNat 16 (fld w lo 4)
/-- A 6-bit handle, barrier or shift field. -/
def f6 (w lo : Nat) : Fin 64 := Fin.ofNat 64 (fld w lo 6)
/-- A 3-bit number field. -/
def f3 (w lo : Nat) : Fin 8 := Fin.ofNat 8 (fld w lo 3)
/-- A 2-bit number field. -/
def f2 (w lo : Nat) : Fin 4 := Fin.ofNat 4 (fld w lo 2)
/-- A single bit. -/
def f1 (w lo : Nat) : Bool := fld w lo 1 == 1
/-- The guard fields n [11] and g [10:7] (R27). -/
def fGuard (w : Nat) : Guard := { n := f1 w 11, p := f4 w 7 }
/-- Steps 4 and 5 of R52 for an instruction whose code is assigned. -/
def accept (reservedZero : Bool) (i : Option Instr) : Except DecodeError Instr :=
  if reservedZero then
    match i with
    | none => .error .operands
    | some i => if i.wellFormed then .ok i else .error .operands
  else .error .reserved

/-- The 16-bit forms: [15:13] lane type, [12:9] rs, [8:5] rd, [4:1] op4 (R34). -/
def decode16 (w : Nat) : Except DecodeError Instr :=
  match fld w 1 4 with
  | 0 => accept true ((LaneType.ofCode (fld w 13 3)).map (fun x0 => .mov16 x0 (f4 w 5) (f4 w 9)))
  | 1 => accept true ((LaneType.ofCode (fld w 13 3)).map (fun x0 => .add16 x0 (f4 w 5) (f4 w 9)))
  | 2 => accept true ((LaneType.ofCode (fld w 13 3)).map (fun x0 => .sub16 x0 (f4 w 5) (f4 w 9)))
  | 3 => accept true ((LaneType.ofCode (fld w 13 3)).map (fun x0 => .and16 x0 (f4 w 5) (f4 w 9)))
  | 4 => accept true ((LaneType.ofCode (fld w 13 3)).map (fun x0 => .or16 x0 (f4 w 5) (f4 w 9)))
  | 5 => accept true ((LaneType.ofCode (fld w 13 3)).map (fun x0 => .xor16 x0 (f4 w 5) (f4 w 9)))
  | 6 => accept true ((LaneType.ofCode (fld w 13 3)).map (fun x0 => .shl16 x0 (f4 w 5) (f4 w 9)))
  | 7 => accept true ((LaneType.ofCode (fld w 13 3)).map (fun x0 => .shr16 x0 (f4 w 5) (f4 w 9)))
  | 8 => accept true ((LaneType.ofCode (fld w 13 3)).map (fun x0 => .sra16 x0 (f4 w 5) (f4 w 9)))
  | 9 => accept true ((LaneType.ofCode (fld w 13 3)).map (fun x0 => .mul16 x0 (f4 w 5) (f4 w 9)))
  | 10 => accept true ((LaneType.ofCode (fld w 13 3)).map (fun x0 => .min16 x0 (f4 w 5) (f4 w 9)))
  | 11 => accept true ((LaneType.ofCode (fld w 13 3)).map (fun x0 => .max16 x0 (f4 w 5) (f4 w 9)))
  | 12 => accept true ((LaneType.ofCode (fld w 13 3)).map (fun x0 => .fadd16 x0 (f4 w 5) (f4 w 9)))
  | 13 => accept true ((LaneType.ofCode (fld w 13 3)).map (fun x0 => .fsub16 x0 (f4 w 5) (f4 w 9)))
  | 14 => accept true ((LaneType.ofCode (fld w 13 3)).map (fun x0 => .fmul16 x0 (f4 w 5) (f4 w 9)))
  | 15 => accept true ((LaneType.ofCode (fld w 13 3)).map (fun x0 => .fmax16 x0 (f4 w 5) (f4 w 9)))
  | _ => .error .code

/-- Major 0x00 (R35). -/
def decodeMajor00 (w : Nat) : Except DecodeError Instr :=
  match fld w 24 5 with
  | 0 => accept true ((LaneType.ofCode (fld w 29 3)).map (fun x0 => .add (fGuard w) x0 (f4 w 12) (f4 w 16) (f4 w 20)))
  | 1 => accept true ((LaneType.ofCode (fld w 29 3)).map (fun x0 => .sub (fGuard w) x0 (f4 w 12) (f4 w 16) (f4 w 20)))
  | 2 => accept true ((LaneType.ofCode (fld w 29 3)).map (fun x0 => .and (fGuard w) x0 (f4 w 12) (f4 w 16) (f4 w 20)))
  | 3 => accept true ((LaneType.ofCode (fld w 29 3)).map (fun x0 => .or (fGuard w) x0 (f4 w 12) (f4 w 16) (f4 w 20)))
  | 4 => accept true ((LaneType.ofCode (fld w 29 3)).map (fun x0 => .xor (fGuard w) x0 (f4 w 12) (f4 w 16) (f4 w 20)))
  | 5 => accept true ((LaneType.ofCode (fld w 29 3)).map (fun x0 => .shl (fGuard w) x0 (f4 w 12) (f4 w 16) (f4 w 20)))
  | 6 => accept true ((LaneType.ofCode (fld w 29 3)).map (fun x0 => .shr (fGuard w) x0 (f4 w 12) (f4 w 16) (f4 w 20)))
  | 7 => accept true ((LaneType.ofCode (fld w 29 3)).map (fun x0 => .sra (fGuard w) x0 (f4 w 12) (f4 w 16) (f4 w 20)))
  | 8 => accept true ((LaneType.ofCode (fld w 29 3)).map (fun x0 => .mul (fGuard w) x0 (f4 w 12) (f4 w 16) (f4 w 20)))
  | 9 => accept true ((LaneType.ofCode (fld w 29 3)).map (fun x0 => .mulh (fGuard w) x0 (f4 w 12) (f4 w 16) (f4 w 20)))
  | 10 => accept true ((LaneType.ofCode (fld w 29 3)).map (fun x0 => .mulhu (fGuard w) x0 (f4 w 12) (f4 w 16) (f4 w 20)))
  | 11 => accept true ((LaneType.ofCode (fld w 29 3)).map (fun x0 => .min (fGuard w) x0 (f4 w 12) (f4 w 16) (f4 w 20)))
  | 12 => accept true ((LaneType.ofCode (fld w 29 3)).map (fun x0 => .max (fGuard w) x0 (f4 w 12) (f4 w 16) (f4 w 20)))
  | 13 => accept true ((LaneType.ofCode (fld w 29 3)).map (fun x0 => .minu (fGuard w) x0 (f4 w 12) (f4 w 16) (f4 w 20)))
  | 14 => accept true ((LaneType.ofCode (fld w 29 3)).map (fun x0 => .maxu (fGuard w) x0 (f4 w 12) (f4 w 16) (f4 w 20)))
  | 15 => accept (fld w 20 4 == 0) ((LaneType.ofCode (fld w 29 3)).map (fun x0 => .mov (fGuard w) x0 (f4 w 12) (f4 w 16)))
  | _ => .error .code

/-- Major 0x01 (R35). -/
def decodeMajor01 (w : Nat) : Except DecodeError Instr :=
  accept true (some (.addi (fGuard w) (f4 w 12) (f4 w 16) (BitVec.ofNat 12 (fld w 20 12))))

/-- Major 0x02 (R35). -/
def decodeMajor02 (w : Nat) : Except DecodeError Instr :=
  accept true (some (.andi (fGuard w) (f4 w 12) (f4 w 16) (BitVec.ofNat 12 (fld w 20 12))))

/-- Major 0x03 (R35). -/
def decodeMajor03 (w : Nat) : Except DecodeError Instr :=
  accept true (some (.ori (fGuard w) (f4 w 12) (f4 w 16) (BitVec.ofNat 12 (fld w 20 12))))

/-- Major 0x04 (R35). -/
def decodeMajor04 (w : Nat) : Except DecodeError Instr :=
  accept true (some (.xori (fGuard w) (f4 w 12) (f4 w 16) (BitVec.ofNat 12 (fld w 20 12))))

/-- Major 0x05 (R35). -/
def decodeMajor05 (w : Nat) : Except DecodeError Instr :=
  match fld w 30 2 with
  | 0 => accept (fld w 26 1 == 0) ((LaneType.ofCode (fld w 27 3)).map (fun x0 => .shli (fGuard w) x0 (f4 w 12) (f4 w 16) (f6 w 20)))
  | 1 => accept (fld w 26 1 == 0) ((LaneType.ofCode (fld w 27 3)).map (fun x0 => .shri (fGuard w) x0 (f4 w 12) (f4 w 16) (f6 w 20)))
  | 2 => accept (fld w 26 1 == 0) ((LaneType.ofCode (fld w 27 3)).map (fun x0 => .srai (fGuard w) x0 (f4 w 12) (f4 w 16) (f6 w 20)))
  | 3 => accept (fld w 26 1 == 0) ((LaneType.ofCode (fld w 27 3)).map (fun x0 => .rori (fGuard w) x0 (f4 w 12) (f4 w 16) (f6 w 20)))
  | _ => .error .code

/-- Major 0x06 (R35). -/
def decodeMajor06 (w : Nat) : Except DecodeError Instr :=
  match fld w 11 1 with
  | 0 => accept (fld w 7 2 == 0) (some (.movi (f4 w 12) (BitVec.ofNat 16 (fld w 16 16)) (f2 w 9)))
  | 1 => accept (fld w 7 2 == 0) (some (.movk (f4 w 12) (BitVec.ofNat 16 (fld w 16 16)) (f2 w 9)))
  | _ => .error .code

/-- Major 0x07 (R35). -/
def decodeMajor07 (w : Nat) : Except DecodeError Instr :=
  match fld w 24 5 with
  | 0 => accept (fld w 20 4 == 0) ((LaneType.ofCode (fld w 29 3)).map (fun x0 => .clz (fGuard w) x0 (f4 w 12) (f4 w 16)))
  | 1 => accept (fld w 20 4 == 0) ((LaneType.ofCode (fld w 29 3)).map (fun x0 => .ctz (fGuard w) x0 (f4 w 12) (f4 w 16)))
  | 2 => accept (fld w 20 4 == 0) ((LaneType.ofCode (fld w 29 3)).map (fun x0 => .popc (fGuard w) x0 (f4 w 12) (f4 w 16)))
  | 3 => accept (fld w 20 4 == 0) ((LaneType.ofCode (fld w 29 3)).map (fun x0 => .bswap (fGuard w) x0 (f4 w 12) (f4 w 16)))
  | 4 => accept (fld w 20 4 == 0) ((LaneType.ofCode (fld w 29 3)).map (fun x0 => .brev (fGuard w) x0 (f4 w 12) (f4 w 16)))
  | 5 => accept (fld w 20 4 == 0) ((LaneType.ofCode (fld w 29 3)).map (fun x0 => .sext (fGuard w) x0 (f4 w 12) (f4 w 16)))
  | 6 => accept (fld w 20 4 == 0) ((LaneType.ofCode (fld w 29 3)).map (fun x0 => .zext (fGuard w) x0 (f4 w 12) (f4 w 16)))
  | 7 => accept true ((LaneType.ofCode (fld w 29 3)).map (fun x0 => .bext (fGuard w) x0 (f4 w 12) (f4 w 16) (f4 w 20)))
  | 8 => accept true ((LaneType.ofCode (fld w 29 3)).map (fun x0 => .bins (fGuard w) x0 (f4 w 12) (f4 w 16) (f4 w 20)))
  | _ => .error .code

/-- Major 0x08 (R35). -/
def decodeMajor08 (w : Nat) : Except DecodeError Instr :=
  match fld w 24 5 with
  | 0 => accept true ((LaneType.ofCode (fld w 29 3)).map (fun x0 => .div (fGuard w) x0 (f4 w 12) (f4 w 16) (f4 w 20)))
  | 1 => accept true ((LaneType.ofCode (fld w 29 3)).map (fun x0 => .divu (fGuard w) x0 (f4 w 12) (f4 w 16) (f4 w 20)))
  | 2 => accept true ((LaneType.ofCode (fld w 29 3)).map (fun x0 => .rem (fGuard w) x0 (f4 w 12) (f4 w 16) (f4 w 20)))
  | 3 => accept true ((LaneType.ofCode (fld w 29 3)).map (fun x0 => .remu (fGuard w) x0 (f4 w 12) (f4 w 16) (f4 w 20)))
  | _ => .error .code

/-- Major 0x09 (R35). -/
def decodeMajor09 (w : Nat) : Except DecodeError Instr :=
  accept (fld w 31 1 == 0) ((LaneType.ofCode (fld w 28 3)).bind (fun x0 => (Cond.ofCode (fld w 24 4)).map (fun x1 => .cmp (fGuard w) x0 x1 (f4 w 12) (f4 w 16) (f4 w 20))))

/-- Major 0x0A (R35). -/
def decodeMajor0A (w : Nat) : Except DecodeError Instr :=
  accept true ((Cond.ofCode (fld w 28 4)).map (fun x0 => .cmpi (fGuard w) x0 (f4 w 12) (f4 w 16) (BitVec.ofNat 8 (fld w 20 8))))

/-- Major 0x0B (R35). -/
def decodeMajor0B (w : Nat) : Except DecodeError Instr :=
  match fld w 24 8 with
  | 0 => accept true (some (.pand (fGuard w) (f4 w 12) (f4 w 16) (f4 w 20)))
  | 1 => accept true (some (.por (fGuard w) (f4 w 12) (f4 w 16) (f4 w 20)))
  | 2 => accept true (some (.pxor (fGuard w) (f4 w 12) (f4 w 16) (f4 w 20)))
  | 3 => accept true (some (.pandn (fGuard w) (f4 w 12) (f4 w 16) (f4 w 20)))
  | 4 => accept (fld w 16 8 == 0) (some (.pget (fGuard w) (f4 w 12)))
  | 5 => accept (fld w 12 4 == 0 && fld w 20 4 == 0) (some (.pput (fGuard w) (f4 w 16)))
  | _ => .error .code

/-- Major 0x0C (R35). -/
def decodeMajor0C (w : Nat) : Except DecodeError Instr :=
  match fld w 28 4 with
  | 0 => accept true (some (.sel (fGuard w) (f4 w 12) (f4 w 16) (f4 w 20) (f4 w 24)))
  | 1 => accept true (some (.lea (fGuard w) (f4 w 12) (f4 w 16) (f4 w 20) (f4 w 24)))
  | 2 => accept (fld w 24 4 == 0) (some (.padd (fGuard w) (f4 w 12) (f4 w 16) (f4 w 20)))
  | _ => .error .code

/-- Major 0x0D (R35). -/
def decodeMajor0D (w : Nat) : Except DecodeError Instr :=
  match fld w 24 5 with
  | 0 => accept true ((LaneType.ofCode (fld w 29 3)).map (fun x0 => .adds (fGuard w) x0 (f4 w 12) (f4 w 16) (f4 w 20)))
  | 1 => accept true ((LaneType.ofCode (fld w 29 3)).map (fun x0 => .subs (fGuard w) x0 (f4 w 12) (f4 w 16) (f4 w 20)))
  | 2 => accept true ((LaneType.ofCode (fld w 29 3)).map (fun x0 => .addsu (fGuard w) x0 (f4 w 12) (f4 w 16) (f4 w 20)))
  | 3 => accept true ((LaneType.ofCode (fld w 29 3)).map (fun x0 => .subsu (fGuard w) x0 (f4 w 12) (f4 w 16) (f4 w 20)))
  | 4 => accept true ((LaneType.ofCode (fld w 29 3)).map (fun x0 => .avgu (fGuard w) x0 (f4 w 12) (f4 w 16) (f4 w 20)))
  | 5 => accept true ((LaneType.ofCode (fld w 29 3)).map (fun x0 => .absd (fGuard w) x0 (f4 w 12) (f4 w 16) (f4 w 20)))
  | 6 => accept (fld w 20 4 == 0) ((LaneType.ofCode (fld w 29 3)).map (fun x0 => .neg (fGuard w) x0 (f4 w 12) (f4 w 16)))
  | 7 => accept (fld w 20 4 == 0) ((LaneType.ofCode (fld w 29 3)).map (fun x0 => .abs (fGuard w) x0 (f4 w 12) (f4 w 16)))
  | _ => .error .code

/-- Major 0x0E (R35). -/
def decodeMajor0E (w : Nat) : Except DecodeError Instr :=
  match fld w 24 5 with
  | 0 => accept true ((LaneType.ofCode (fld w 29 3)).map (fun x0 => .vshuf (fGuard w) x0 (f4 w 12) (f4 w 16) (f4 w 20)))
  | 1 => accept true ((LaneType.ofCode (fld w 29 3)).map (fun x0 => .vpack (fGuard w) x0 (f4 w 12) (f4 w 16) (f4 w 20)))
  | 2 => accept (fld w 20 4 == 0) ((LaneType.ofCode (fld w 29 3)).map (fun x0 => .vunpkl (fGuard w) x0 (f4 w 12) (f4 w 16)))
  | 3 => accept (fld w 20 4 == 0) ((LaneType.ofCode (fld w 29 3)).map (fun x0 => .vunpkh (fGuard w) x0 (f4 w 12) (f4 w 16)))
  | 4 => accept (fld w 20 4 == 0) ((LaneType.ofCode (fld w 29 3)).map (fun x0 => .vbcast (fGuard w) x0 (f4 w 12) (f4 w 16)))
  | 5 => accept true ((LaneType.ofCode (fld w 29 3)).map (fun x0 => .vdot (fGuard w) x0 (f4 w 12) (f4 w 16) (f4 w 20)))
  | 6 => accept (fld w 20 4 == 0) ((LaneType.ofCode (fld w 29 3)).map (fun x0 => .vrsum (fGuard w) x0 (f4 w 12) (f4 w 16)))
  | _ => .error .code

/-- Major 0x0F (R35). -/
def decodeMajor0F (w : Nat) : Except DecodeError Instr :=
  match fld w 24 5 with
  | 0 => accept true ((LaneType.ofCode (fld w 29 3)).bind (fun x0 => (Cond.ofCode (fld w 24 4)).map (fun x1 => .vcmp (fGuard w) x0 x1 (f4 w 12) (f4 w 16) (f4 w 20))))
  | 1 => accept true ((LaneType.ofCode (fld w 29 3)).bind (fun x0 => (Cond.ofCode (fld w 24 4)).map (fun x1 => .vcmp (fGuard w) x0 x1 (f4 w 12) (f4 w 16) (f4 w 20))))
  | 2 => accept true ((LaneType.ofCode (fld w 29 3)).bind (fun x0 => (Cond.ofCode (fld w 24 4)).map (fun x1 => .vcmp (fGuard w) x0 x1 (f4 w 12) (f4 w 16) (f4 w 20))))
  | 3 => accept true ((LaneType.ofCode (fld w 29 3)).bind (fun x0 => (Cond.ofCode (fld w 24 4)).map (fun x1 => .vcmp (fGuard w) x0 x1 (f4 w 12) (f4 w 16) (f4 w 20))))
  | 4 => accept true ((LaneType.ofCode (fld w 29 3)).bind (fun x0 => (Cond.ofCode (fld w 24 4)).map (fun x1 => .vcmp (fGuard w) x0 x1 (f4 w 12) (f4 w 16) (f4 w 20))))
  | 5 => accept true ((LaneType.ofCode (fld w 29 3)).bind (fun x0 => (Cond.ofCode (fld w 24 4)).map (fun x1 => .vcmp (fGuard w) x0 x1 (f4 w 12) (f4 w 16) (f4 w 20))))
  | 6 => accept true ((LaneType.ofCode (fld w 29 3)).bind (fun x0 => (Cond.ofCode (fld w 24 4)).map (fun x1 => .vcmp (fGuard w) x0 x1 (f4 w 12) (f4 w 16) (f4 w 20))))
  | 7 => accept true ((LaneType.ofCode (fld w 29 3)).bind (fun x0 => (Cond.ofCode (fld w 24 4)).map (fun x1 => .vcmp (fGuard w) x0 x1 (f4 w 12) (f4 w 16) (f4 w 20))))
  | 8 => accept true ((LaneType.ofCode (fld w 29 3)).bind (fun x0 => (Cond.ofCode (fld w 24 4)).map (fun x1 => .vcmp (fGuard w) x0 x1 (f4 w 12) (f4 w 16) (f4 w 20))))
  | 9 => accept true ((LaneType.ofCode (fld w 29 3)).bind (fun x0 => (Cond.ofCode (fld w 24 4)).map (fun x1 => .vcmp (fGuard w) x0 x1 (f4 w 12) (f4 w 16) (f4 w 20))))
  | 10 => accept true ((LaneType.ofCode (fld w 29 3)).bind (fun x0 => (Cond.ofCode (fld w 24 4)).map (fun x1 => .vcmp (fGuard w) x0 x1 (f4 w 12) (f4 w 16) (f4 w 20))))
  | 11 => accept true ((LaneType.ofCode (fld w 29 3)).bind (fun x0 => (Cond.ofCode (fld w 24 4)).map (fun x1 => .vcmp (fGuard w) x0 x1 (f4 w 12) (f4 w 16) (f4 w 20))))
  | 12 => accept true ((LaneType.ofCode (fld w 29 3)).bind (fun x0 => (Cond.ofCode (fld w 24 4)).map (fun x1 => .vcmp (fGuard w) x0 x1 (f4 w 12) (f4 w 16) (f4 w 20))))
  | 13 => accept true ((LaneType.ofCode (fld w 29 3)).bind (fun x0 => (Cond.ofCode (fld w 24 4)).map (fun x1 => .vcmp (fGuard w) x0 x1 (f4 w 12) (f4 w 16) (f4 w 20))))
  | 16 => accept true ((LaneType.ofCode (fld w 29 3)).map (fun x0 => .vsel (fGuard w) x0 (f4 w 12) (f4 w 16) (f4 w 20)))
  | 17 => accept (fld w 20 4 == 0) ((LaneType.ofCode (fld w 29 3)).map (fun x0 => .vmsk (fGuard w) x0 (f4 w 12) (f4 w 16)))
  | _ => .error .code

/-- Major 0x10 (R35). -/
def decodeMajor10 (w : Nat) : Except DecodeError Instr :=
  match fld w 24 3 with
  | 0 => accept true ((LaneType.ofCode (fld w 29 3)).bind (fun x0 => (Round.ofCode (fld w 27 2)).map (fun x1 => .fadd (fGuard w) x0 x1 (f4 w 12) (f4 w 16) (f4 w 20))))
  | 1 => accept true ((LaneType.ofCode (fld w 29 3)).bind (fun x0 => (Round.ofCode (fld w 27 2)).map (fun x1 => .fsub (fGuard w) x0 x1 (f4 w 12) (f4 w 16) (f4 w 20))))
  | 2 => accept true ((LaneType.ofCode (fld w 29 3)).bind (fun x0 => (Round.ofCode (fld w 27 2)).map (fun x1 => .fmul (fGuard w) x0 x1 (f4 w 12) (f4 w 16) (f4 w 20))))
  | 3 => accept true ((LaneType.ofCode (fld w 29 3)).bind (fun x0 => (Round.ofCode (fld w 27 2)).map (fun x1 => .fma (fGuard w) x0 x1 (f4 w 12) (f4 w 16) (f4 w 20))))
  | 4 => accept true ((LaneType.ofCode (fld w 29 3)).bind (fun x0 => (Round.ofCode (fld w 27 2)).map (fun x1 => .fms (fGuard w) x0 x1 (f4 w 12) (f4 w 16) (f4 w 20))))
  | 5 => accept true ((LaneType.ofCode (fld w 29 3)).bind (fun x0 => (Round.ofCode (fld w 27 2)).map (fun x1 => .fnma (fGuard w) x0 x1 (f4 w 12) (f4 w 16) (f4 w 20))))
  | 6 =>
    match fld w 27 2 with
    | 0 => accept true ((LaneType.ofCode (fld w 29 3)).map (fun x0 => .fmin (fGuard w) x0 (f4 w 12) (f4 w 16) (f4 w 20)))
    | 1 => accept true ((LaneType.ofCode (fld w 29 3)).map (fun x0 => .fmax (fGuard w) x0 (f4 w 12) (f4 w 16) (f4 w 20)))
    | _ => .error .code
  | 7 =>
    match fld w 27 2 with
    | 0 => accept (fld w 20 4 == 0) ((LaneType.ofCode (fld w 29 3)).map (fun x0 => .fabs (fGuard w) x0 (f4 w 12) (f4 w 16)))
    | 1 => accept (fld w 20 4 == 0) ((LaneType.ofCode (fld w 29 3)).map (fun x0 => .fneg (fGuard w) x0 (f4 w 12) (f4 w 16)))
    | 2 => accept true ((LaneType.ofCode (fld w 29 3)).map (fun x0 => .fsgnj (fGuard w) x0 (f4 w 12) (f4 w 16) (f4 w 20)))
    | _ => .error .code
  | _ => .error .code

/-- Major 0x11 (R35). -/
def decodeMajor11 (w : Nat) : Except DecodeError Instr :=
  match fld w 24 3 with
  | 0 => accept true ((LaneType.ofCode (fld w 29 3)).bind (fun x0 => (Round.ofCode (fld w 27 2)).map (fun x1 => .fdiv (fGuard w) x0 x1 (f4 w 12) (f4 w 16) (f4 w 20))))
  | 1 => accept (fld w 20 4 == 0) ((LaneType.ofCode (fld w 29 3)).bind (fun x0 => (Round.ofCode (fld w 27 2)).map (fun x1 => .fsqrt (fGuard w) x0 x1 (f4 w 12) (f4 w 16))))
  | 2 => accept (fld w 20 4 == 0 && fld w 27 2 == 0) ((LaneType.ofCode (fld w 29 3)).map (fun x0 => .frcpe (fGuard w) x0 (f4 w 12) (f4 w 16)))
  | 3 => accept (fld w 20 4 == 0 && fld w 27 2 == 0) ((LaneType.ofCode (fld w 29 3)).map (fun x0 => .frsqe (fGuard w) x0 (f4 w 12) (f4 w 16)))
  | _ => .error .code

/-- Major 0x12 (R35). -/
def decodeMajor12 (w : Nat) : Except DecodeError Instr :=
  match fld w 30 2 with
  | 0 => accept true ((LaneType.ofCode (fld w 27 3)).bind (fun x0 => (FCond.ofCode (fld w 24 3)).map (fun x1 => .fcmp (fGuard w) x0 x1 (f4 w 12) (f4 w 16) (f4 w 20))))
  | 1 =>
    match fld w 24 1 with
    | 0 => accept (fld w 20 4 == 0 && fld w 25 2 == 0) ((LaneType.ofCode (fld w 27 3)).map (fun x0 => .fclass (fGuard w) x0 (f4 w 12) (f4 w 16)))
    | 1 => accept true ((LaneType.ofCode (fld w 27 3)).bind (fun x0 => (Round.ofCode (fld w 25 2)).bind (fun x1 => (LaneType.ofCode (fld w 20 3)).map (fun x2 => .icvtf (fGuard w) x0 x1 (f1 w 23) x2 (f4 w 12) (f4 w 16)))))
    | _ => .error .code
  | 2 => accept (fld w 23 1 == 0) ((LaneType.ofCode (fld w 27 3)).bind (fun x0 => (Round.ofCode (fld w 25 2)).bind (fun x1 => (LaneType.ofCode (fld w 20 3)).map (fun x2 => .fcvt (fGuard w) x0 x1 (f1 w 24) x2 (f4 w 12) (f4 w 16)))))
  | 3 => accept (fld w 23 1 == 0) ((LaneType.ofCode (fld w 27 3)).bind (fun x0 => (Round.ofCode (fld w 25 2)).bind (fun x1 => (LaneType.ofCode (fld w 20 3)).map (fun x2 => .fcvti (fGuard w) x0 x1 (f1 w 24) x2 (f4 w 12) (f4 w 16)))))
  | _ => .error .code

/-- Major 0x14 (R35). -/
def decodeMajor14 (w : Nat) : Except DecodeError Instr :=
  accept true (some (.br (fGuard w) (BitVec.ofNat 20 (fld w 12 20))))

/-- Major 0x15 (R35). -/
def decodeMajor15 (w : Nat) : Except DecodeError Instr :=
  accept true (some (.call (fGuard w) (f4 w 12) (BitVec.ofNat 16 (fld w 16 16))))

/-- Major 0x16 (R35). -/
def decodeMajor16 (w : Nat) : Except DecodeError Instr :=
  match fld w 24 8 with
  | 0 => accept (fld w 12 4 == 0 && fld w 20 4 == 0) (some (.jmp (fGuard w) (f4 w 16)))
  | 1 => accept (fld w 20 4 == 0) (some (.jal (fGuard w) (f4 w 12) (f4 w 16)))
  | 2 => accept (fld w 12 4 == 0 && fld w 20 4 == 0) (some (.ret (fGuard w) (f4 w 16)))
  | 3 => accept (fld w 12 4 == 0) (some (.brx (fGuard w) (f4 w 16) (f4 w 20)))
  | _ => .error .code

/-- Major 0x17 (R35). -/
def decodeMajor17 (w : Nat) : Except DecodeError Instr :=
  accept true (some (.dbnz (fGuard w) (f4 w 12) (BitVec.ofNat 16 (fld w 16 16))))

/-- Major 0x18 (R35). -/
def decodeMajor18 (w : Nat) : Except DecodeError Instr :=
  accept true ((MSize.ofCode (fld w 20 3)).map (fun x0 => .ld (fGuard w) x0 (f1 w 23) (f4 w 12) (f4 w 16) (BitVec.ofNat 8 (fld w 24 8))))

/-- Major 0x19 (R35). -/
def decodeMajor19 (w : Nat) : Except DecodeError Instr :=
  accept (fld w 23 1 == 0) ((MSize.ofCode (fld w 20 3)).map (fun x0 => .st (fGuard w) x0 (f4 w 12) (f4 w 16) (BitVec.ofNat 8 (fld w 24 8))))

/-- Major 0x1A (R35). -/
def decodeMajor1A (w : Nat) : Except DecodeError Instr :=
  match fld w 27 5 with
  | 0 => accept (fld w 20 4 == 0) ((MSize.ofCode (fld w 24 3)).bind (fun x0 => (Order.ofCode (fld w 10 2)).bind (fun x1 => (Scope.ofCode (fld w 7 3)).map (fun x2 => .ldOrd x0 x1 x2 (f4 w 12) (f4 w 16)))))
  | 1 => accept (fld w 20 4 == 0) ((MSize.ofCode (fld w 24 3)).bind (fun x0 => (Order.ofCode (fld w 10 2)).bind (fun x1 => (Scope.ofCode (fld w 7 3)).map (fun x2 => .ldOrdSigned x0 x1 x2 (f4 w 12) (f4 w 16)))))
  | 2 => accept (fld w 12 4 == 0) ((MSize.ofCode (fld w 24 3)).bind (fun x0 => (Order.ofCode (fld w 10 2)).bind (fun x1 => (Scope.ofCode (fld w 7 3)).map (fun x2 => .stOrd x0 x1 x2 (f4 w 16) (f4 w 20)))))
  | _ => .error .code

/-- Major 0x1B (R35). -/
def decodeMajor1B (w : Nat) : Except DecodeError Instr :=
  match fld w 31 1 with
  | 0 => accept (fld w 7 2 == 0 && fld w 11 1 == 0) ((MemFmt.ofCode (fld w 24 4)).bind (fun x0 => (LaneType.ofCode (fld w 28 3)).bind (fun x1 => (Round.ofCode (fld w 9 2)).map (fun x2 => .ldt x0 x1 x2 (f4 w 12) (f4 w 16) (f4 w 20)))))
  | 1 => accept (fld w 7 2 == 0) ((MemFmt.ofCode (fld w 24 4)).bind (fun x0 => (LaneType.ofCode (fld w 28 3)).bind (fun x1 => (Round.ofCode (fld w 9 2)).map (fun x2 => .stt x0 x1 x2 (f1 w 11) (f4 w 12) (f4 w 16) (f4 w 20)))))
  | _ => .error .code

/-- Major 0x1C (R35). -/
def decodeMajor1C (w : Nat) : Except DecodeError Instr :=
  match fld w 27 5 with
  | 0 => accept true ((AmoType.ofCode (fld w 24 3)).bind (fun x0 => (Order.ofCode (fld w 10 2)).bind (fun x1 => (Scope.ofCode (fld w 7 3)).map (fun x2 => .amoAdd x0 x1 x2 (f4 w 12) (f4 w 16) (f4 w 20)))))
  | 1 => accept true ((AmoType.ofCode (fld w 24 3)).bind (fun x0 => (Order.ofCode (fld w 10 2)).bind (fun x1 => (Scope.ofCode (fld w 7 3)).map (fun x2 => .amoAnd x0 x1 x2 (f4 w 12) (f4 w 16) (f4 w 20)))))
  | 2 => accept true ((AmoType.ofCode (fld w 24 3)).bind (fun x0 => (Order.ofCode (fld w 10 2)).bind (fun x1 => (Scope.ofCode (fld w 7 3)).map (fun x2 => .amoOr x0 x1 x2 (f4 w 12) (f4 w 16) (f4 w 20)))))
  | 3 => accept true ((AmoType.ofCode (fld w 24 3)).bind (fun x0 => (Order.ofCode (fld w 10 2)).bind (fun x1 => (Scope.ofCode (fld w 7 3)).map (fun x2 => .amoXor x0 x1 x2 (f4 w 12) (f4 w 16) (f4 w 20)))))
  | 4 => accept true ((AmoType.ofCode (fld w 24 3)).bind (fun x0 => (Order.ofCode (fld w 10 2)).bind (fun x1 => (Scope.ofCode (fld w 7 3)).map (fun x2 => .amoMin x0 x1 x2 (f4 w 12) (f4 w 16) (f4 w 20)))))
  | 5 => accept true ((AmoType.ofCode (fld w 24 3)).bind (fun x0 => (Order.ofCode (fld w 10 2)).bind (fun x1 => (Scope.ofCode (fld w 7 3)).map (fun x2 => .amoMax x0 x1 x2 (f4 w 12) (f4 w 16) (f4 w 20)))))
  | 6 => accept true ((AmoType.ofCode (fld w 24 3)).bind (fun x0 => (Order.ofCode (fld w 10 2)).bind (fun x1 => (Scope.ofCode (fld w 7 3)).map (fun x2 => .amoMinu x0 x1 x2 (f4 w 12) (f4 w 16) (f4 w 20)))))
  | 7 => accept true ((AmoType.ofCode (fld w 24 3)).bind (fun x0 => (Order.ofCode (fld w 10 2)).bind (fun x1 => (Scope.ofCode (fld w 7 3)).map (fun x2 => .amoMaxu x0 x1 x2 (f4 w 12) (f4 w 16) (f4 w 20)))))
  | 8 => accept true ((AmoType.ofCode (fld w 24 3)).bind (fun x0 => (Order.ofCode (fld w 10 2)).bind (fun x1 => (Scope.ofCode (fld w 7 3)).map (fun x2 => .amoSwap x0 x1 x2 (f4 w 12) (f4 w 16) (f4 w 20)))))
  | 9 => accept true ((AmoType.ofCode (fld w 24 3)).bind (fun x0 => (Order.ofCode (fld w 10 2)).bind (fun x1 => (Scope.ofCode (fld w 7 3)).map (fun x2 => .amoCas x0 x1 x2 (f4 w 12) (f4 w 16) (f4 w 20)))))
  | 10 => accept (fld w 24 3 == 7) ((Order.ofCode (fld w 10 2)).bind (fun x0 => (Scope.ofCode (fld w 7 3)).map (fun x1 => .amoCas128 x0 x1 (f4 w 12) (f4 w 16) (f4 w 20))))
  | 11 => accept true ((AmoType.ofCode (fld w 24 3)).bind (fun x0 => (Order.ofCode (fld w 10 2)).bind (fun x1 => (Scope.ofCode (fld w 7 3)).map (fun x2 => .amoFadd x0 x1 x2 (f4 w 12) (f4 w 16) (f4 w 20)))))
  | 12 => accept true ((AmoType.ofCode (fld w 24 3)).bind (fun x0 => (Order.ofCode (fld w 10 2)).bind (fun x1 => (Scope.ofCode (fld w 7 3)).map (fun x2 => .amoFmin x0 x1 x2 (f4 w 12) (f4 w 16) (f4 w 20)))))
  | 13 => accept true ((AmoType.ofCode (fld w 24 3)).bind (fun x0 => (Order.ofCode (fld w 10 2)).bind (fun x1 => (Scope.ofCode (fld w 7 3)).map (fun x2 => .amoFmax x0 x1 x2 (f4 w 12) (f4 w 16) (f4 w 20)))))
  | _ => .error .code

/-- Major 0x1D (R35). -/
def decodeMajor1D (w : Nat) : Except DecodeError Instr :=
  match fld w 27 5 with
  | 0 => accept (fld w 12 4 == 0) ((AmoType.ofCode (fld w 24 3)).bind (fun x0 => (Order.ofCode (fld w 10 2)).bind (fun x1 => (Scope.ofCode (fld w 7 3)).map (fun x2 => .redAdd x0 x1 x2 (f4 w 16) (f4 w 20)))))
  | 1 => accept (fld w 12 4 == 0) ((AmoType.ofCode (fld w 24 3)).bind (fun x0 => (Order.ofCode (fld w 10 2)).bind (fun x1 => (Scope.ofCode (fld w 7 3)).map (fun x2 => .redAnd x0 x1 x2 (f4 w 16) (f4 w 20)))))
  | 2 => accept (fld w 12 4 == 0) ((AmoType.ofCode (fld w 24 3)).bind (fun x0 => (Order.ofCode (fld w 10 2)).bind (fun x1 => (Scope.ofCode (fld w 7 3)).map (fun x2 => .redOr x0 x1 x2 (f4 w 16) (f4 w 20)))))
  | 3 => accept (fld w 12 4 == 0) ((AmoType.ofCode (fld w 24 3)).bind (fun x0 => (Order.ofCode (fld w 10 2)).bind (fun x1 => (Scope.ofCode (fld w 7 3)).map (fun x2 => .redXor x0 x1 x2 (f4 w 16) (f4 w 20)))))
  | 4 => accept (fld w 12 4 == 0) ((AmoType.ofCode (fld w 24 3)).bind (fun x0 => (Order.ofCode (fld w 10 2)).bind (fun x1 => (Scope.ofCode (fld w 7 3)).map (fun x2 => .redMin x0 x1 x2 (f4 w 16) (f4 w 20)))))
  | 5 => accept (fld w 12 4 == 0) ((AmoType.ofCode (fld w 24 3)).bind (fun x0 => (Order.ofCode (fld w 10 2)).bind (fun x1 => (Scope.ofCode (fld w 7 3)).map (fun x2 => .redMax x0 x1 x2 (f4 w 16) (f4 w 20)))))
  | 6 => accept (fld w 12 4 == 0) ((AmoType.ofCode (fld w 24 3)).bind (fun x0 => (Order.ofCode (fld w 10 2)).bind (fun x1 => (Scope.ofCode (fld w 7 3)).map (fun x2 => .redMinu x0 x1 x2 (f4 w 16) (f4 w 20)))))
  | 7 => accept (fld w 12 4 == 0) ((AmoType.ofCode (fld w 24 3)).bind (fun x0 => (Order.ofCode (fld w 10 2)).bind (fun x1 => (Scope.ofCode (fld w 7 3)).map (fun x2 => .redMaxu x0 x1 x2 (f4 w 16) (f4 w 20)))))
  | 11 => accept (fld w 12 4 == 0) ((AmoType.ofCode (fld w 24 3)).bind (fun x0 => (Order.ofCode (fld w 10 2)).bind (fun x1 => (Scope.ofCode (fld w 7 3)).map (fun x2 => .redFadd x0 x1 x2 (f4 w 16) (f4 w 20)))))
  | 12 => accept (fld w 12 4 == 0) ((AmoType.ofCode (fld w 24 3)).bind (fun x0 => (Order.ofCode (fld w 10 2)).bind (fun x1 => (Scope.ofCode (fld w 7 3)).map (fun x2 => .redFmin x0 x1 x2 (f4 w 16) (f4 w 20)))))
  | 13 => accept (fld w 12 4 == 0) ((AmoType.ofCode (fld w 24 3)).bind (fun x0 => (Order.ofCode (fld w 10 2)).bind (fun x1 => (Scope.ofCode (fld w 7 3)).map (fun x2 => .redFmax x0 x1 x2 (f4 w 16) (f4 w 20)))))
  | _ => .error .code

/-- Major 0x1E (R35). -/
def decodeMajor1E (w : Nat) : Except DecodeError Instr :=
  match fld w 27 5 with
  | 0 => accept (fld w 7 5 == 0 && fld w 20 7 == 0) (some (.ldrW (f4 w 12) (f4 w 16)))
  | 1 => accept (fld w 7 9 == 0 && fld w 24 3 == 0) (some (.stc (f4 w 16) (f4 w 20)))
  | 2 => accept (fld w 7 9 == 0 && fld w 20 7 == 0) (some (.rcancel (f4 w 16)))
  | _ => .error .code

/-- Major 0x1F (R35). -/
def decodeMajor1F (w : Nat) : Except DecodeError Instr :=
  match fld w 27 5 with
  | 0 => accept (fld w 12 15 == 0) ((Order.ofCode (fld w 10 2)).bind (fun x0 => (Scope.ofCode (fld w 7 3)).map (fun x1 => .fence x0 x1)))
  | 1 => accept (fld w 7 20 == 0) (some .drainTs)
  | 2 => accept (fld w 7 20 == 0) (some .drainGm)
  | 3 => accept (fld w 7 20 == 0) (some .drainMx)
  | 4 => accept (fld w 10 6 == 0 && fld w 20 7 == 0) ((Scope.ofCode (fld w 7 3)).map (fun x0 => .cln x0 (f4 w 16)))
  | 5 => accept (fld w 7 9 == 0 && fld w 20 7 == 0) (some (.cinv (f4 w 16)))
  | 6 => accept (fld w 7 9 == 0 && fld w 20 7 == 0) (some (.iinv (f4 w 16)))
  | 7 => accept (fld w 7 9 == 0 && fld w 20 7 == 0) (some (.pref (f4 w 16)))
  | _ => .error .code

/-- Major 0x20 (R35). -/
def decodeMajor20 (w : Nat) : Except DecodeError Instr :=
  match fld w 28 4 with
  | 0 => accept (fld w 12 16 == 0) (some (.yield (fGuard w)))
  | 1 => accept (fld w 12 16 == 0) (some (.park (fGuard w)))
  | 2 => accept (fld w 12 4 == 0 && fld w 20 8 == 0) (some (.wake (fGuard w) (f4 w 16)))
  | 3 => accept (fld w 12 16 == 0) (some (.exit (fGuard w)))
  | 4 => accept (fld w 12 4 == 0 && fld w 20 8 == 0) (some (.migr (fGuard w) (f4 w 16)))
  | 5 => accept true (some (.mfs (fGuard w) (BitVec.ofNat 12 (fld w 16 12)) (f4 w 12)))
  | 6 => accept true (some (.mts (fGuard w) (BitVec.ofNat 12 (fld w 16 12)) (f4 w 12)))
  | 7 => accept (fld w 19 9 == 0) (some (.widF (fGuard w) (f3 w 16) (f4 w 12)))
  | _ => .error .code

/-- Major 0x21 (R35). -/
def decodeMajor21 (w : Nat) : Except DecodeError Instr :=
  match fld w 28 4 with
  | 0 => accept true (some (.fork (fGuard w) (BitVec.ofNat 16 (fld w 12 16))))
  | 1 => accept (fld w 12 16 == 0) (some (.sync (fGuard w)))
  | 2 => accept (fld w 12 4 == 0 && fld w 20 8 == 0) (some (.gang (fGuard w) (f4 w 16)))
  | _ => .error .code

/-- Major 0x22 (R35). -/
def decodeMajor22 (w : Nat) : Except DecodeError Instr :=
  match fld w 28 4 with
  | 0 => accept (fld w 12 4 == 0 && fld w 20 8 == 0) (some (.launch (fGuard w) (f4 w 16)))
  | 1 => accept (fld w 12 16 == 0) (some (.trig (fGuard w)))
  | 2 => accept (fld w 12 4 == 0 && fld w 24 4 == 0) (some (.grun (fGuard w) (f4 w 16) (f4 w 20)))
  | _ => .error .code

/-- Major 0x23 (R35). -/
def decodeMajor23 (w : Nat) : Except DecodeError Instr :=
  match fld w 28 4 with
  | 0 => accept (fld w 12 4 == 0 && fld w 26 2 == 0) (some (.send (fGuard w) (f2 w 24) (f4 w 16) (f4 w 20)))
  | 1 => accept (fld w 12 4 == 0 && fld w 24 4 == 0) (some (.qpush (fGuard w) (f4 w 16) (f4 w 20)))
  | 2 => accept (fld w 20 8 == 0) (some (.qpop (fGuard w) (f4 w 16) (f4 w 12)))
  | 3 => accept (fld w 20 8 == 0) (some (.qstat (fGuard w) (f4 w 16) (f4 w 12)))
  | 4 => accept (fld w 13 4 == 0) ((Scope.ofCode (fld w 25 3)).map (fun x0 => .wenq x0 (f6 w 7) (f4 w 17) (f4 w 21)))
  | _ => .error .code

/-- Major 0x24 (R35). -/
def decodeMajor24 (w : Nat) : Except DecodeError Instr :=
  match fld w 28 4 with
  | 0 => accept (fld w 12 4 == 0 && fld w 20 2 == 0) (some (.barInit (fGuard w) (f6 w 22) (f4 w 16)))
  | 1 => accept (fld w 12 10 == 0) (some (.barArv (fGuard w) (f6 w 22)))
  | 2 => accept (fld w 12 4 == 0 && fld w 20 2 == 0) (some (.barArvb (fGuard w) (f6 w 22) (f4 w 16)))
  | 3 => accept (fld w 12 4 == 0 && fld w 20 2 == 0) (some (.barExp (fGuard w) (f6 w 22) (f4 w 16)))
  | 4 => accept (fld w 12 4 == 0 && fld w 20 2 == 0) (some (.barWait (fGuard w) (f6 w 22) (f4 w 16)))
  | 5 => accept (fld w 12 10 == 0) (some (.barAw (fGuard w) (f6 w 22)))
  | 6 => accept (fld w 16 6 == 0) (some (.barTest (fGuard w) (f6 w 22) (f4 w 12)))
  | 7 => accept (fld w 12 10 == 0) (some (.barInv (fGuard w) (f6 w 22)))
  | 8 => accept (fld w 12 10 == 0) (some (.dbar (fGuard w) (f6 w 22)))
  | _ => .error .code

/-- Major 0x25 (R35). -/
def decodeMajor25 (w : Nat) : Except DecodeError Instr :=
  match fld w 28 4 with
  | 0 => accept (fld w 24 4 == 0) (some (.apnd (fGuard w) (f4 w 12) (f4 w 16) (f4 w 20)))
  | 1 => accept (fld w 20 2 == 0) (some (.apndh (fGuard w) (f6 w 22) (f4 w 12) (f4 w 16)))
  | 2 => accept (fld w 20 8 == 0) (some (.ldtail (fGuard w) (f4 w 12) (f4 w 16)))
  | 3 => accept (fld w 12 4 == 0 && fld w 20 8 == 0) (some (.seal (fGuard w) (f4 w 16)))
  | 4 => accept (fld w 12 4 == 0 && fld w 24 4 == 0) (some (.xinv (fGuard w) (f4 w 16) (f4 w 20)))
  | _ => .error .code

/-- Major 0x26 (R35). -/
def decodeMajor26 (w : Nat) : Except DecodeError Instr :=
  match fld w 28 4 with
  | 0 => accept (fld w 12 4 == 0 && fld w 27 1 == 0) (some (.rcommit (fGuard w) (f3 w 24) (f4 w 16) (f4 w 20)))
  | 1 => accept (fld w 16 8 == 0 && fld w 27 1 == 0) (some (.rmark (fGuard w) (f3 w 24) (f4 w 12)))
  | _ => .error .code

/-- Major 0x27 (R35). -/
def decodeMajor27 (w : Nat) : Except DecodeError Instr :=
  match fld w 28 4 with
  | 0 => accept (fld w 12 4 == 0) (some (.trap (fGuard w) (BitVec.ofNat 12 (fld w 16 12))))
  | 1 => accept (fld w 12 16 == 0) (some (.ebrk (fGuard w)))
  | 2 => accept (fld w 12 4 == 0 && fld w 26 2 == 0) ((ResumeMode.ofCode (fld w 24 2)).map (fun x0 => .resume (fGuard w) x0 (f4 w 16) (f4 w 20)))
  | 3 => accept (fld w 12 16 == 0) (some (.halt (fGuard w)))
  | 4 => accept (fld w 12 4 == 0) (some (.trc (fGuard w) (BitVec.ofNat 12 (fld w 16 12))))
  | _ => .error .code

/-- Major 0x28 (R35). -/
def decodeMajor28 (w : Nat) : Except DecodeError Instr :=
  match fld w 28 4 with
  | 0 => accept (fld w 13 4 == 0 && fld w 21 7 == 0) (some (.hdef (f6 w 7) (f4 w 17)))
  | 1 => accept (fld w 17 11 == 0) (some (.hinfo (f6 w 7) (f4 w 13)))
  | 2 => accept (fld w 13 15 == 0) (some (.hseal (f6 w 7)))
  | 3 => accept (fld w 13 15 == 0) (some (.hopen (f6 w 7)))
  | 4 => accept (fld w 13 4 == 0 && fld w 21 7 == 0) (some (.hmap (f6 w 7) (f4 w 17)))
  | 5 => accept (fld w 13 15 == 0) (some (.hunmap (f6 w 7)))
  | 6 => accept (fld w 21 7 == 0) (some (.ldh (f6 w 7) (f4 w 13) (f4 w 17)))
  | 7 => accept (fld w 13 4 == 0 && fld w 25 3 == 0) (some (.sth (f6 w 7) (f4 w 17) (f4 w 21)))
  | _ => .error .code

/-- Major 0x29 (R35). -/
def decodeMajor29 (w : Nat) : Except DecodeError Instr :=
  match fld w 28 4 with
  | 0 => accept (fld w 13 4 == 0) ((Scope.ofCode (fld w 25 3)).map (fun x0 => .cpyG2t x0 (f6 w 7) (f4 w 17) (f4 w 21)))
  | 1 => accept (fld w 13 4 == 0) ((Scope.ofCode (fld w 25 3)).map (fun x0 => .cpyT2g x0 (f6 w 7) (f4 w 17) (f4 w 21)))
  | 2 => accept (fld w 19 2 == 0) ((Scope.ofCode (fld w 25 3)).map (fun x0 => .cpyT2t x0 (f6 w 7) (f6 w 13) (f4 w 21)))
  | 3 => accept (fld w 7 6 == 0) ((Scope.ofCode (fld w 25 3)).map (fun x0 => .cpyG2g x0 (f4 w 13) (f4 w 17) (f4 w 21)))
  | 4 => accept (fld w 9 8 == 0) ((Scope.ofCode (fld w 25 3)).map (fun x0 => .cpyG2q x0 (f2 w 7) (f4 w 17) (f4 w 21)))
  | 5 => accept (fld w 13 4 == 0) ((Scope.ofCode (fld w 25 3)).map (fun x0 => .cpyGat x0 (f6 w 7) (f4 w 17) (f4 w 21)))
  | 6 => accept (fld w 13 4 == 0) ((Scope.ofCode (fld w 25 3)).map (fun x0 => .cpySca x0 (f6 w 7) (f4 w 17) (f4 w 21)))
  | _ => .error .code

/-- Major 0x2A (R35). -/
def decodeMajor2A (w : Nat) : Except DecodeError Instr :=
  match fld w 28 4 with
  | 0 => accept (fld w 27 1 == 0) ((Round.ofCode (fld w 25 2)).map (fun x0 => .tvAdd x0 (f6 w 7) (f6 w 13) (f6 w 19)))
  | 1 => accept (fld w 27 1 == 0) ((Round.ofCode (fld w 25 2)).map (fun x0 => .tvSub x0 (f6 w 7) (f6 w 13) (f6 w 19)))
  | 2 => accept (fld w 27 1 == 0) ((Round.ofCode (fld w 25 2)).map (fun x0 => .tvMul x0 (f6 w 7) (f6 w 13) (f6 w 19)))
  | 3 => accept (fld w 27 1 == 0) ((Round.ofCode (fld w 25 2)).map (fun x0 => .tvFma x0 (f6 w 7) (f6 w 13) (f6 w 19)))
  | 4 => accept (fld w 27 1 == 0) ((Round.ofCode (fld w 25 2)).map (fun x0 => .tvMin x0 (f6 w 7) (f6 w 13) (f6 w 19)))
  | 5 => accept (fld w 27 1 == 0) ((Round.ofCode (fld w 25 2)).map (fun x0 => .tvMax x0 (f6 w 7) (f6 w 13) (f6 w 19)))
  | 6 => accept (fld w 19 9 == 0) (some (.tvAbs (f6 w 7) (f6 w 13)))
  | 7 => accept (fld w 19 9 == 0) (some (.tvExp2 (f6 w 7) (f6 w 13)))
  | 8 => accept (fld w 19 9 == 0) (some (.tvRcp (f6 w 7) (f6 w 13)))
  | _ => .error .code

/-- Major 0x2B (R35). -/
def decodeMajor2B (w : Nat) : Except DecodeError Instr :=
  match fld w 28 4 with
  | 0 => accept (fld w 19 6 == 0) ((Round.ofCode (fld w 25 2)).map (fun x0 => .tvCvt x0 (f1 w 27) (f6 w 7) (f6 w 13)))
  | 1 => accept (fld w 19 6 == 0) ((RedOp.ofCode (fld w 25 2)).map (fun x0 => .tvRed x0 (f1 w 27) (f6 w 7) (f6 w 13)))
  | 2 => accept (fld w 19 9 == 0) (some (.tvBcast (f6 w 7) (f6 w 13)))
  | 3 => accept (fld w 19 9 == 0) (some (.tvTrans (f6 w 7) (f6 w 13)))
  | 4 => accept (fld w 25 3 == 0) (some (.tvSel (f6 w 7) (f6 w 13) (f6 w 19)))
  | 5 => accept (fld w 25 3 == 0) (some (.tvScale (f6 w 7) (f6 w 13) (f6 w 19)))
  | _ => .error .code

/-- Major 0x2C (R35). -/
def decodeMajor2C (w : Nat) : Except DecodeError Instr :=
  match fld w 28 4 with
  | 0 => accept (fld w 7 2 == 0 && fld w 13 12 == 0) (some (.mcfg (f3 w 25) (f4 w 9)))
  | 1 => accept (fld w 7 12 == 0) (some (.mloadb (f3 w 25) (f6 w 19)))
  | 2 => accept (fld w 7 2 == 0) (some (.mmac (f3 w 25) (f6 w 19) (f6 w 13) (f4 w 9)))
  | 3 => accept (fld w 7 2 == 0) (some (.mmacs (f3 w 25) (f6 w 19) (f6 w 13) (f4 w 9)))
  | 4 => accept (fld w 7 2 == 0) (some (.mepi (f3 w 25) (f6 w 19) (f6 w 13) (f4 w 9)))
  | 5 => accept (fld w 7 18 == 0) (some (.ctswap (f3 w 25)))
  | _ => .error .code

/-- Major 0x2D (R35). -/
def decodeMajor2D (w : Nat) : Except DecodeError Instr :=
  match fld w 28 4 with
  | 0 => accept (fld w 12 12 == 0) (some (.msemWait (fGuard w) (f4 w 24)))
  | 1 => accept (fld w 12 12 == 0) (some (.msemPost (fGuard w) (f4 w 24)))
  | 2 => accept (fld w 12 16 == 0) (some (.mdrain (fGuard w)))
  | _ => .error .code

/-- A 32-bit instruction: the major opcode in [6:1] chooses the layout (R28, R35). -/
def decode32 (w : Nat) : Except DecodeError Instr :=
  match fld w 1 6 with
  | 0 => decodeMajor00 w
  | 1 => decodeMajor01 w
  | 2 => decodeMajor02 w
  | 3 => decodeMajor03 w
  | 4 => decodeMajor04 w
  | 5 => decodeMajor05 w
  | 6 => decodeMajor06 w
  | 7 => decodeMajor07 w
  | 8 => decodeMajor08 w
  | 9 => decodeMajor09 w
  | 10 => decodeMajor0A w
  | 11 => decodeMajor0B w
  | 12 => decodeMajor0C w
  | 13 => decodeMajor0D w
  | 14 => decodeMajor0E w
  | 15 => decodeMajor0F w
  | 16 => decodeMajor10 w
  | 17 => decodeMajor11 w
  | 18 => decodeMajor12 w
  | 20 => decodeMajor14 w
  | 21 => decodeMajor15 w
  | 22 => decodeMajor16 w
  | 23 => decodeMajor17 w
  | 24 => decodeMajor18 w
  | 25 => decodeMajor19 w
  | 26 => decodeMajor1A w
  | 27 => decodeMajor1B w
  | 28 => decodeMajor1C w
  | 29 => decodeMajor1D w
  | 30 => decodeMajor1E w
  | 31 => decodeMajor1F w
  | 32 => decodeMajor20 w
  | 33 => decodeMajor21 w
  | 34 => decodeMajor22 w
  | 35 => decodeMajor23 w
  | 36 => decodeMajor24 w
  | 37 => decodeMajor25 w
  | 38 => decodeMajor26 w
  | 39 => decodeMajor27 w
  | 40 => decodeMajor28 w
  | 41 => decodeMajor29 w
  | 42 => decodeMajor2A w
  | 43 => decodeMajor2B w
  | 44 => decodeMajor2C w
  | 45 => decodeMajor2D w
  | _ => .error .major

/-- The length bit of the first halfword (R25). -/
def isLong (w : Nat) : Bool := w % 2 == 1

/-- Decode an instruction word; bit 0 gives the length (R25). -/
def decodeWord (w : Nat) : Except DecodeError Instr :=
  if isLong w then decode32 (w % 2 ^ 32) else decode16 (w % 2 ^ 16)

/-- Decode the instruction at the head of a list of bytes, in memory order (R4, R25). -/
def decodeBytes (bs : List Byte) : Except DecodeError Instr :=
  match bs with
  | b0 :: b1 :: rest =>
    if isLong b0.toNat then
      match rest with
      | b2 :: b3 :: _ =>
        decode32 (b0.toNat + b1.toNat * 2 ^ 8 + b2.toNat * 2 ^ 16 + b3.toNat * 2 ^ 24)
      | _ => .error .truncated
    else decode16 (b0.toNat + b1.toNat * 2 ^ 8)
  | _ => .error .truncated

/-- The four bytes of a word, the lowest first (R4). -/
def wordBytes (w : Nat) : List Byte :=
  [BitVec.ofNat 8 w, BitVec.ofNat 8 (w / 2 ^ 8), BitVec.ofNat 8 (w / 2 ^ 16), BitVec.ofNat 8 (w / 2 ^ 24)]

/-- The instruction the decoder reads from an instruction whose bits are `w`, the bits above `nbits` zero. -/
def decodeTableWord (nbits w : Nat) : Option Instr :=
  match decodeBytes (wordBytes (w % 2 ^ nbits)) with
  | .ok i => some i
  | .error _ => none

/-- The length in bytes of an encoded instruction; 0 for a step of the device. -/
def Instr.length (i : Instr) : Nat :=
  match i with
  | .add _ _ _ _ _ => 4
  | .sub _ _ _ _ _ => 4
  | .and _ _ _ _ _ => 4
  | .or _ _ _ _ _ => 4
  | .xor _ _ _ _ _ => 4
  | .shl _ _ _ _ _ => 4
  | .shr _ _ _ _ _ => 4
  | .sra _ _ _ _ _ => 4
  | .mul _ _ _ _ _ => 4
  | .mulh _ _ _ _ _ => 4
  | .mulhu _ _ _ _ _ => 4
  | .min _ _ _ _ _ => 4
  | .max _ _ _ _ _ => 4
  | .minu _ _ _ _ _ => 4
  | .maxu _ _ _ _ _ => 4
  | .mov _ _ _ _ => 4
  | .mov16 _ _ _ => 2
  | .add16 _ _ _ => 2
  | .sub16 _ _ _ => 2
  | .and16 _ _ _ => 2
  | .or16 _ _ _ => 2
  | .xor16 _ _ _ => 2
  | .shl16 _ _ _ => 2
  | .shr16 _ _ _ => 2
  | .sra16 _ _ _ => 2
  | .mul16 _ _ _ => 2
  | .min16 _ _ _ => 2
  | .max16 _ _ _ => 2
  | .fadd16 _ _ _ => 2
  | .fsub16 _ _ _ => 2
  | .fmul16 _ _ _ => 2
  | .fmax16 _ _ _ => 2
  | .addi _ _ _ _ => 4
  | .andi _ _ _ _ => 4
  | .ori _ _ _ _ => 4
  | .xori _ _ _ _ => 4
  | .shli _ _ _ _ _ => 4
  | .shri _ _ _ _ _ => 4
  | .srai _ _ _ _ _ => 4
  | .rori _ _ _ _ _ => 4
  | .movi _ _ _ => 4
  | .movk _ _ _ => 4
  | .clz _ _ _ _ => 4
  | .ctz _ _ _ _ => 4
  | .popc _ _ _ _ => 4
  | .bswap _ _ _ _ => 4
  | .brev _ _ _ _ => 4
  | .sext _ _ _ _ => 4
  | .zext _ _ _ _ => 4
  | .bext _ _ _ _ _ => 4
  | .bins _ _ _ _ _ => 4
  | .div _ _ _ _ _ => 4
  | .divu _ _ _ _ _ => 4
  | .rem _ _ _ _ _ => 4
  | .remu _ _ _ _ _ => 4
  | .cmp _ _ _ _ _ _ => 4
  | .cmpi _ _ _ _ _ => 4
  | .pand _ _ _ _ => 4
  | .por _ _ _ _ => 4
  | .pxor _ _ _ _ => 4
  | .pandn _ _ _ _ => 4
  | .pget _ _ => 4
  | .pput _ _ => 4
  | .sel _ _ _ _ _ => 4
  | .lea _ _ _ _ _ => 4
  | .padd _ _ _ _ => 4
  | .adds _ _ _ _ _ => 4
  | .subs _ _ _ _ _ => 4
  | .addsu _ _ _ _ _ => 4
  | .subsu _ _ _ _ _ => 4
  | .avgu _ _ _ _ _ => 4
  | .absd _ _ _ _ _ => 4
  | .neg _ _ _ _ => 4
  | .abs _ _ _ _ => 4
  | .vshuf _ _ _ _ _ => 4
  | .vpack _ _ _ _ _ => 4
  | .vunpkl _ _ _ _ => 4
  | .vunpkh _ _ _ _ => 4
  | .vbcast _ _ _ _ => 4
  | .vdot _ _ _ _ _ => 4
  | .vrsum _ _ _ _ => 4
  | .vcmp _ _ _ _ _ _ => 4
  | .vsel _ _ _ _ _ => 4
  | .vmsk _ _ _ _ => 4
  | .fadd _ _ _ _ _ _ => 4
  | .fsub _ _ _ _ _ _ => 4
  | .fmul _ _ _ _ _ _ => 4
  | .fma _ _ _ _ _ _ => 4
  | .fms _ _ _ _ _ _ => 4
  | .fnma _ _ _ _ _ _ => 4
  | .fmin _ _ _ _ _ => 4
  | .fmax _ _ _ _ _ => 4
  | .fabs _ _ _ _ => 4
  | .fneg _ _ _ _ => 4
  | .fsgnj _ _ _ _ _ => 4
  | .fdiv _ _ _ _ _ _ => 4
  | .fsqrt _ _ _ _ _ => 4
  | .frcpe _ _ _ _ => 4
  | .frsqe _ _ _ _ => 4
  | .fcmp _ _ _ _ _ _ => 4
  | .fclass _ _ _ _ => 4
  | .icvtf _ _ _ _ _ _ _ => 4
  | .fcvt _ _ _ _ _ _ _ => 4
  | .fcvti _ _ _ _ _ _ _ => 4
  | .br _ _ => 4
  | .call _ _ _ => 4
  | .jmp _ _ => 4
  | .jal _ _ _ => 4
  | .ret _ _ => 4
  | .brx _ _ _ => 4
  | .dbnz _ _ _ => 4
  | .ld _ _ _ _ _ _ => 4
  | .st _ _ _ _ _ => 4
  | .ldOrd _ _ _ _ _ => 4
  | .ldOrdSigned _ _ _ _ _ => 4
  | .stOrd _ _ _ _ _ => 4
  | .ldt _ _ _ _ _ _ => 4
  | .stt _ _ _ _ _ _ _ => 4
  | .amoAdd _ _ _ _ _ _ => 4
  | .amoAnd _ _ _ _ _ _ => 4
  | .amoOr _ _ _ _ _ _ => 4
  | .amoXor _ _ _ _ _ _ => 4
  | .amoMin _ _ _ _ _ _ => 4
  | .amoMax _ _ _ _ _ _ => 4
  | .amoMinu _ _ _ _ _ _ => 4
  | .amoMaxu _ _ _ _ _ _ => 4
  | .amoSwap _ _ _ _ _ _ => 4
  | .amoCas _ _ _ _ _ _ => 4
  | .amoCas128 _ _ _ _ _ => 4
  | .amoFadd _ _ _ _ _ _ => 4
  | .amoFmin _ _ _ _ _ _ => 4
  | .amoFmax _ _ _ _ _ _ => 4
  | .redAdd _ _ _ _ _ => 4
  | .redAnd _ _ _ _ _ => 4
  | .redOr _ _ _ _ _ => 4
  | .redXor _ _ _ _ _ => 4
  | .redMin _ _ _ _ _ => 4
  | .redMax _ _ _ _ _ => 4
  | .redMinu _ _ _ _ _ => 4
  | .redMaxu _ _ _ _ _ => 4
  | .redFadd _ _ _ _ _ => 4
  | .redFmin _ _ _ _ _ => 4
  | .redFmax _ _ _ _ _ => 4
  | .ldrW _ _ => 4
  | .stc _ _ => 4
  | .rcancel _ => 4
  | .fence _ _ => 4
  | .drainTs => 4
  | .drainGm => 4
  | .drainMx => 4
  | .cln _ _ => 4
  | .cinv _ => 4
  | .iinv _ => 4
  | .pref _ => 4
  | .yield _ => 4
  | .park _ => 4
  | .wake _ _ => 4
  | .exit _ => 4
  | .migr _ _ => 4
  | .mfs _ _ _ => 4
  | .mts _ _ _ => 4
  | .widF _ _ _ => 4
  | .fork _ _ => 4
  | .sync _ => 4
  | .gang _ _ => 4
  | .launch _ _ => 4
  | .trig _ => 4
  | .grun _ _ _ => 4
  | .send _ _ _ _ => 4
  | .qpush _ _ _ => 4
  | .qpop _ _ _ => 4
  | .qstat _ _ _ => 4
  | .wenq _ _ _ _ => 4
  | .barInit _ _ _ => 4
  | .barArv _ _ => 4
  | .barArvb _ _ _ => 4
  | .barExp _ _ _ => 4
  | .barWait _ _ _ => 4
  | .barAw _ _ => 4
  | .barTest _ _ _ => 4
  | .barInv _ _ => 4
  | .dbar _ _ => 4
  | .apnd _ _ _ _ => 4
  | .apndh _ _ _ _ => 4
  | .ldtail _ _ _ => 4
  | .seal _ _ => 4
  | .xinv _ _ _ => 4
  | .rcommit _ _ _ _ => 4
  | .rmark _ _ _ => 4
  | .trap _ _ => 4
  | .ebrk _ => 4
  | .resume _ _ _ _ => 4
  | .halt _ => 4
  | .trc _ _ => 4
  | .hdef _ _ => 4
  | .hinfo _ _ => 4
  | .hseal _ => 4
  | .hopen _ => 4
  | .hmap _ _ => 4
  | .hunmap _ => 4
  | .ldh _ _ _ => 4
  | .sth _ _ _ => 4
  | .cpyG2t _ _ _ _ => 4
  | .cpyT2g _ _ _ _ => 4
  | .cpyT2t _ _ _ _ => 4
  | .cpyG2g _ _ _ _ => 4
  | .cpyG2q _ _ _ _ => 4
  | .cpyGat _ _ _ _ => 4
  | .cpySca _ _ _ _ => 4
  | .tvAdd _ _ _ _ => 4
  | .tvSub _ _ _ _ => 4
  | .tvMul _ _ _ _ => 4
  | .tvFma _ _ _ _ => 4
  | .tvMin _ _ _ _ => 4
  | .tvMax _ _ _ _ => 4
  | .tvAbs _ _ => 4
  | .tvExp2 _ _ => 4
  | .tvRcp _ _ => 4
  | .tvCvt _ _ _ _ => 4
  | .tvRed _ _ _ _ => 4
  | .tvBcast _ _ => 4
  | .tvTrans _ _ => 4
  | .tvSel _ _ _ => 4
  | .tvScale _ _ _ => 4
  | .mcfg _ _ => 4
  | .mloadb _ _ => 4
  | .mmac _ _ _ _ => 4
  | .mmacs _ _ _ _ => 4
  | .mepi _ _ _ _ => 4
  | .ctswap _ => 4
  | .msemWait _ _ => 4
  | .msemPost _ _ => 4
  | .mdrain _ => 4
  | .lineBind _ _ => 0
  | .rotation _ _ => 0
  | .priorityAging _ => 0
  | .contextFill _ => 0
  | .lineForward _ => 0
  | .loadReply _ => 0
  | .sRegisterReply _ => 0
  | .longOperationCompletion _ => 0
  | .writeAcknowledgement _ => 0
  | .durableAcknowledgement _ => 0
  | .faultAnswer _ => 0
  | .heldRelease _ _ => 0
  | .waitDeadline _ => 0
  | .wakeApply _ => 0
  | .resumeApply _ => 0
  | .migrateMove _ => 0
  | .translate _ => 0
  | .pageWalk _ => 0
  | .homeAccess _ => 0
  | .visitorInvalidate _ => 0
  | .ownershipRequest _ => 0
  | .ownerRecall _ _ => 0
  | .stashFill _ => 0
  | .stashRecall _ _ => 0
  | .reservationEnqueue _ => 0
  | .reservationGrant _ => 0
  | .conditionalStore _ => 0
  | .reservationTimeout _ => 0
  | .wenqAccept _ => 0
  | .wenqPush _ => 0
  | .sendDelivery _ => 0
  | .faultMessage _ => 0
  | .mismatchThreshold _ => 0
  | .copyAccept _ => 0
  | .copyStart _ => 0
  | .multicastDelivery _ => 0
  | .copyComplete _ _ => 0
  | .copyError _ _ => 0
  | .byteArrival _ => 0
  | .tvStart _ => 0
  | .tvComplete _ => 0
  | .matrixAccept _ => 0
  | .matrixOpStart _ => 0
  | .mloadbExecute _ => 0
  | .maskPop _ => 0
  | .matrixPass _ => 0
  | .passCheck _ _ => 0
  | .epilogueRow _ => 0
  | .matrixComplete _ => 0
  | .engineSemaphorePost _ => 0
  | .semaphoreGrant _ => 0
  | .tableSwap _ _ => 0
  | .barrierCompletion _ => 0
  | .notification _ => 0
  | .groupTableRead _ => 0
  | .launchAccept _ => 0
  | .placeKernel _ => 0
  | .seedContext _ _ => 0
  | .reservationPriority _ => 0
  | .gangPlace _ => 0
  | .gangGrant _ => 0
  | .gangWithdraw _ => 0
  | .triggerEvent _ => 0
  | .triggerMessage _ _ _ => 0
  | .doneMessage _ _ _ => 0
  | .grunApply _ => 0
  | .graphReplay _ => 0
  | .continuationPop _ _ => 0
  | .resumeRecordPop _ _ => 0
  | .recordSteal _ => 0
  | .recordAging _ _ => 0
  | .forkAllocate _ => 0
  | .syncTest _ => 0
  | .joinCompletion _ => 0
  | .appendArrival _ => 0
  | .tailPublish _ => 0
  | .sealArrival _ => 0
  | .sealComplete _ => 0
  | .replicaMake _ => 0
  | .reclaim _ => 0
  | .reclaimComplete _ => 0
  | .xinvInvalidate _ => 0
  | .xinvAck _ => 0
  | .commitRecord _ => 0
  | .mirrorRetry _ => 0
  | .rcpWrite _ => 0
  | .srseedWrite _ _ => 0
  | .ctblWrite _ => 0
  | .tswWrite _ _ => 0
  | .trcctlWrite _ _ => 0
  | .gswtWrite _ _ => 0
  | .gangSwitch _ => 0
  | .reinjectRound _ => 0
  | .machineCheck _ _ _ _ _ _ => 0
  | .contain _ => 0
  | .containmentComplete _ => 0
  | .dieReset _ _ => 0
  | .stackLoss _ => 0
  | .powerLoss => 0
  | .thermalLimit _ _ => 0
  | .powerGrantStep _ => 0
  | .flitReceive _ _ _ _ => 0
  | .replayRequest _ _ => 0
  | .linkAck _ _ => 0
  | .replayTimeout _ => 0
  | .linkRetrain _ => 0
  | .linkEnable _ => 0
  | .trainingComplete _ => 0
  | .trainingTimeout _ => 0
  | .laneDegrade _ _ => 0
  | .linkDisable _ => 0
  | .injctlWrite _ _ => 0
  | .injectorFire _ => 0
  | .hostMemAccess _ _ _ => 0
  | .bar2Access _ _ _ => 0
  | .snpInv _ => 0
  | .snpData _ => 0
  | .snpCur _ => 0
  | .hostResponse _ _ _ => 0
  | .birsp _ _ => 0
  | .biasFlipHost _ => 0
  | .biasFlipDevice _ => 0
  | .flipComplete _ => 0
  | .interruptCauseWrite _ _ => 0
  | .ringDoorbell _ _ _ => 0
  | .ringConsume _ _ => 0
  | .ringReset _ _ _ => 0
  | .peerPacket _ _ _ => 0
  | .registerWrite _ _ _ _ => 0
  | .merge _ => 0
  | .split _ => 0
  | .endKernel _ => 0
  | .loadPatchImage _ => 0
  | .restartCore _ _ => 0
  | .retireCore _ => 0
  | .attest _ => 0
  | .updateFirmware _ => 0
  | .linkState _ => 0
  | .objectSelect _ => 0
  | .powerUp _ => 0
  | .probe _ _ _ => 0
  | .present _ => 0
  | .done _ => 0
  | .mapInstall _ => 0
  | .imageStream _ => 0
  | .imageReceive _ => 0
  | .sourceReadComplete _ _ => 0
  | .notificationNetReply _ => 0
  | .hostCompletionTimeout _ => 0
  | .laneTrainingFailure _ _ => 0

/-- The word `w` with a field of value `v` at bit `lo`. -/
def put (v lo w : Nat) : Nat := w + v * 2 ^ lo

/-- The word `w` with the guard fields (R27). -/
def putGuard (g : Guard) (w : Nat) : Nat := put (b2n g.n) 11 (put g.p.val 7 w)

/-- The word of an instruction, from the same layouts; 0, which decodes to nothing, for a step of the device. -/
def encode (i : Instr) : Nat :=
  match i with
  | .add g t d a b => putGuard g (put t.code 29 (put d.val 12 (put a.val 16 (put b.val 20 0x00000001))))
  | .sub g t d a b => putGuard g (put t.code 29 (put d.val 12 (put a.val 16 (put b.val 20 0x01000001))))
  | .and g t d a b => putGuard g (put t.code 29 (put d.val 12 (put a.val 16 (put b.val 20 0x02000001))))
  | .or g t d a b => putGuard g (put t.code 29 (put d.val 12 (put a.val 16 (put b.val 20 0x03000001))))
  | .xor g t d a b => putGuard g (put t.code 29 (put d.val 12 (put a.val 16 (put b.val 20 0x04000001))))
  | .shl g t d a b => putGuard g (put t.code 29 (put d.val 12 (put a.val 16 (put b.val 20 0x05000001))))
  | .shr g t d a b => putGuard g (put t.code 29 (put d.val 12 (put a.val 16 (put b.val 20 0x06000001))))
  | .sra g t d a b => putGuard g (put t.code 29 (put d.val 12 (put a.val 16 (put b.val 20 0x07000001))))
  | .mul g t d a b => putGuard g (put t.code 29 (put d.val 12 (put a.val 16 (put b.val 20 0x08000001))))
  | .mulh g t d a b => putGuard g (put t.code 29 (put d.val 12 (put a.val 16 (put b.val 20 0x09000001))))
  | .mulhu g t d a b => putGuard g (put t.code 29 (put d.val 12 (put a.val 16 (put b.val 20 0x0A000001))))
  | .min g t d a b => putGuard g (put t.code 29 (put d.val 12 (put a.val 16 (put b.val 20 0x0B000001))))
  | .max g t d a b => putGuard g (put t.code 29 (put d.val 12 (put a.val 16 (put b.val 20 0x0C000001))))
  | .minu g t d a b => putGuard g (put t.code 29 (put d.val 12 (put a.val 16 (put b.val 20 0x0D000001))))
  | .maxu g t d a b => putGuard g (put t.code 29 (put d.val 12 (put a.val 16 (put b.val 20 0x0E000001))))
  | .mov g t d a => putGuard g (put t.code 29 (put d.val 12 (put a.val 16 0x0F000001)))
  | .mov16 t d s => put t.code 13 (put d.val 5 (put s.val 9 0x0000))
  | .add16 t d s => put t.code 13 (put d.val 5 (put s.val 9 0x0002))
  | .sub16 t d s => put t.code 13 (put d.val 5 (put s.val 9 0x0004))
  | .and16 t d s => put t.code 13 (put d.val 5 (put s.val 9 0x0006))
  | .or16 t d s => put t.code 13 (put d.val 5 (put s.val 9 0x0008))
  | .xor16 t d s => put t.code 13 (put d.val 5 (put s.val 9 0x000A))
  | .shl16 t d s => put t.code 13 (put d.val 5 (put s.val 9 0x000C))
  | .shr16 t d s => put t.code 13 (put d.val 5 (put s.val 9 0x000E))
  | .sra16 t d s => put t.code 13 (put d.val 5 (put s.val 9 0x0010))
  | .mul16 t d s => put t.code 13 (put d.val 5 (put s.val 9 0x0012))
  | .min16 t d s => put t.code 13 (put d.val 5 (put s.val 9 0x0014))
  | .max16 t d s => put t.code 13 (put d.val 5 (put s.val 9 0x0016))
  | .fadd16 t d s => put t.code 13 (put d.val 5 (put s.val 9 0x0018))
  | .fsub16 t d s => put t.code 13 (put d.val 5 (put s.val 9 0x001A))
  | .fmul16 t d s => put t.code 13 (put d.val 5 (put s.val 9 0x001C))
  | .fmax16 t d s => put t.code 13 (put d.val 5 (put s.val 9 0x001E))
  | .addi g d a i => putGuard g (put d.val 12 (put a.val 16 (put i.toNat 20 0x00000003)))
  | .andi g d a i => putGuard g (put d.val 12 (put a.val 16 (put i.toNat 20 0x00000005)))
  | .ori g d a i => putGuard g (put d.val 12 (put a.val 16 (put i.toNat 20 0x00000007)))
  | .xori g d a i => putGuard g (put d.val 12 (put a.val 16 (put i.toNat 20 0x00000009)))
  | .shli g t d a h => putGuard g (put t.code 27 (put d.val 12 (put a.val 16 (put h.val 20 0x0000000B))))
  | .shri g t d a h => putGuard g (put t.code 27 (put d.val 12 (put a.val 16 (put h.val 20 0x4000000B))))
  | .srai g t d a h => putGuard g (put t.code 27 (put d.val 12 (put a.val 16 (put h.val 20 0x8000000B))))
  | .rori g t d a h => putGuard g (put t.code 27 (put d.val 12 (put a.val 16 (put h.val 20 0xC000000B))))
  | .movi d i w => put d.val 12 (put i.toNat 16 (put w.val 9 0x0000000D))
  | .movk d i w => put d.val 12 (put i.toNat 16 (put w.val 9 0x0000080D))
  | .clz g t d a => putGuard g (put t.code 29 (put d.val 12 (put a.val 16 0x0000000F)))
  | .ctz g t d a => putGuard g (put t.code 29 (put d.val 12 (put a.val 16 0x0100000F)))
  | .popc g t d a => putGuard g (put t.code 29 (put d.val 12 (put a.val 16 0x0200000F)))
  | .bswap g t d a => putGuard g (put t.code 29 (put d.val 12 (put a.val 16 0x0300000F)))
  | .brev g t d a => putGuard g (put t.code 29 (put d.val 12 (put a.val 16 0x0400000F)))
  | .sext g t d a => putGuard g (put t.code 29 (put d.val 12 (put a.val 16 0x0500000F)))
  | .zext g t d a => putGuard g (put t.code 29 (put d.val 12 (put a.val 16 0x0600000F)))
  | .bext g t d a b => putGuard g (put t.code 29 (put d.val 12 (put a.val 16 (put b.val 20 0x0700000F))))
  | .bins g t d a b => putGuard g (put t.code 29 (put d.val 12 (put a.val 16 (put b.val 20 0x0800000F))))
  | .div g t d a b => putGuard g (put t.code 29 (put d.val 12 (put a.val 16 (put b.val 20 0x00000011))))
  | .divu g t d a b => putGuard g (put t.code 29 (put d.val 12 (put a.val 16 (put b.val 20 0x01000011))))
  | .rem g t d a b => putGuard g (put t.code 29 (put d.val 12 (put a.val 16 (put b.val 20 0x02000011))))
  | .remu g t d a b => putGuard g (put t.code 29 (put d.val 12 (put a.val 16 (put b.val 20 0x03000011))))
  | .cmp g t c p a b => putGuard g (put t.code 28 (put c.code 24 (put p.val 12 (put a.val 16 (put b.val 20 0x00000013)))))
  | .cmpi g c p a i => putGuard g (put c.code 28 (put p.val 12 (put a.val 16 (put i.toNat 20 0x00000015))))
  | .pand g d a b => putGuard g (put d.val 12 (put a.val 16 (put b.val 20 0x00000017)))
  | .por g d a b => putGuard g (put d.val 12 (put a.val 16 (put b.val 20 0x01000017)))
  | .pxor g d a b => putGuard g (put d.val 12 (put a.val 16 (put b.val 20 0x02000017)))
  | .pandn g d a b => putGuard g (put d.val 12 (put a.val 16 (put b.val 20 0x03000017)))
  | .pget g d => putGuard g (put d.val 12 0x04000017)
  | .pput g a => putGuard g (put a.val 16 0x05000017)
  | .sel g d a b c => putGuard g (put d.val 12 (put a.val 16 (put b.val 20 (put c.val 24 0x00000019))))
  | .lea g d a b h => putGuard g (put d.val 12 (put a.val 16 (put b.val 20 (put h.val 24 0x10000019))))
  | .padd g d a b => putGuard g (put d.val 12 (put a.val 16 (put b.val 20 0x20000019)))
  | .adds g t d a b => putGuard g (put t.code 29 (put d.val 12 (put a.val 16 (put b.val 20 0x0000001B))))
  | .subs g t d a b => putGuard g (put t.code 29 (put d.val 12 (put a.val 16 (put b.val 20 0x0100001B))))
  | .addsu g t d a b => putGuard g (put t.code 29 (put d.val 12 (put a.val 16 (put b.val 20 0x0200001B))))
  | .subsu g t d a b => putGuard g (put t.code 29 (put d.val 12 (put a.val 16 (put b.val 20 0x0300001B))))
  | .avgu g t d a b => putGuard g (put t.code 29 (put d.val 12 (put a.val 16 (put b.val 20 0x0400001B))))
  | .absd g t d a b => putGuard g (put t.code 29 (put d.val 12 (put a.val 16 (put b.val 20 0x0500001B))))
  | .neg g t d a => putGuard g (put t.code 29 (put d.val 12 (put a.val 16 0x0600001B)))
  | .abs g t d a => putGuard g (put t.code 29 (put d.val 12 (put a.val 16 0x0700001B)))
  | .vshuf g t d a b => putGuard g (put t.code 29 (put d.val 12 (put a.val 16 (put b.val 20 0x0000001D))))
  | .vpack g t d a b => putGuard g (put t.code 29 (put d.val 12 (put a.val 16 (put b.val 20 0x0100001D))))
  | .vunpkl g t d a => putGuard g (put t.code 29 (put d.val 12 (put a.val 16 0x0200001D)))
  | .vunpkh g t d a => putGuard g (put t.code 29 (put d.val 12 (put a.val 16 0x0300001D)))
  | .vbcast g t d a => putGuard g (put t.code 29 (put d.val 12 (put a.val 16 0x0400001D)))
  | .vdot g t d a b => putGuard g (put t.code 29 (put d.val 12 (put a.val 16 (put b.val 20 0x0500001D))))
  | .vrsum g t d a => putGuard g (put t.code 29 (put d.val 12 (put a.val 16 0x0600001D)))
  | .vcmp g t c d a b => putGuard g (put t.code 29 (put c.code 24 (put d.val 12 (put a.val 16 (put b.val 20 0x0000001F)))))
  | .vsel g t d a b => putGuard g (put t.code 29 (put d.val 12 (put a.val 16 (put b.val 20 0x1000001F))))
  | .vmsk g t d a => putGuard g (put t.code 29 (put d.val 12 (put a.val 16 0x1100001F)))
  | .fadd g t r d a b => putGuard g (put t.code 29 (put r.code 27 (put d.val 12 (put a.val 16 (put b.val 20 0x00000021)))))
  | .fsub g t r d a b => putGuard g (put t.code 29 (put r.code 27 (put d.val 12 (put a.val 16 (put b.val 20 0x01000021)))))
  | .fmul g t r d a b => putGuard g (put t.code 29 (put r.code 27 (put d.val 12 (put a.val 16 (put b.val 20 0x02000021)))))
  | .fma g t r d a b => putGuard g (put t.code 29 (put r.code 27 (put d.val 12 (put a.val 16 (put b.val 20 0x03000021)))))
  | .fms g t r d a b => putGuard g (put t.code 29 (put r.code 27 (put d.val 12 (put a.val 16 (put b.val 20 0x04000021)))))
  | .fnma g t r d a b => putGuard g (put t.code 29 (put r.code 27 (put d.val 12 (put a.val 16 (put b.val 20 0x05000021)))))
  | .fmin g t d a b => putGuard g (put t.code 29 (put d.val 12 (put a.val 16 (put b.val 20 0x06000021))))
  | .fmax g t d a b => putGuard g (put t.code 29 (put d.val 12 (put a.val 16 (put b.val 20 0x0E000021))))
  | .fabs g t d a => putGuard g (put t.code 29 (put d.val 12 (put a.val 16 0x07000021)))
  | .fneg g t d a => putGuard g (put t.code 29 (put d.val 12 (put a.val 16 0x0F000021)))
  | .fsgnj g t d a b => putGuard g (put t.code 29 (put d.val 12 (put a.val 16 (put b.val 20 0x17000021))))
  | .fdiv g t r d a b => putGuard g (put t.code 29 (put r.code 27 (put d.val 12 (put a.val 16 (put b.val 20 0x00000023)))))
  | .fsqrt g t r d a => putGuard g (put t.code 29 (put r.code 27 (put d.val 12 (put a.val 16 0x01000023))))
  | .frcpe g t d a => putGuard g (put t.code 29 (put d.val 12 (put a.val 16 0x02000023)))
  | .frsqe g t d a => putGuard g (put t.code 29 (put d.val 12 (put a.val 16 0x03000023)))
  | .fcmp g t c p a b => putGuard g (put t.code 27 (put c.code 24 (put p.val 12 (put a.val 16 (put b.val 20 0x00000025)))))
  | .fclass g t d a => putGuard g (put t.code 27 (put d.val 12 (put a.val 16 0x40000025)))
  | .icvtf g t r u e d a => putGuard g (put t.code 27 (put r.code 25 (put (b2n u) 23 (put e.code 20 (put d.val 12 (put a.val 16 0x41000025))))))
  | .fcvt g t r sr e d a => putGuard g (put t.code 27 (put r.code 25 (put (b2n sr) 24 (put e.code 20 (put d.val 12 (put a.val 16 0x80000025))))))
  | .fcvti g t r u e d a => putGuard g (put t.code 27 (put r.code 25 (put (b2n u) 24 (put e.code 20 (put d.val 12 (put a.val 16 0xC0000025))))))
  | .br g off => putGuard g (put off.toNat 12 0x00000029)
  | .call g d off => putGuard g (put d.val 12 (put off.toNat 16 0x0000002B))
  | .jmp g a => putGuard g (put a.val 16 0x0000002D)
  | .jal g d a => putGuard g (put d.val 12 (put a.val 16 0x0100002D))
  | .ret g a => putGuard g (put a.val 16 0x0200002D)
  | .brx g a b => putGuard g (put a.val 16 (put b.val 20 0x0300002D))
  | .dbnz g d off => putGuard g (put d.val 12 (put off.toNat 16 0x0000002F))
  | .ld g z x d a i => putGuard g (put z.code 20 (put (b2n x) 23 (put d.val 12 (put a.val 16 (put i.toNat 24 0x00000031)))))
  | .st g z d a i => putGuard g (put z.code 20 (put d.val 12 (put a.val 16 (put i.toNat 24 0x00000033))))
  | .ldOrd z o sc d a => put z.code 24 (put o.code 10 (put sc.code 7 (put d.val 12 (put a.val 16 0x00000035))))
  | .ldOrdSigned z o sc d a => put z.code 24 (put o.code 10 (put sc.code 7 (put d.val 12 (put a.val 16 0x08000035))))
  | .stOrd z o sc a b => put z.code 24 (put o.code 10 (put sc.code 7 (put a.val 16 (put b.val 20 0x10000035))))
  | .ldt f t r d a b => put f.code 24 (put t.code 28 (put r.code 9 (put d.val 12 (put a.val 16 (put b.val 20 0x00000037)))))
  | .stt f t r sr d a b => put f.code 24 (put t.code 28 (put r.code 9 (put (b2n sr) 11 (put d.val 12 (put a.val 16 (put b.val 20 0x80000037))))))
  | .amoAdd y o sc d a b => put y.code 24 (put o.code 10 (put sc.code 7 (put d.val 12 (put a.val 16 (put b.val 20 0x00000039)))))
  | .amoAnd y o sc d a b => put y.code 24 (put o.code 10 (put sc.code 7 (put d.val 12 (put a.val 16 (put b.val 20 0x08000039)))))
  | .amoOr y o sc d a b => put y.code 24 (put o.code 10 (put sc.code 7 (put d.val 12 (put a.val 16 (put b.val 20 0x10000039)))))
  | .amoXor y o sc d a b => put y.code 24 (put o.code 10 (put sc.code 7 (put d.val 12 (put a.val 16 (put b.val 20 0x18000039)))))
  | .amoMin y o sc d a b => put y.code 24 (put o.code 10 (put sc.code 7 (put d.val 12 (put a.val 16 (put b.val 20 0x20000039)))))
  | .amoMax y o sc d a b => put y.code 24 (put o.code 10 (put sc.code 7 (put d.val 12 (put a.val 16 (put b.val 20 0x28000039)))))
  | .amoMinu y o sc d a b => put y.code 24 (put o.code 10 (put sc.code 7 (put d.val 12 (put a.val 16 (put b.val 20 0x30000039)))))
  | .amoMaxu y o sc d a b => put y.code 24 (put o.code 10 (put sc.code 7 (put d.val 12 (put a.val 16 (put b.val 20 0x38000039)))))
  | .amoSwap y o sc d a b => put y.code 24 (put o.code 10 (put sc.code 7 (put d.val 12 (put a.val 16 (put b.val 20 0x40000039)))))
  | .amoCas y o sc d a b => put y.code 24 (put o.code 10 (put sc.code 7 (put d.val 12 (put a.val 16 (put b.val 20 0x48000039)))))
  | .amoCas128 o sc d a b => put o.code 10 (put sc.code 7 (put d.val 12 (put a.val 16 (put b.val 20 0x57000039))))
  | .amoFadd y o sc d a b => put y.code 24 (put o.code 10 (put sc.code 7 (put d.val 12 (put a.val 16 (put b.val 20 0x58000039)))))
  | .amoFmin y o sc d a b => put y.code 24 (put o.code 10 (put sc.code 7 (put d.val 12 (put a.val 16 (put b.val 20 0x60000039)))))
  | .amoFmax y o sc d a b => put y.code 24 (put o.code 10 (put sc.code 7 (put d.val 12 (put a.val 16 (put b.val 20 0x68000039)))))
  | .redAdd y o sc a b => put y.code 24 (put o.code 10 (put sc.code 7 (put a.val 16 (put b.val 20 0x0000003B))))
  | .redAnd y o sc a b => put y.code 24 (put o.code 10 (put sc.code 7 (put a.val 16 (put b.val 20 0x0800003B))))
  | .redOr y o sc a b => put y.code 24 (put o.code 10 (put sc.code 7 (put a.val 16 (put b.val 20 0x1000003B))))
  | .redXor y o sc a b => put y.code 24 (put o.code 10 (put sc.code 7 (put a.val 16 (put b.val 20 0x1800003B))))
  | .redMin y o sc a b => put y.code 24 (put o.code 10 (put sc.code 7 (put a.val 16 (put b.val 20 0x2000003B))))
  | .redMax y o sc a b => put y.code 24 (put o.code 10 (put sc.code 7 (put a.val 16 (put b.val 20 0x2800003B))))
  | .redMinu y o sc a b => put y.code 24 (put o.code 10 (put sc.code 7 (put a.val 16 (put b.val 20 0x3000003B))))
  | .redMaxu y o sc a b => put y.code 24 (put o.code 10 (put sc.code 7 (put a.val 16 (put b.val 20 0x3800003B))))
  | .redFadd y o sc a b => put y.code 24 (put o.code 10 (put sc.code 7 (put a.val 16 (put b.val 20 0x5800003B))))
  | .redFmin y o sc a b => put y.code 24 (put o.code 10 (put sc.code 7 (put a.val 16 (put b.val 20 0x6000003B))))
  | .redFmax y o sc a b => put y.code 24 (put o.code 10 (put sc.code 7 (put a.val 16 (put b.val 20 0x6800003B))))
  | .ldrW d a => put d.val 12 (put a.val 16 0x0000003D)
  | .stc a b => put a.val 16 (put b.val 20 0x0800003D)
  | .rcancel a => put a.val 16 0x1000003D
  | .fence o sc => put o.code 10 (put sc.code 7 0x0000003F)
  | .drainTs => 0x0800003F
  | .drainGm => 0x1000003F
  | .drainMx => 0x1800003F
  | .cln sc a => put sc.code 7 (put a.val 16 0x2000003F)
  | .cinv a => put a.val 16 0x2800003F
  | .iinv a => put a.val 16 0x3000003F
  | .pref a => put a.val 16 0x3800003F
  | .yield g => putGuard g 0x00000041
  | .park g => putGuard g 0x10000041
  | .wake g a => putGuard g (put a.val 16 0x20000041)
  | .exit g => putGuard g 0x30000041
  | .migr g a => putGuard g (put a.val 16 0x40000041)
  | .mfs g n d => putGuard g (put n.toNat 16 (put d.val 12 0x50000041))
  | .mts g n d => putGuard g (put n.toNat 16 (put d.val 12 0x60000041))
  | .widF g k d => putGuard g (put k.val 16 (put d.val 12 0x70000041))
  | .fork g off => putGuard g (put off.toNat 12 0x00000043)
  | .sync g => putGuard g 0x10000043
  | .gang g a => putGuard g (put a.val 16 0x20000043)
  | .launch g a => putGuard g (put a.val 16 0x00000045)
  | .trig g => putGuard g 0x10000045
  | .grun g a b => putGuard g (put a.val 16 (put b.val 20 0x20000045))
  | .send g l a b => putGuard g (put l.val 24 (put a.val 16 (put b.val 20 0x00000047)))
  | .qpush g a b => putGuard g (put a.val 16 (put b.val 20 0x10000047))
  | .qpop g a d => putGuard g (put a.val 16 (put d.val 12 0x20000047))
  | .qstat g a d => putGuard g (put a.val 16 (put d.val 12 0x30000047))
  | .wenq sc h a b => put sc.code 25 (put h.val 7 (put a.val 17 (put b.val 21 0x40000047)))
  | .barInit g j a => putGuard g (put j.val 22 (put a.val 16 0x00000049))
  | .barArv g j => putGuard g (put j.val 22 0x10000049)
  | .barArvb g j a => putGuard g (put j.val 22 (put a.val 16 0x20000049))
  | .barExp g j a => putGuard g (put j.val 22 (put a.val 16 0x30000049))
  | .barWait g j a => putGuard g (put j.val 22 (put a.val 16 0x40000049))
  | .barAw g j => putGuard g (put j.val 22 0x50000049)
  | .barTest g j d => putGuard g (put j.val 22 (put d.val 12 0x60000049))
  | .barInv g j => putGuard g (put j.val 22 0x70000049)
  | .dbar g j => putGuard g (put j.val 22 0x80000049)
  | .apnd g d a b => putGuard g (put d.val 12 (put a.val 16 (put b.val 20 0x0000004B)))
  | .apndh g h d a => putGuard g (put h.val 22 (put d.val 12 (put a.val 16 0x1000004B)))
  | .ldtail g d a => putGuard g (put d.val 12 (put a.val 16 0x2000004B))
  | .seal g a => putGuard g (put a.val 16 0x3000004B)
  | .xinv g a b => putGuard g (put a.val 16 (put b.val 20 0x4000004B))
  | .rcommit g st a b => putGuard g (put st.val 24 (put a.val 16 (put b.val 20 0x0000004D)))
  | .rmark g st d => putGuard g (put st.val 24 (put d.val 12 0x1000004D))
  | .trap g i => putGuard g (put i.toNat 16 0x0000004F)
  | .ebrk g => putGuard g 0x1000004F
  | .resume g m a b => putGuard g (put m.code 24 (put a.val 16 (put b.val 20 0x2000004F)))
  | .halt g => putGuard g 0x3000004F
  | .trc g i => putGuard g (put i.toNat 16 0x4000004F)
  | .hdef h a => put h.val 7 (put a.val 17 0x00000051)
  | .hinfo h d => put h.val 7 (put d.val 13 0x10000051)
  | .hseal h => put h.val 7 0x20000051
  | .hopen h => put h.val 7 0x30000051
  | .hmap h a => put h.val 7 (put a.val 17 0x40000051)
  | .hunmap h => put h.val 7 0x50000051
  | .ldh h d a => put h.val 7 (put d.val 13 (put a.val 17 0x60000051))
  | .sth h a b => put h.val 7 (put a.val 17 (put b.val 21 0x70000051))
  | .cpyG2t sc h a b => put sc.code 25 (put h.val 7 (put a.val 17 (put b.val 21 0x00000053)))
  | .cpyT2g sc h a b => put sc.code 25 (put h.val 7 (put a.val 17 (put b.val 21 0x10000053)))
  | .cpyT2t sc h ha b => put sc.code 25 (put h.val 7 (put ha.val 13 (put b.val 21 0x20000053)))
  | .cpyG2g sc d a b => put sc.code 25 (put d.val 13 (put a.val 17 (put b.val 21 0x30000053)))
  | .cpyG2q sc q a b => put sc.code 25 (put q.val 7 (put a.val 17 (put b.val 21 0x40000053)))
  | .cpyGat sc h a b => put sc.code 25 (put h.val 7 (put a.val 17 (put b.val 21 0x50000053)))
  | .cpySca sc h a b => put sc.code 25 (put h.val 7 (put a.val 17 (put b.val 21 0x60000053)))
  | .tvAdd r hd ha hb => put r.code 25 (put hd.val 7 (put ha.val 13 (put hb.val 19 0x00000055)))
  | .tvSub r hd ha hb => put r.code 25 (put hd.val 7 (put ha.val 13 (put hb.val 19 0x10000055)))
  | .tvMul r hd ha hb => put r.code 25 (put hd.val 7 (put ha.val 13 (put hb.val 19 0x20000055)))
  | .tvFma r hd ha hb => put r.code 25 (put hd.val 7 (put ha.val 13 (put hb.val 19 0x30000055)))
  | .tvMin r hd ha hb => put r.code 25 (put hd.val 7 (put ha.val 13 (put hb.val 19 0x40000055)))
  | .tvMax r hd ha hb => put r.code 25 (put hd.val 7 (put ha.val 13 (put hb.val 19 0x50000055)))
  | .tvAbs hd ha => put hd.val 7 (put ha.val 13 0x60000055)
  | .tvExp2 hd ha => put hd.val 7 (put ha.val 13 0x70000055)
  | .tvRcp hd ha => put hd.val 7 (put ha.val 13 0x80000055)
  | .tvCvt r sr hd ha => put r.code 25 (put (b2n sr) 27 (put hd.val 7 (put ha.val 13 0x00000057)))
  | .tvRed ro all hd ha => put ro.code 25 (put (b2n all) 27 (put hd.val 7 (put ha.val 13 0x10000057)))
  | .tvBcast hd ha => put hd.val 7 (put ha.val 13 0x20000057)
  | .tvTrans hd ha => put hd.val 7 (put ha.val 13 0x30000057)
  | .tvSel hd ha hb => put hd.val 7 (put ha.val 13 (put hb.val 19 0x40000057))
  | .tvScale hd ha hb => put hd.val 7 (put ha.val 13 (put hb.val 19 0x50000057))
  | .mcfg m a => put m.val 25 (put a.val 9 0x00000059)
  | .mloadb m ha => put m.val 25 (put ha.val 19 0x10000059)
  | .mmac m ha hd a => put m.val 25 (put ha.val 19 (put hd.val 13 (put a.val 9 0x20000059)))
  | .mmacs m ha hd a => put m.val 25 (put ha.val 19 (put hd.val 13 (put a.val 9 0x30000059)))
  | .mepi m ha hd a => put m.val 25 (put ha.val 19 (put hd.val 13 (put a.val 9 0x40000059)))
  | .ctswap t => put t.val 25 0x50000059
  | .msemWait g n => putGuard g (put n.val 24 0x0000005B)
  | .msemPost g n => putGuard g (put n.val 24 0x1000005B)
  | .mdrain g => putGuard g 0x2000005B
  | .lineBind _ _ => 0
  | .rotation _ _ => 0
  | .priorityAging _ => 0
  | .contextFill _ => 0
  | .lineForward _ => 0
  | .loadReply _ => 0
  | .sRegisterReply _ => 0
  | .longOperationCompletion _ => 0
  | .writeAcknowledgement _ => 0
  | .durableAcknowledgement _ => 0
  | .faultAnswer _ => 0
  | .heldRelease _ _ => 0
  | .waitDeadline _ => 0
  | .wakeApply _ => 0
  | .resumeApply _ => 0
  | .migrateMove _ => 0
  | .translate _ => 0
  | .pageWalk _ => 0
  | .homeAccess _ => 0
  | .visitorInvalidate _ => 0
  | .ownershipRequest _ => 0
  | .ownerRecall _ _ => 0
  | .stashFill _ => 0
  | .stashRecall _ _ => 0
  | .reservationEnqueue _ => 0
  | .reservationGrant _ => 0
  | .conditionalStore _ => 0
  | .reservationTimeout _ => 0
  | .wenqAccept _ => 0
  | .wenqPush _ => 0
  | .sendDelivery _ => 0
  | .faultMessage _ => 0
  | .mismatchThreshold _ => 0
  | .copyAccept _ => 0
  | .copyStart _ => 0
  | .multicastDelivery _ => 0
  | .copyComplete _ _ => 0
  | .copyError _ _ => 0
  | .byteArrival _ => 0
  | .tvStart _ => 0
  | .tvComplete _ => 0
  | .matrixAccept _ => 0
  | .matrixOpStart _ => 0
  | .mloadbExecute _ => 0
  | .maskPop _ => 0
  | .matrixPass _ => 0
  | .passCheck _ _ => 0
  | .epilogueRow _ => 0
  | .matrixComplete _ => 0
  | .engineSemaphorePost _ => 0
  | .semaphoreGrant _ => 0
  | .tableSwap _ _ => 0
  | .barrierCompletion _ => 0
  | .notification _ => 0
  | .groupTableRead _ => 0
  | .launchAccept _ => 0
  | .placeKernel _ => 0
  | .seedContext _ _ => 0
  | .reservationPriority _ => 0
  | .gangPlace _ => 0
  | .gangGrant _ => 0
  | .gangWithdraw _ => 0
  | .triggerEvent _ => 0
  | .triggerMessage _ _ _ => 0
  | .doneMessage _ _ _ => 0
  | .grunApply _ => 0
  | .graphReplay _ => 0
  | .continuationPop _ _ => 0
  | .resumeRecordPop _ _ => 0
  | .recordSteal _ => 0
  | .recordAging _ _ => 0
  | .forkAllocate _ => 0
  | .syncTest _ => 0
  | .joinCompletion _ => 0
  | .appendArrival _ => 0
  | .tailPublish _ => 0
  | .sealArrival _ => 0
  | .sealComplete _ => 0
  | .replicaMake _ => 0
  | .reclaim _ => 0
  | .reclaimComplete _ => 0
  | .xinvInvalidate _ => 0
  | .xinvAck _ => 0
  | .commitRecord _ => 0
  | .mirrorRetry _ => 0
  | .rcpWrite _ => 0
  | .srseedWrite _ _ => 0
  | .ctblWrite _ => 0
  | .tswWrite _ _ => 0
  | .trcctlWrite _ _ => 0
  | .gswtWrite _ _ => 0
  | .gangSwitch _ => 0
  | .reinjectRound _ => 0
  | .machineCheck _ _ _ _ _ _ => 0
  | .contain _ => 0
  | .containmentComplete _ => 0
  | .dieReset _ _ => 0
  | .stackLoss _ => 0
  | .powerLoss => 0
  | .thermalLimit _ _ => 0
  | .powerGrantStep _ => 0
  | .flitReceive _ _ _ _ => 0
  | .replayRequest _ _ => 0
  | .linkAck _ _ => 0
  | .replayTimeout _ => 0
  | .linkRetrain _ => 0
  | .linkEnable _ => 0
  | .trainingComplete _ => 0
  | .trainingTimeout _ => 0
  | .laneDegrade _ _ => 0
  | .linkDisable _ => 0
  | .injctlWrite _ _ => 0
  | .injectorFire _ => 0
  | .hostMemAccess _ _ _ => 0
  | .bar2Access _ _ _ => 0
  | .snpInv _ => 0
  | .snpData _ => 0
  | .snpCur _ => 0
  | .hostResponse _ _ _ => 0
  | .birsp _ _ => 0
  | .biasFlipHost _ => 0
  | .biasFlipDevice _ => 0
  | .flipComplete _ => 0
  | .interruptCauseWrite _ _ => 0
  | .ringDoorbell _ _ _ => 0
  | .ringConsume _ _ => 0
  | .ringReset _ _ _ => 0
  | .peerPacket _ _ _ => 0
  | .registerWrite _ _ _ _ => 0
  | .merge _ => 0
  | .split _ => 0
  | .endKernel _ => 0
  | .loadPatchImage _ => 0
  | .restartCore _ _ => 0
  | .retireCore _ => 0
  | .attest _ => 0
  | .updateFirmware _ => 0
  | .linkState _ => 0
  | .objectSelect _ => 0
  | .powerUp _ => 0
  | .probe _ _ _ => 0
  | .present _ => 0
  | .done _ => 0
  | .mapInstall _ => 0
  | .imageStream _ => 0
  | .imageReceive _ => 0
  | .sourceReadComplete _ _ => 0
  | .notificationNetReply _ => 0
  | .hostCompletionTimeout _ => 0
  | .laneTrainingFailure _ _ => 0

end Sys2Proof
end

