-- ==== Sys2Proof/Machine/Flags.lean ====
section
/-! DEFINITION. The sticky flags of R86 and the condition tests of R33. -/

namespace Sys2Proof.Machine

/-- The sticky flags NV, DZ, OF, UF and NX (R86). -/
structure Flags where
  nv : Bool
  dz : Bool
  of : Bool
  uf : Bool
  nx : Bool
  deriving DecidableEq, Repr

/-- No flag raised. -/
def Flags.none : Flags := ⟨false, false, false, false, false⟩
/-- NV alone. -/
def Flags.invalid : Flags := ⟨true, false, false, false, false⟩
/-- DZ alone. -/
def Flags.divZero : Flags := ⟨false, true, false, false, false⟩
/-- OF and NX. -/
def Flags.overflow : Flags := ⟨false, false, true, false, true⟩
/-- NX alone. -/
def Flags.inexact : Flags := ⟨false, false, false, false, true⟩

/-- The union of two sets of flags. -/
def Flags.or (a b : Flags) : Flags :=
  ⟨a.nv || b.nv, a.dz || b.dz, a.of || b.of, a.uf || b.uf, a.nx || b.nx⟩

/-- The union of a list of sets of flags. -/
def Flags.all (l : List Flags) : Flags := l.foldl Flags.or Flags.none

/-- The flags as PW[20:16] holds them: NV [20], DZ [19], OF [18], UF [17], NX [16] (R86). -/
def Flags.bits (f : Flags) : BitVec 32 :=
  BitVec.ofNat 32 (b2n f.nv * 2 ^ 20 + b2n f.dz * 2 ^ 19 + b2n f.of * 2 ^ 18 + b2n f.uf * 2 ^ 17 + b2n f.nx * 2 ^ 16)

/-- NV when an operand is a signalling NaN (R84). -/
def Flags.nvIf (b : Bool) : Flags := if b then Flags.invalid else Flags.none

/-- A lane of `w` bits read as two's complement (R105). -/
def signed (w n : Nat) : Int := if n < 2 ^ (w - 1) then (n : Int) else (n : Int) - 2 ^ w

/-- An integer reduced to `w` bits (R10). -/
def wrap (w : Nat) (z : Int) : Nat := (z % 2 ^ w).toNat

/-- The integer tests of R33 on two lanes of `w` bits; `un` and `ord` are no integer condition. -/
def testInt (c : Cond) (w x y : Nat) : Bool :=
  match c with
  | .eq => x == y
  | .ne => x != y
  | .lt => decide (signed w x < signed w y)
  | .ge => decide (signed w y ≤ signed w x)
  | .ltu => decide (x < y)
  | .geu => decide (y ≤ x)
  | .le => decide (signed w x ≤ signed w y)
  | .gt => decide (signed w y < signed w x)
  | .leu => decide (x ≤ y)
  | .gtu => decide (y < x)
  | .tst => (x &&& y) != 0
  | .ntst => (x &&& y) == 0
  | .un | .ord => false

end Sys2Proof.Machine
end

