-- ==== Sys2Proof/Machine/Numbers.lean ====
section
/-! DEFINITION. The floating-point formats and the rounding rules of R83–R91, the estimates of R124 and the
four-bit block formats of R92, R93 and R96, all on exact values. -/

namespace Sys2Proof.Machine

/-! ## Exact values -/

/-- A binary floating-point format (R83): exponent bits, fraction bits, and whether it has infinities. -/
structure Fmt where
  eb : Nat
  fb : Nat
  hasInf : Bool
  deriving DecidableEq, Repr

/-- FP64 (R83). -/
def fmtF64 : Fmt := ⟨11, 52, true⟩
/-- FP32 (R83). -/
def fmtF32 : Fmt := ⟨8, 23, true⟩
/-- FP16 (R83). -/
def fmtF16 : Fmt := ⟨5, 10, true⟩
/-- BF16 (R83). -/
def fmtBF16 : Fmt := ⟨8, 7, true⟩
/-- FP8 E5M2 (R83). -/
def fmtE5M2 : Fmt := ⟨5, 2, true⟩
/-- FP8 E4M3 (R83). -/
def fmtE4M3 : Fmt := ⟨4, 3, false⟩

/-- The format of a floating-point lane type (R30); integer lane types do not reach it. -/
def fmtOf (t : LaneType) : Fmt :=
  match t with
  | .f64 => fmtF64
  | .f32 => fmtF32
  | .bf16 => fmtBF16
  | .f16 => fmtF16
  | .i64 | .i32 | .i16 | .i8 => fmtF64

/-- An exact real (−1)^neg × man × 2^exp; `sticky` says that the magnitude lies strictly between man and man + 1
units of 2^exp. -/
structure Dyad where
  neg : Bool
  man : Nat
  exp : Int
  sticky : Bool
  deriving DecidableEq, Repr

/-- The value of a floating-point code: a NaN, quiet or signalling, an infinity, or an exact real. -/
inductive FVal where
  | nan (signalling : Bool)
  | inf (neg : Bool)
  | fin (d : Dyad)
  deriving DecidableEq, Repr

/-- The bias (R83). -/
def Fmt.bias (f : Fmt) : Nat := 2 ^ (f.eb - 1) - 1
/-- The width in bits. -/
def Fmt.width (f : Fmt) : Nat := 1 + f.eb + f.fb
/-- The exponent of the smallest subnormal: 1 − bias − fraction bits. -/
def Fmt.qmin (f : Fmt) : Int := 1 - (f.bias : Int) - (f.fb : Int)
/-- The sign bit in place. -/
def Fmt.signBit (f : Fmt) (neg : Bool) : Nat := if neg then 2 ^ (f.eb + f.fb) else 0
/-- The code of the largest finite value: 0x7E for E4M3 (R83). -/
def Fmt.maxCode (f : Fmt) : Nat := if f.hasInf then (2 ^ f.eb - 1) * 2 ^ f.fb - 1 else 2 ^ (f.eb + f.fb) - 2
/-- The canonical NaN (R83, R84). -/
def Fmt.nanCode (f : Fmt) : Nat :=
  if f.hasInf then (2 ^ f.eb - 1) * 2 ^ f.fb + 2 ^ (f.fb - 1) else 2 ^ (f.eb + f.fb) - 1
/-- Infinity; in E4M3, which has none, the NaN code of that sign (R90). -/
def Fmt.infCode (f : Fmt) (neg : Bool) : Nat :=
  f.signBit neg + (if f.hasInf then (2 ^ f.eb - 1) * 2 ^ f.fb else 2 ^ (f.eb + f.fb) - 1)

/-- The exact value zero with a sign. -/
def Dyad.zero (neg : Bool) : Dyad := ⟨neg, 0, 0, false⟩
/-- Whether an exact value is zero. -/
def Dyad.isZero (d : Dyad) : Bool := d.man == 0 && !d.sticky
/-- The exact value of an integer. -/
def Dyad.ofInt (z : Int) : Dyad := ⟨decide (z < 0), z.natAbs, 0, false⟩

/-- The value of a code (R83). -/
def Fmt.value (f : Fmt) (code : Nat) : FVal :=
  let neg := code / 2 ^ (f.eb + f.fb) % 2 == 1
  let e := code / 2 ^ f.fb % 2 ^ f.eb
  let m := code % 2 ^ f.fb
  if e == 2 ^ f.eb - 1 && f.hasInf then
    if m == 0 then .inf neg else .nan (m < 2 ^ (f.fb - 1))
  else if e == 2 ^ f.eb - 1 && m == 2 ^ f.fb - 1 && !f.hasInf then .nan false
  else if e == 0 then .fin ⟨neg, m, f.qmin, false⟩
  else .fin ⟨neg, m + 2 ^ f.fb, f.qmin + (e : Int) - 1, false⟩

/-- Whether a value is a NaN. -/
def FVal.isNan (v : FVal) : Bool :=
  match v with
  | .nan _ => true
  | .inf _ | .fin _ => false
/-- Whether a value is a signalling NaN. -/
def FVal.isSnan (v : FVal) : Bool :=
  match v with
  | .nan s => s
  | .inf _ | .fin _ => false
/-- Whether a value is a zero. -/
def FVal.isZero (v : FVal) : Bool :=
  match v with
  | .fin d => d.isZero
  | .inf _ | .nan _ => false

/-- The number of bits of a magnitude. -/
def bitLen (n : Nat) : Nat := if n = 0 then 0 else Nat.log2 n + 1

/-- Whether rounding goes away from zero (R85): `m` is the truncated magnitude, `rem`/`unit` the discarded part. -/
def roundUp (rm : Round) (neg sticky : Bool) (m rem unit : Nat) : Bool :=
  match rm with
  | .rne => decide (unit < 2 * rem) || (2 * rem == unit && (sticky || m % 2 == 1))
  | .rtz => false
  | .rup => !neg && (rem != 0 || sticky)
  | .rdn => neg && (rem != 0 || sticky)

/-- The magnitude of `d` in units of 2^q, truncated; the discarded remainder and its unit. -/
def Dyad.cut (d : Dyad) (q : Int) : Nat × Nat × Nat :=
  if q ≤ d.exp then (d.man * 2 ^ (d.exp - q).toNat, 0, 1)
  else
    let unit := 2 ^ (q - d.exp).toNat
    (d.man / unit, d.man % unit, unit)

/-- The magnitude of `d` rounded to units of 2^q, and whether that is inexact. -/
def Dyad.roundAt (d : Dyad) (rm : Round) (q : Int) : Nat × Bool :=
  let (m, rem, unit) := d.cut q
  (if roundUp rm d.neg d.sticky m rem unit then m + 1 else m, rem != 0 || d.sticky)

/-- The grid exponent of `d` at `prec` significant bits and an unbounded exponent. -/
def Dyad.grid (d : Dyad) (prec : Nat) : Int := d.exp + (bitLen d.man : Int) - (prec : Int)

/-- The code of the magnitude m × 2^q, for q ≥ qmin and m ≤ 2^(fb+1): the exponent field follows by carry. -/
def Fmt.codeAt (f : Fmt) (m : Nat) (q : Int) : Nat := m + (q - f.qmin).toNat * 2 ^ f.fb

/-- Which value overflow delivers (R85): infinity or the largest finite value. -/
def overflowInf (rm : Round) (neg : Bool) : Bool :=
  match rm with
  | .rne => true
  | .rtz => false
  | .rup => !neg
  | .rdn => neg

/-- RoundToFormat: an exact value rounded to a format under a mode, with the flags of R86.  `satRne` is R90's rule for
conversion into FP8, where overflow under RNE delivers the largest finite value. -/
def Fmt.round (f : Fmt) (satRne : Bool) (rm : Round) (d : Dyad) : Nat × Flags :=
  if d.isZero then (f.signBit d.neg, Flags.none)
  else
    let q1 := d.grid (f.fb + 1)
    let q := max q1 f.qmin
    let (m, inexact) := d.roundAt rm q
    let (m1, _) := d.roundAt rm q1
    let code := f.codeAt m q
    if f.maxCode < code then
      let toInf := overflowInf rm d.neg && !(satRne && rm == .rne)
      ((if toInf then f.infCode d.neg else f.signBit d.neg + f.maxCode), Flags.overflow)
    else
      let tiny := decide (q1 < f.qmin) && !(q1 + 1 == f.qmin && m1 == 2 ^ (f.fb + 1))
      (f.signBit d.neg + code, ⟨false, false, false, tiny && inexact, inexact⟩)

/-- The code delivered for a value that needs no rounding of its own: NaN, infinity or an exact real (R84, R85).
DEDUCED, log entry 23. -/
def Fmt.deliver (f : Fmt) (rm : Round) (v : FVal) : Nat × Flags :=
  match v with
  | .nan s => (f.nanCode, Flags.nvIf s)
  | .inf neg => (f.infCode neg, Flags.none)
  | .fin d => f.round false rm d

/-! ## Exact arithmetic -/

/-- A signed magnitude in units of 2^q, for q not above the exponent. -/
def Dyad.units (d : Dyad) (q : Int) : Int :=
  let m : Int := (d.man * 2 ^ (d.exp - q).toNat : Nat)
  if d.neg then -m else m

/-- The exact sum; the sign of an exact zero follows R85. -/
def Dyad.add (rm : Round) (a b : Dyad) : Dyad :=
  let q := min a.exp b.exp
  let s := a.units q + b.units q
  if s = 0 then
    if a.isZero && b.isZero && a.neg == b.neg then Dyad.zero a.neg else Dyad.zero (rm == .rdn)
  else ⟨decide (s < 0), s.natAbs, q, false⟩

/-- The exact product. -/
def Dyad.mul (a b : Dyad) : Dyad := ⟨a.neg != b.neg, a.man * b.man, a.exp + b.exp, false⟩

/-- Guard bits of quotients and roots: more than any format's precision needs. -/
def guardBits : Nat := 80

/-- The quotient of two non-zero values, truncated with a sticky bit. -/
def Dyad.div (a b : Dyad) : Dyad :=
  let k := guardBits + bitLen b.man
  let n := a.man * 2 ^ k
  ⟨a.neg != b.neg, n / b.man, a.exp - b.exp - (k : Int), n % b.man != 0⟩

/-- The integer square root, by one bit of the root per step; `fuel` is at least half the bits of `n`. -/
def isqrt (fuel n : Nat) : Nat :=
  match fuel with
  | 0 => 0
  | fuel + 1 =>
    let r := 2 * isqrt fuel (n / 4)
    if (r + 1) * (r + 1) ≤ n then r + 1 else r

/-- The square root of a positive value, truncated with a sticky bit. -/
def Dyad.sqrt (a : Dyad) : Dyad :=
  let odd := a.exp % 2 != 0
  let m := if odd then 2 * a.man else a.man
  let e := if odd then a.exp - 1 else a.exp
  let n := m * 2 ^ (2 * guardBits)
  let r := isqrt (bitLen n / 2 + 1) n
  ⟨false, r, e / 2 - (guardBits : Int), r * r != n⟩

/-- The order of two exact values: less, equal or greater. -/
def Dyad.cmp (a b : Dyad) : Ordering :=
  let q := min a.exp b.exp
  compare (a.units q) (b.units q)

/-- The order of two values that are no NaN. -/
def FVal.cmp (a b : FVal) : Ordering :=
  match a, b with
  | .fin x, .fin y => x.cmp y
  | .inf n, .inf m => if n == m then .eq else if n then .lt else .gt
  | .inf n, .fin _ => if n then .lt else .gt
  | .fin _, .inf m => if m then .gt else .lt
  | .nan _, .nan _ | .nan _, .inf _ | .nan _, .fin _ | .inf _, .nan _ | .fin _, .nan _ => .eq

/-- The value with its sign inverted. -/
def FVal.neg (a : FVal) : FVal :=
  match a with
  | .nan s => .nan s
  | .inf n => .inf (!n)
  | .fin d => .fin { d with neg := !d.neg }

/-- The sum of two values with the flags of an invalid operation (R86); a NaN comes back quiet. -/
def FVal.add (rm : Round) (a b : FVal) : FVal × Flags :=
  match a, b with
  | .nan s, .nan t => (.nan false, Flags.nvIf (s || t))
  | .nan s, .inf _ | .nan s, .fin _ => (.nan false, Flags.nvIf s)
  | .inf _, .nan t | .fin _, .nan t => (.nan false, Flags.nvIf t)
  | .inf n, .inf m => if n == m then (.inf n, Flags.none) else (.nan false, Flags.invalid)
  | .inf n, .fin _ => (.inf n, Flags.none)
  | .fin _, .inf m => (.inf m, Flags.none)
  | .fin x, .fin y => (.fin (x.add rm y), Flags.none)

/-- The product of two values with the flags of an invalid operation (R86); a NaN comes back quiet. -/
def FVal.mul (a b : FVal) : FVal × Flags :=
  match a, b with
  | .nan s, .nan t => (.nan false, Flags.nvIf (s || t))
  | .nan s, .inf _ | .nan s, .fin _ => (.nan false, Flags.nvIf s)
  | .inf _, .nan t | .fin _, .nan t => (.nan false, Flags.nvIf t)
  | .inf n, .inf m => (.inf (n != m), Flags.none)
  | .inf n, .fin y => if y.isZero then (.nan false, Flags.invalid) else (.inf (n != y.neg), Flags.none)
  | .fin x, .inf m => if x.isZero then (.nan false, Flags.invalid) else (.inf (x.neg != m), Flags.none)
  | .fin x, .fin y => (.fin (x.mul y), Flags.none)

/-! ## The operations of R87, R123 and R124 on one lane -/

/-- `fadd` on codes of a format. -/
def fpAdd (f : Fmt) (rm : Round) (a b : Nat) : Nat × Flags :=
  let (v, e) := (f.value a).add rm (f.value b)
  let (c, g) := f.deliver rm v
  (c, e.or g)

/-- `fsub`. -/
def fpSub (f : Fmt) (rm : Round) (a b : Nat) : Nat × Flags :=
  let (v, e) := (f.value a).add rm (f.value b).neg
  let (c, g) := f.deliver rm v
  (c, e.or g)

/-- `fmul`. -/
def fpMul (f : Fmt) (rm : Round) (a b : Nat) : Nat × Flags :=
  let (v, e) := (f.value a).mul (f.value b)
  let (c, g) := f.deliver rm v
  (c, e.or g)

/-- The fused forms: ± a × b ± d, rounded once (R87, R123). -/
def fpFused (f : Fmt) (rm : Round) (negProduct negAddend : Bool) (a b d : Nat) : Nat × Flags :=
  let (p, e) := (f.value a).mul (f.value b)
  let p := if negProduct then p.neg else p
  let d := if negAddend then (f.value d).neg else f.value d
  let (v, e2) := p.add rm d
  let (c, g) := f.deliver rm v
  (c, (e.or e2).or g)

/-- minimumNumber (or, with `wantMax`, maximumNumber) with −0 below +0 (R87). -/
def fpMinMax (f : Fmt) (wantMax : Bool) (a b : Nat) : Nat × Flags :=
  let va := f.value a
  let vb := f.value b
  let fl := Flags.nvIf (va.isSnan || vb.isSnan)
  if va.isNan && vb.isNan then (f.nanCode, fl)
  else if va.isNan then (b, fl)
  else if vb.isNan then (a, fl)
  else
    let aNeg := decide (f.signBit true ≤ a)
    let lt := match va.cmp vb with
      | .lt => true
      | .gt => false
      | .eq => aNeg
    ((if lt != wantMax then a else b), fl)

/-- `fdiv` with the special cases of R86. -/
def fpDiv (f : Fmt) (rm : Round) (a b : Nat) : Nat × Flags :=
  match f.value a, f.value b with
  | .nan s, .nan t => (f.nanCode, Flags.nvIf (s || t))
  | .nan s, .inf _ | .nan s, .fin _ => (f.nanCode, Flags.nvIf s)
  | .inf _, .nan t | .fin _, .nan t => (f.nanCode, Flags.nvIf t)
  | .inf _, .inf _ => (f.nanCode, Flags.invalid)
  | .inf n, .fin y => (f.infCode (n != y.neg), Flags.none)
  | .fin x, .inf m => (f.signBit (x.neg != m), Flags.none)
  | .fin x, .fin y =>
    if y.isZero then
      if x.isZero then (f.nanCode, Flags.invalid) else (f.infCode (x.neg != y.neg), Flags.divZero)
    else if x.isZero then (f.signBit (x.neg != y.neg), Flags.none)
    else f.round false rm (x.div y)

/-- `fsqrt`; the root of −0 is −0 (R124). -/
def fpSqrt (f : Fmt) (rm : Round) (a : Nat) : Nat × Flags :=
  match f.value a with
  | .nan s => (f.nanCode, Flags.nvIf s)
  | .inf true => (f.nanCode, Flags.invalid)
  | .inf false => (f.infCode false, Flags.none)
  | .fin x =>
    if x.isZero then (f.signBit x.neg, Flags.none)
    else if x.neg then (f.nanCode, Flags.invalid)
    else f.round false rm x.sqrt

/-- The precision P of the estimates (R124). -/
def estimateBits (t : LaneType) : Nat :=
  match t with
  | .f64 | .f32 => 12
  | .f16 => 11
  | .bf16 => 8
  | .i64 | .i32 | .i16 | .i8 => 12

/-- An exact value rounded once, RNE, onto the P-bit values the format represents; no flag (R124). -/
def Fmt.estimate (f : Fmt) (p : Nat) (d : Dyad) : Nat :=
  let q := max (d.grid p) f.qmin
  let (m, _) := d.roundAt .rne q
  let r : Dyad := ⟨d.neg, m, q, false⟩
  (f.round false .rne r).1

/-- `frcpe` on one lane (R124). -/
def fpRcpe (t : LaneType) (a : Nat) : Nat × Flags :=
  let f := fmtOf t
  match f.value a with
  | .nan s => (f.nanCode, Flags.nvIf s)
  | .inf n => (f.signBit n, Flags.none)
  | .fin x =>
    if x.isZero then (f.infCode x.neg, Flags.divZero)
    else (f.estimate (estimateBits t) ((⟨false, 1, 0, false⟩ : Dyad).div x), Flags.none)

/-- `frsqe` on one lane (R124). -/
def fpRsqe (t : LaneType) (a : Nat) : Nat × Flags :=
  let f := fmtOf t
  match f.value a with
  | .nan s => (f.nanCode, Flags.nvIf s)
  | .inf true => (f.nanCode, Flags.invalid)
  | .inf false => (f.signBit false, Flags.none)
  | .fin x =>
    if x.isZero then (f.infCode x.neg, Flags.divZero)
    else if x.neg then (f.nanCode, Flags.invalid)
    else
      let odd := x.exp % 2 != 0
      let m := if odd then 2 * x.man else x.man
      let e := if odd then x.exp - 1 else x.exp
      let n := 2 ^ (2 * (guardBits + bitLen m)) / m
      let r := isqrt (bitLen n / 2 + 1) n
      (f.estimate (estimateBits t)
        ⟨false, r, -(e / 2) - ((guardBits + bitLen m : Nat) : Int), r * r * m != 2 ^ (2 * (guardBits + bitLen m))⟩, Flags.none)

/-- The comparison of two codes: result and flags; lt, le, gt and ge raise NV for any NaN (R126). -/
def fpTest (f : Fmt) (c : FCond) (a b : Nat) : Bool × Flags :=
  let va := f.value a
  let vb := f.value b
  let un := va.isNan || vb.isNan
  let quiet := Flags.nvIf (va.isSnan || vb.isSnan)
  let r := va.cmp vb
  match c with
  | .eq => (!un && r == .eq, quiet)
  | .ne => (un || r != .eq, quiet)
  | .lt => (!un && r == .lt, Flags.nvIf un)
  | .le => (!un && r != .gt, Flags.nvIf un)
  | .gt => (!un && r == .gt, Flags.nvIf un)
  | .ge => (!un && r != .lt, Flags.nvIf un)
  | .un => (un, quiet)
  | .ord => (!un, quiet)

/-- The condition of `fcmp` that `vcmp` on an FP lane type uses (R33, R122); integer-only conditions do not reach it. -/
def condToF (c : Cond) : FCond :=
  match c with
  | .eq => .eq
  | .ne => .ne
  | .lt => .lt
  | .ge => .ge
  | .le => .le
  | .gt => .gt
  | .un => .un
  | .ord => .ord
  | .ltu | .geu | .leu | .gtu | .tst | .ntst => .eq

/-- The class mask of one code (R127). -/
def fpClass (f : Fmt) (a : Nat) : Nat :=
  match f.value a with
  | .nan true => 2 ^ 8
  | .nan false => 2 ^ 9
  | .inf true => 2 ^ 0
  | .inf false => 2 ^ 7
  | .fin d =>
    let sub := decide (d.man < 2 ^ f.fb)
    if d.isZero then (if d.neg then 2 ^ 3 else 2 ^ 4)
    else if sub then (if d.neg then 2 ^ 2 else 2 ^ 5)
    else (if d.neg then 2 ^ 1 else 2 ^ 6)

/-! ## Conversions (R88–R91) -/

/-- The Galois step of the LFSR (R88). -/
def lfsrStep (l : BitVec 32) : BitVec 32 :=
  if l.getLsbD 0 then (l >>> 1) ^^^ 0x80200003#32 else l >>> 1

/-- Stochastic rounding of an exact non-zero value (R88): the 16-bit noise is LFSR[31:16].  Beyond the largest finite
value the delivery is that of RTZ (R88, R90).  DEDUCED, log entry 23. -/
def Fmt.roundSr (f : Fmt) (l : BitVec 32) (d : Dyad) : Nat × Flags :=
  if d.isZero then (f.signBit d.neg, Flags.none)
  else
    let noise := l.toNat / 2 ^ 16
    let at_ (q : Int) : Nat × Bool :=
      let (m, rem, unit) := d.cut q
      (if rem * 2 ^ 16 / unit + noise ≥ 2 ^ 16 then m + 1 else m, rem != 0 || d.sticky)
    let q1 := d.grid (f.fb + 1)
    let q := max q1 f.qmin
    let (m0, rem, _) := d.cut q
    let (m, inexact) := at_ q
    let (m1, _) := at_ q1
    let lo := f.codeAt m0 q
    if f.maxCode < lo || (lo == f.maxCode && (rem != 0 || d.sticky)) then
      (f.signBit d.neg + f.maxCode, Flags.overflow)
    else
      let tiny := decide (q1 < f.qmin) && !(q1 + 1 == f.qmin && m1 == 2 ^ (f.fb + 1))
      (f.signBit d.neg + f.codeAt m q, ⟨false, false, false, tiny && inexact, inexact⟩)

/-- A rounding choice: the field of R31, or stochastic with the LFSR value it uses (R88). -/
inductive Rounding where
  | field (rm : Round)
  | sr (l : BitVec 32)
  deriving DecidableEq, Repr

/-- A value converted into FP64, FP32, FP16 or BF16 (R91), or into FP8 with R90's overflow and special rules. -/
def Fmt.convert (f : Fmt) (fp8 : Bool) (r : Rounding) (v : FVal) : Nat × Flags :=
  match v with
  | .nan s => (f.nanCode, Flags.nvIf s)
  | .inf neg => if f.hasInf then (f.infCode neg, Flags.none) else (f.nanCode, Flags.invalid)
  | .fin d =>
    match r with
    | .field rm => f.round fp8 rm d
    | .sr l => f.roundSr l d

/-- Conversion to a signed or unsigned integer of `w` bits (R91, R129). -/
def fpToInt (unsig : Bool) (w : Nat) (rm : Round) (v : FVal) : Nat × Flags :=
  let lo : Int := if unsig then 0 else -(2 ^ (w - 1))
  let hi : Int := if unsig then 2 ^ w - 1 else 2 ^ (w - 1) - 1
  match v with
  | .nan _ => (0, Flags.invalid)
  | .inf neg => (wrap w (if neg then lo else hi), Flags.invalid)
  | .fin d =>
    let (m, inexact) := d.roundAt rm 0
    let z : Int := if d.neg then -(m : Int) else m
    if z < lo then (wrap w lo, Flags.invalid)
    else if hi < z then (wrap w hi, Flags.invalid)
    else (wrap w z, if inexact then Flags.inexact else Flags.none)

/-! ## exp2 and the reciprocal of R102 -/

/-- The fraction bits of the fixed-point roots of `exp2`. -/
def expBits : Nat := 160

/-- The product of 2^(2^−i) over the set bits of a binary fraction, most significant bit first, in units of
2^−expBits, truncated at each step. -/
def exp2Frac (bits : List Bool) (root acc : Nat) : Nat :=
  match bits with
  | [] => acc
  | b :: rest =>
    let root := isqrt (expBits + 2) (root * 2 ^ expBits)
    exp2Frac rest root (if b then acc * root / 2 ^ expBits else acc)

/-- 2^x for an exact non-zero x, truncated with a sticky bit.  The result of a fractional x is irrational, so no tie
arises (R102). -/
def Dyad.exp2 (d : Dyad) : Dyad :=
  if d.exp + (bitLen d.man : Int) < -60 then
    if d.neg then ⟨false, 2 ^ 100 - 1, -100, true⟩ else ⟨false, 2 ^ 100, -100, true⟩
  else if 0 ≤ d.exp then ⟨false, 1, min (max (d.units 0) (-100000)) 100000, false⟩
  else
    let k := (-d.exp).toNat
    let z := d.units d.exp
    let whole := z / 2 ^ k
    let frac := (z % 2 ^ k).toNat
    let whole := min (max whole (-100000)) 100000
    if frac = 0 then ⟨false, 1, whole, false⟩
    else
      let bits := (List.range k).map fun i => frac / 2 ^ (k - 1 - i) % 2 == 1
      ⟨false, exp2Frac bits (2 * 2 ^ expBits) (2 ^ expBits), whole - (expBits : Int), true⟩

/-- An FP32 result, delivered in FP32 or rounded once more to BF16 (R102). -/
def fromF32 (t : LaneType) (r : Nat × Flags) : Nat × Flags :=
  if t == .bf16 then
    let (c, g) := fmtBF16.deliver .rne (fmtF32.value r.1)
    (c, r.2.or g)
  else r

/-- `tv.exp2` of one FP32 or BF16 element (R102). -/
def fpExp2 (t : LaneType) (a : Nat) : Nat × Flags :=
  match (fmtOf t).value a with
  | .nan s => ((fmtOf t).nanCode, Flags.nvIf s)
  | .inf true => (0, Flags.none)
  | .inf false => ((fmtOf t).infCode false, Flags.none)
  | .fin d => if d.isZero then fromF32 t (fmtF32.round false .rne ⟨false, 1, 0, false⟩)
    else fromF32 t (fmtF32.round false .rne d.exp2)

/-- `tv.rcp` of one FP32 or BF16 element (R102). -/
def fpRcp (t : LaneType) (a : Nat) : Nat × Flags :=
  match (fmtOf t).value a with
  | .nan s => ((fmtOf t).nanCode, Flags.nvIf s)
  | .inf n => ((fmtOf t).signBit n, Flags.none)
  | .fin d => if d.isZero then ((fmtOf t).infCode d.neg, Flags.divZero)
    else fromF32 t (fmtF32.round false .rne ((⟨false, 1, 0, false⟩ : Dyad).div d))

/-! ## Four-bit block formats (R92, R93, R96) -/

/-- An entry of a type 3 table: an 8-bit signed integer i and a 3-bit count f; its value is i × 2^(−f) (R94). -/
structure T3Entry where
  i : BitVec 8
  f : BitVec 3
  deriving DecidableEq, Repr

/-- A scale record with its reserved bits (R92). -/
structure ScaleRec where
  type : Nat
  rsv : Nat
  e : Nat
  m : Nat
  deriving DecidableEq, Repr

/-- The fields of a 16-bit scale record (R92). -/
def scaleRec (w : Nat) : ScaleRec := ⟨w / 2 ^ 14 % 4, w / 2 ^ 10 % 16, w / 4 % 256, w % 4⟩

/-- The scale of a record with 1 ≤ E ≤ 254: 2^(E − 127) × (1 + M ÷ 4) (R92). -/
def ScaleRec.scale (r : ScaleRec) : Dyad := ⟨false, 4 + r.m, (r.e : Int) - 129, false⟩

/-- The code value of code c under a type (R93); `tab` is the selected type 3 table. -/
def codeValue (type : Nat) (tab : List T3Entry) (c : Nat) : Dyad :=
  match type with
  | 0 => Dyad.ofInt (signed 4 c)
  | 1 =>
    let neg := decide (8 ≤ c)
    match c % 8 with
    | 0 => ⟨neg, 0, 0, false⟩
    | 1 => ⟨neg, 1, -1, false⟩
    | 2 => ⟨neg, 1, 0, false⟩
    | 3 => ⟨neg, 3, -1, false⟩
    | 4 => ⟨neg, 2, 0, false⟩
    | 5 => ⟨neg, 3, 0, false⟩
    | 6 => ⟨neg, 4, 0, false⟩
    | _ => ⟨neg, 6, 0, false⟩
  | 2 =>
    let neg := decide (8 ≤ c)
    if c % 8 = 0 then ⟨neg, 0, 0, false⟩ else ⟨neg, 1, ((c % 8 : Nat) : Int) - 4, false⟩
  | _ =>
    let t := tab.getD c ⟨0#8, 0#3⟩
    let z := signed 8 t.i.toNat
    ⟨decide (z < 0), z.natAbs, -(t.f.toNat : Int), false⟩

/-- The element of a code: its code value times the block scale, exactly; a scale with E = 0 makes it +0 and one with
E = 255 a NaN (R92, R93). -/
def elementValue (r : ScaleRec) (tab : List T3Entry) (c : Nat) : FVal :=
  if r.e = 0 then .fin (Dyad.zero false)
  else if r.e = 255 then .nan false
  else .fin ((codeValue r.type tab c).mul r.scale)

/-- A candidate code with its value. -/
structure Candidate where
  code : Nat
  val : Dyad
  deriving DecidableEq, Repr

/-- The candidates of a type, scaled, one per code (R96). -/
def candidates (r : ScaleRec) (tab : List T3Entry) : List Candidate :=
  (List.range 16).map fun c => ⟨c, (codeValue r.type tab c).mul r.scale⟩

/-- The lowest-numbered candidate of the greatest value not above `x`.  DEDUCED, log entry 22. -/
def floorCandidate (x : Dyad) (l : List Candidate) : Option Candidate :=
  l.foldl (fun best c =>
    if c.val.cmp x == .gt then best
    else match best with
      | none => some c
      | some b => if c.val.cmp b.val == .gt then some c else best) none

/-- The lowest-numbered candidate of the least value not below `x`.  DEDUCED, log entry 22. -/
def ceilCandidate (x : Dyad) (l : List Candidate) : Option Candidate :=
  l.foldl (fun best c =>
    if c.val.cmp x == .lt then best
    else match best with
      | none => some c
      | some b => if c.val.cmp b.val == .lt then some c else best) none

/-- The code written for a chosen candidate: a zero of type 1 or 2 takes the sign of the element (R96). -/
def zeroSigned (r : ScaleRec) (x : Dyad) (c : Candidate) : Nat :=
  if c.val.isZero && (r.type == 1 || r.type == 2) then (if x.neg then 8 else 0) else c.code

/-- The choice between two neighbouring candidates lo < x < hi (R96, R88).  DEDUCED, log entry 22. -/
def chooseCandidate (r : ScaleRec) (rd : Rounding) (x : Dyad) (lo hi : Candidate) : Candidate :=
  let q := min (min lo.val.exp hi.val.exp) x.exp
  let below := x.units q - lo.val.units q
  let gap := hi.val.units q - lo.val.units q
  match rd with
  | .field .rup => hi
  | .field .rdn => lo
  | .field .rtz => if x.neg then hi else lo
  | .field .rne =>
    if 2 * below < gap then lo
    else if gap < 2 * below then hi
    else if r.type = 3 then (if lo.code ≤ hi.code then lo else hi)
    else if lo.code % 2 = 0 then lo else hi
  | .sr l =>
    let noise := (l.toNat / 2 ^ 16 : Int)
    if x.neg then
      if (gap - below) * 2 ^ 16 / gap + noise ≥ 2 ^ 16 then lo else hi
    else if below * 2 ^ 16 / gap + noise ≥ 2 ^ 16 then hi else lo

/-- Conversion of one element into a four-bit code under a scale record (R96).  DEDUCED, log entry 21. -/
def toBlockCode (r : ScaleRec) (tab : List T3Entry) (rd : Rounding) (v : FVal) : Nat × Flags :=
  match v with
  | .nan _ => (0, Flags.invalid)
  | .inf neg =>
    if r.e = 0 then (0, Flags.inexact)
    else if r.e = 255 then (0, Flags.invalid)
    else
      let big : Dyad := ⟨neg, 1, 1000, false⟩
      let l := candidates r tab
      match (if neg then ceilCandidate big l else floorCandidate big l) with
      | some c => (zeroSigned r big c, Flags.overflow)
      | none => (0, Flags.overflow)
  | .fin x =>
    if r.e = 0 then (0, if x.isZero then Flags.none else Flags.inexact)
    else if r.e = 255 then (0, Flags.invalid)
    else
      let l := candidates r tab
      match floorCandidate x l, ceilCandidate x l with
      | some lo, some hi =>
        if lo.val.cmp x == .eq then (zeroSigned r x lo, Flags.none)
        else
          let c := chooseCandidate r rd x lo hi
          (zeroSigned r x c, Flags.inexact)
      | some lo, none => (zeroSigned r x lo, Flags.overflow)
      | none, some hi => (zeroSigned r x hi, Flags.overflow)
      | none, none => (0, Flags.overflow)

end Sys2Proof.Machine
end

