-- ==== Sys2Proof/Machine/Operands.lean ====
section
/-! DEFINITION. The operand forms: lanes of a register (R30, R105), immediates (R28, R111), shift counts (R34),
and the integer and short-vector computations of R110–R122 on them. -/

namespace Sys2Proof.Machine

/-! ## Lanes -/

/-- Lane `i` of a register at `w` bits (R105). -/
def lane (w : Nat) (x : Word) (i : Nat) : Nat := x.toNat / 2 ^ (w * i) % 2 ^ w

/-- The lanes of a register, lane 0 first. -/
def lanes (w : Nat) (x : Word) : List Nat := (List.range (64 / w)).map (lane w x)

/-- The number whose digits of `w` bits are the list, lane 0 first. -/
def packNat (w : Nat) (l : List Nat) : Nat :=
  match l with
  | [] => 0
  | a :: rest => a % 2 ^ w + 2 ^ w * packNat w rest

/-- The register whose lanes are the list; lanes beyond it are zero. -/
def pack (w : Nat) (l : List Nat) : Word := BitVec.ofNat 64 (packNat w l)

/-- A computation on each lane of one register. -/
def lanes1 (w : Nat) (f : Nat → Nat) (a : Word) : Word := pack w ((lanes w a).map f)

/-- A computation on each pair of lanes of two registers. -/
def lanes2 (w : Nat) (f : Nat → Nat → Nat) (a b : Word) : Word := pack w (List.zipWith f (lanes w a) (lanes w b))

/-- A computation on each triple of lanes of three registers. -/
def lanes3 (w : Nat) (f : Nat → Nat → Nat → Nat) (a b c : Word) : Word :=
  pack w (List.zipWith (fun x g => g x) (lanes w a) (List.zipWith (fun y z x => f x y z) (lanes w b) (lanes w c)))

/-- A result register with the flags of all its lanes (R86). -/
def packF (w : Nat) (l : List (Nat × Flags)) : Word × Flags := (pack w (l.map (·.1)), Flags.all (l.map (·.2)))

/-- `lanes1` with flags. -/
def flanes1 (w : Nat) (f : Nat → Nat × Flags) (a : Word) : Word × Flags := packF w ((lanes w a).map f)

/-- `lanes2` with flags. -/
def flanes2 (w : Nat) (f : Nat → Nat → Nat × Flags) (a b : Word) : Word × Flags :=
  packF w (List.zipWith f (lanes w a) (lanes w b))

/-- `lanes3` with flags. -/
def flanes3 (w : Nat) (f : Nat → Nat → Nat → Nat × Flags) (a b c : Word) : Word × Flags :=
  packF w (List.zipWith (fun x g => g x) (lanes w a) (List.zipWith (fun y z x => f x y z) (lanes w b) (lanes w c)))

/-- SignExtend of R11, to 64 bits. -/
def sext64 (n x : Nat) : Word := BitVec.ofInt 64 (signed n (x % 2 ^ n))

/-- SignExtend of a signed immediate field. -/
def simm {n : Nat} (i : BitVec n) : Word := i.signExtend 64

/-- An integer clamped to a range (R81). -/
def clamp (lo hi z : Int) : Int := if z < lo then lo else if hi < z then hi else z

/-- The least value of a signed lane. -/
def sMin (w : Nat) : Int := -(2 ^ (w - 1))
/-- The greatest value of a signed lane. -/
def sMax (w : Nat) : Int := 2 ^ (w - 1) - 1

/-! ## One lane of the integer instructions (R110, R112, R114, R115, R120) -/

/-- The shift count of a lane (R34, R110): the low bits of the count lane; `w` is a power of two. -/
def shiftCount (w b : Nat) : Nat := b % w

/-- `shl` by a count below the width. -/
def shlLane (w a c : Nat) : Nat := a * 2 ^ c % 2 ^ w
/-- `shr` by a count below the width. -/
def shrLane (a c : Nat) : Nat := a / 2 ^ c
/-- `sra` by a count below the width: the sign bit is copied in. -/
def sraLane (w a c : Nat) : Nat := wrap w (signed w a / 2 ^ c)
/-- `rori` by a count below the width. -/
def rorLane (w a c : Nat) : Nat := (a / 2 ^ c ||| a * 2 ^ (w - c)) % 2 ^ w

/-- The number of one bits among the lowest `n`. -/
def popCount (n x : Nat) : Nat :=
  match n with
  | 0 => 0
  | n + 1 => x % 2 + popCount n (x / 2)

/-- The lowest `n` bits in reverse order. -/
def bitReverse (n x : Nat) : Nat :=
  match n with
  | 0 => 0
  | n + 1 => x % 2 * 2 ^ n + bitReverse n (x / 2)

/-- The lowest `n` bytes in reverse order. -/
def byteReverse (n x : Nat) : Nat :=
  match n with
  | 0 => 0
  | n + 1 => x % 256 * 256 ^ n + byteReverse n (x / 256)

/-- Trailing zeros among the lowest `n` bits. -/
def trailingZeros (n x : Nat) : Nat :=
  match n with
  | 0 => 0
  | n + 1 => if x % 2 = 1 then 0 else 1 + trailingZeros n (x / 2)

/-- The field descriptor of `bext` and `bins` (R114): position and length. -/
def fieldPos (w b : Nat) : Nat := b % w
/-- The length of the field: 0 stands for the whole lane. -/
def fieldLen (w b : Nat) : Nat := if b / w % w = 0 then w else b / w % w

/-- `bext` on one lane. -/
def bextLane (w a b : Nat) : Nat := a / 2 ^ fieldPos w b % 2 ^ fieldLen w b

/-- `bins` on one lane: the field is cut at the top of the lane. -/
def binsLane (w d a b : Nat) : Nat :=
  let mask := (2 ^ fieldLen w b - 1) * 2 ^ fieldPos w b % 2 ^ w
  (d &&& (2 ^ w - 1 - mask)) ||| (a * 2 ^ fieldPos w b &&& mask)

/-- Quotient and remainder of one lane, truncating towards zero (R82, R115). -/
def divLane (signedForm : Bool) (w a b : Nat) : Nat × Nat :=
  if b = 0 then (2 ^ w - 1, a)
  else if signedForm then
    if signed w a = sMin w ∧ signed w b = -1 then (a, 0)
    else
      let q := Int.tdiv (signed w a) (signed w b)
      (wrap w q, wrap w (signed w a - q * signed w b))
  else (a / b, a % b)

/-- The smaller or larger of two signed lanes. -/
def minS (w a b : Nat) : Nat := if signed w a ≤ signed w b then a else b
/-- The larger of two signed lanes. -/
def maxS (w a b : Nat) : Nat := if signed w a ≤ signed w b then b else a

/-- `adds` and `subs` on one lane. -/
def satS (w : Nat) (z : Int) : Nat := wrap w (clamp (sMin w) (sMax w) z)
/-- `addsu` and `subsu` on one lane. -/
def satU (w : Nat) (z : Int) : Nat := wrap w (clamp 0 (2 ^ w - 1) z)

/-! ## Whole-register integer computations (R121, R122) -/

/-- `vshuf`: lane selection by the lanes of b; the top bit of a selector gives zero. -/
def vshufWord (w : Nat) (a b : Word) : Word :=
  pack w ((lanes w b).map fun s => if 2 ^ (w - 1) ≤ s then 0 else lane w a (s % (64 / w)))

/-- `vpack`: both sources saturated to half width, a's lanes first. -/
def vpackWord (w : Nat) (a b : Word) : Word :=
  pack (w / 2) ((lanes w a ++ lanes w b).map fun x => satS (w / 2) (signed w x))

/-- `vunpkl` (`high` false) and `vunpkh`: lanes sign-extended to twice the width. -/
def vunpkWord (high : Bool) (w : Nat) (a : Word) : Word :=
  let n := 64 / w
  pack (2 * w) ((List.range (n / 2)).map fun i =>
    wrap (2 * w) (signed w (lane w a (if high then i + n / 2 else i))))

/-- The sum of a list of integers. -/
def sumInt (l : List Int) : Int := l.foldl (· + ·) 0

/-- `vdot`: rd plus the sum of the lane products. -/
def vdotWord (w : Nat) (d a b : Word) : Word :=
  d + BitVec.ofInt 64 (sumInt (List.zipWith (fun x y => signed w x * signed w y) (lanes w a) (lanes w b)))

/-- `vrsum`: the sum of the signed lanes. -/
def vrsumWord (w : Nat) (a : Word) : Word := BitVec.ofInt 64 (sumInt ((lanes w a).map (signed w)))

/-- `vmsk`: one bit per lane, its top bit. -/
def vmskWord (w : Nat) (a : Word) : Word := pack 1 ((lanes w a).map fun x => x / 2 ^ (w - 1))

/-- `vcmp` on one lane: all ones or zero, with the flags of an FP comparison (R122). -/
def vcmpLane (t : LaneType) (c : Cond) (x y : Nat) : Nat × Flags :=
  let r : Bool × Flags := if t.isInt then (testInt c t.width x y, Flags.none) else fpTest (fmtOf t) (condToF c) x y
  (if r.1 then 2 ^ t.width - 1 else 0, r.2)

/-! ## Conversions between lane types (R128, R129) -/

/-- The number of elements a conversion takes (R128). -/
def convElems (ws wd : Nat) : Nat := 64 / max ws wd

/-- The source elements of a conversion. -/
def convSource (t e : LaneType) (a : Word) : List Nat :=
  (List.range (convElems e.width t.width)).map (lane e.width a)

/-- `icvtf`: integer lanes of type `e`, signed or unsigned, to FP lanes of type `t` (R129). -/
def icvtfWord (t e : LaneType) (rm : Round) (unsig : Bool) (a : Word) : Word × Flags :=
  packF t.width ((convSource t e a).map fun (x : Nat) =>
    (fmtOf t).round false rm (Dyad.ofInt (if unsig then Int.ofNat x else signed e.width x)))

/-- `fcvti`: FP lanes of type `e` to integer lanes of type `t` (R129). -/
def fcvtiWord (t e : LaneType) (rm : Round) (unsig : Bool) (a : Word) : Word × Flags :=
  packF t.width ((convSource t e a).map fun x => fpToInt unsig t.width rm ((fmtOf e).value x))

/-- `fcvt` under a rounding field (R129); with equal types it copies and makes NaNs canonical. -/
def fcvtWord (t e : LaneType) (rm : Round) (a : Word) : Word × Flags :=
  packF t.width ((convSource t e a).map fun x => (fmtOf t).convert false (.field rm) ((fmtOf e).value x))

/-- A list of values converted stochastically, stepping the LFSR once per element, element 0 first (R88, R89). -/
def srList (conv : Rounding → FVal → Nat × Flags) (l : BitVec 32) (vs : List FVal) : List (Nat × Flags) × BitVec 32 :=
  match vs with
  | [] => ([], l)
  | v :: rest =>
    let r := conv (.sr l) v
    let (rs, l') := srList conv (lfsrStep l) rest
    (r :: rs, l')

/-- `fcvt` into BF16 with `.sr`; it also gives the LFSR afterwards (R129). -/
def fcvtSrWord (e : LaneType) (l : BitVec 32) (a : Word) : (Word × Flags) × BitVec 32 :=
  let (rs, l') := srList (fmtBF16.convert false) l ((convSource .bf16 e a).map (fmtOf e).value)
  (packF 16 rs, l')

end Sys2Proof.Machine
end

