-- ==== Sys2Proof/Machine/Base.lean ====
section
/-! DEFINITION. Sparse tables and sparse byte memories in canonical form: keys strictly rising, and in a memory no cell
that holds what an unlisted address reads as. -/

namespace Sys2Proof.Machine

/-- A finite map from numbers, keys strictly rising. -/
abbrev Table (α : Type) := List (Nat × α)

/-- The entry of a key. -/
def tget {α : Type} (t : Table α) (k : Nat) : Option α :=
  match t with
  | [] => none
  | (i, a) :: rest => if i = k then some a else tget rest k

/-- The table with the entry of a key set. -/
def tset {α : Type} (t : Table α) (k : Nat) (a : α) : Table α :=
  match t with
  | [] => [(k, a)]
  | (i, b) :: rest =>
    if k < i then (k, a) :: (i, b) :: rest
    else if k = i then (k, a) :: rest
    else (i, b) :: tset rest k a

/-- The table without the entry of a key. -/
def tdel {α : Type} (t : Table α) (k : Nat) : Table α := t.filter fun e => e.1 != k

/-- The entry of a key, or a default. -/
def tgetD {α : Type} (t : Table α) (k : Nat) (d : α) : α := (tget t k).getD d

/-- The first entry that passes a test. -/
def tfind {α : Type} (t : Table α) (p : Nat → α → Bool) : Option (Nat × α) := t.find? fun e => p e.1 e.2

/-- Keys strictly rising. -/
def tsorted {α : Type} (t : Table α) : Bool :=
  match t with
  | [] => true
  | [_] => true
  | (i, _) :: (j, b) :: rest => decide (i < j) && tsorted ((j, b) :: rest)

/-! ## Byte memories -/

/-- A sparse memory of bytes. -/
abbrev Mem := List Host.Cell

/-- What an address that nothing has written reads as (DESIGN CHOICE, log entry 1). -/
def blankByte : Byte := 0#8

/-- The byte at an address.  DESIGN CHOICE, log entry 1. -/
def memGet (m : Mem) (a : Nat) : Byte := (tget m a).getD blankByte

/-- The memory with one byte written; writing the blank byte removes the cell. -/
def memSet (m : Mem) (a : Nat) (b : Byte) : Mem := if b = blankByte then tdel m a else tset m a b

/-- The bytes from an address upwards. -/
def memRead (m : Mem) (a n : Nat) : List Byte := (List.range n).map fun i => memGet m (a + i)

/-- The memory with bytes written from an address upwards. -/
def memWrite (m : Mem) (a : Nat) (bs : List Byte) : Mem :=
  match bs with
  | [] => m
  | b :: rest => memWrite (memSet m a b) (a + 1) rest

/-- No cell of a memory holds the blank byte. -/
def memNoBlank (m : Mem) : Bool := m.all fun c => c.2 != blankByte

/-- The canonical form of a memory.  DESIGN CHOICE, log entry 1. -/
abbrev Memory.wf (m : Mem) : Bool := tsorted m && memNoBlank m

/-! ## Byte order (R4) -/

/-- The little-endian number of a list of bytes. -/
def leNat (bs : List Byte) : Nat :=
  match bs with
  | [] => 0
  | b :: rest => b.toNat + 256 * leNat rest

/-- The `n` bytes of a number, the lowest first. -/
def leBytes (n x : Nat) : List Byte :=
  match n with
  | 0 => []
  | n + 1 => BitVec.ofNat 8 x :: leBytes n (x / 256)

/-- A list padded with zeros, or cut, to `n` bytes. -/
def fitBytes (n : Nat) (bs : List Byte) : List Byte := (bs ++ List.replicate n 0#8).take n

/-- Bytes `at` to `at + n` of a list as a number; beyond the list they read zero. -/
def leField (bs : List Byte) (at_ n : Nat) : Nat := leNat ((bs.drop at_).take n)

/-- A list of bytes with a part replaced. -/
def patchBytes (bs : List Byte) (at_ : Nat) (new : List Byte) : List Byte :=
  bs.take at_ ++ new ++ bs.drop (at_ + new.length)

/-- CRC-32C over a list of bytes, bit by bit, reflected polynomial 0x82F63B78. -/
def crcByte (fuel : Nat) (c : Nat) : Nat :=
  match fuel with
  | 0 => c
  | fuel + 1 => crcByte fuel (if c % 2 = 1 then (c / 2) ^^^ 0x82F63B78 else c / 2)

/-- The running CRC-32C of a list of bytes. -/
def crcRun (bs : List Byte) (c : Nat) : Nat :=
  match bs with
  | [] => c
  | b :: rest => crcRun rest (crcByte 8 (c ^^^ b.toNat))

/-- CRC-32C, as initialised and inverted by the standard. -/
def crc32c (bs : List Byte) : Nat := crcRun bs 0xFFFFFFFF ^^^ 0xFFFFFFFF

end Sys2Proof.Machine
end

