-- ==== Sys2Proof/Machine/Types.lean ====
section
/-! DEFINITION. The plain data the state is made of: context lines with their tags, cores and kernel slots, requests and
answers in the network, kernels, queues, barriers and the per-partition registers. -/

namespace Sys2Proof.Machine

/-! ## Requests of contexts -/

/-- Where a load reply goes and how its bytes are converted (R143, R148). -/
inductive LdDst where
  /-- One register, zero- or sign-extended from `n` bytes. -/
  | reg (d : Reg) (n : Nat) (sx : Bool)
  /-- The pair rd, rd + 1 of a 16-byte load. -/
  | pair (d : Reg)
  /-- The lanes of a typed load, with the scale record, the captured table of `fp4` and that table's number. -/
  | typed (d : Reg) (f : MemFmt) (t : LaneType) (rm : Round) (scale : Nat) (tab : List T3Entry) (no : Option Nat)
  /-- The descriptor record of `hdef` and of `hmap` (R173, R181). -/
  | hdef (h : Nat)
  | hmap (h : Nat)
  /-- The configuration record of `mcfg` (R202). -/
  | mcfg (slot : Nat)
  deriving DecidableEq, Repr

/-- The context, place and instruction that a request or answer belongs to (R68, R71, R140). -/
structure Who where
  /-- The line's physical address divided by 128. -/
  key : Nat
  /-- The context's generation: answers never reach a later context in the same line (R68). -/
  gen : Nat
  /-- The issuing core's site, slot and kernel slot. -/
  site : Nat
  slot : Nat
  ks : Nat
  part : Nat
  asid : Nat
  priv : Nat
  /-- PC, encoding and length in bytes of the instruction. -/
  pc : Word
  enc : BitVec 32
  len : Nat
  /-- The number of the EMULATE sequence whose load asks; 0 for an ordinary access (R412). -/
  emu : Nat := 0
  deriving DecidableEq, Repr

/-- What a fault reports: class, subclass, access kind, log2 size and FADDR (R365–R368). -/
structure Flt where
  cls : Nat
  sub : Nat
  kind : Nat
  size : Nat
  faddr : Word
  deriving DecidableEq, Repr

/-- What a request asks of the translation slice and of the home (chapters 03, 06, 10 to 14). -/
inductive ReqKind where
  | load (dst : LdDst) (n : Nat) (ord : Order) (sc : Scope)
  /-- A store of bytes; with `rel` or `sc` the context waits for its performance (R147). -/
  | store (data : List Byte) (ord : Order) (sc : Scope)
  /-- `stt`: its register is converted when the store commits (R149), with the scale record, the captured table of `fp4` and that
  table's number. -/
  | stt (f : MemFmt) (t : LaneType) (rm : Round) (sr : Bool) (scale : Nat) (tab : List T3Entry) (no : Option Nat) (v : Word)
  /-- `amo`, with `dst` the result register; `red` has none.
  `own` says that the core's predictor asks for ownership of the line (R153). -/
  | amo (op : AmoOp) (y : AmoType) (src cmp : Nat) (dst : Option Reg) (ord : Order) (sc : Scope) (own : Bool)
  | ldrw (dst : Reg)
  | stc (data : Word)
  | rcancel
  | wenq (payload : List Byte) (sc : Scope) (queue : Nat)
  | cln (sc : Scope)
  | cinv
  | iinv
  | pref
  | apnd (data : List Byte) (dst : Reg)
  | ldtail (dst : Reg)
  | seal
  | wake
  | resume (mode : ResumeMode) (pc : Word)
  | migr
  | send (data : List Byte)
  | qpush (v : Word)
  | qpop (dst : Reg)
  | qstat (dst : Reg)
  | launch
  | gang
  | grun (patch : Nat)
  | fork (target : Word) (args : List Word)
  | sync
  | exitJoin
  | groupTable (b : Nat)
  /-- `ldh` and `sth` through a STASH handle (R183). -/
  | ldh (dst : Reg)
  | sth (v : Word)
  /-- A write of an engine operation or of an accepted `wenq`, at the operation's scope (R239). -/
  | eng (data : List Byte) (sc : Scope)
  /-- The add of 1 to a copy's completion word, or to the sequence count of a completion object; it follows the operation of number
  `after`, if that is outstanding (R188, R284). -/
  | engAdd (sc : Scope) (after : Nat)
  /-- An access that first touches an absent stash line: its line is filled (R179). -/
  | stashFill (k : ReqKind)
  /-- A commit record with its cover word (R401). -/
  | rcommit (stream : Nat) (cover : Word)
  deriving DecidableEq, Repr

/-- A write that a core holds dirty, in a stash line or an owned line: its context, the operation's number, whether the
context waits for it, and what it was (R180, R393). -/
structure Writer where
  who : Who
  tok : Nat
  ends : Bool
  va : Nat
  k : ReqKind
  deriving DecidableEq, Repr

/-- A leaf translation (R248, R252). -/
structure Leaf where
  /-- The frame's physical address of the 4 KiB page. -/
  pa : Nat
  cls : Nat
  peer : Bool
  peerId : Nat
  mir : Bool
  u : Bool
  x : Bool
  w : Bool
  r : Bool
  d : Bool
  /-- The size of the page that the leaf maps (R245). -/
  span : Nat := 4096
  deriving DecidableEq, Repr

/-- An access that its translation slice has accepted, on its way to the home (R136). -/
structure Acc where
  w : Who
  va : Nat
  ga : Nat
  leaf : Leaf
  k : ReqKind
  tok : Nat
  /-- The host has been snooped for it, on a page in host bias (R363). -/
  snooped : Bool
  deriving DecidableEq, Repr

/-- What an answer writes: registers, flags, p15 (R50, R68). -/
structure Answer where
  regs : List (Reg × Word)
  flags : Flags
  p15 : Option Bool
  deriving DecidableEq, Repr

/-- The end points of the networks. -/
inductive Node where
  | core (site : Nat)
  | slice (cl : Nat)
  | line (key : Nat)
  | die (d : Nat)
  | engine (cl : Nat)
  | placer (part : Nat)
  | desc (part : Nat)
  | regulator
  | port (p : Nat)
  deriving DecidableEq, Repr

/-- A dissemination notification (R341). -/
structure Notif where
  kid : Nat
  b : Nat
  round : Nat
  parity : Nat
  from_ : Nat
  fromPeer : Option Nat
  to_ : Option (Nat × Nat)
  deriving DecidableEq, Repr

/-- A fault message of 32 bytes with its deferred-operation record (R314, R140). -/
structure FaultMsg where
  part : Nat
  desc : Nat
  cid : Nat
  cause : Word
  faddr : Word
  core : Nat
  cookie : Nat
  record : Option (List Byte)
  /-- The raising context, its privilege and TSW.SVC, for FAULTPATH slots (R414). -/
  key : Option Nat
  priv : Nat
  svc : Bool
  deriving DecidableEq, Repr

/-- The access categories of R142 and R250: which permissions an access needs and which classes accept it. -/
inductive Cat where
  | load (q : Bool) | store (q recov : Bool) | stashStore (q recov : Bool) | amo | red | ldrw | stc | commitW | commitR | wenq (recov : Bool) | clean | pref
  | engRead
  | engWrite (recov : Bool) | record | fetch | append | ldtail | seal | context | descPush | descRead | entryPush | migr | iinv
  deriving DecidableEq, Repr

/-! ## Waits -/

/-- What a core waits for before it goes on with an instruction. -/
inductive WaitFor where
  /-- PWC = 0 and PDC = 0 (R138). -/
  | pwc
  | pdc
  /-- TSW.HELD = 0 (R77). -/
  | unheld
  /-- None of the named operations is outstanding (R164, R176). -/
  | ops (ids : List Nat)
  /-- Every visitor invalidation of a die sent before message `bound` is applied (R163). -/
  | invals (die bound : Nat)
  /-- No visitor invalidation of a die is on its way (R236). -/
  | noInvals (die : Nat)
  /-- Every visitor invalidation of a write is applied (R165). -/
  | group (grp : Nat)
  /-- The mirror holds every write performed on a line (R165). -/
  | durable (gline : Nat)
  /-- A handle's reference count is 0 (R176). -/
  | refs (site ks h : Nat)
  /-- The swap of a type 3 table is done (R214). -/
  | swapped (cl t : Nat)
  /-- The continuation level of a cluster has room (R297). -/
  | contRoom (cl lvl : Nat)
  deriving DecidableEq, Repr

/-- An arrival at a barrier after its release wait (R337). -/
structure Arrive where
  b : Nat
  arrivals : Nat
  bytes : Nat
  /-- `bar.aw` and `dbar` wait afterwards (R338). -/
  waits : Bool
  group : Bool
  deriving DecidableEq, Repr

/-- What the core does when a wait of an instruction ends. -/
inductive After where
  /-- The wait ends and the context goes on. -/
  | go
  /-- The request leaves the core; `counts` says that it is counted in PWC already. -/
  | send (va : Nat) (k : ReqKind)
  | arrive (a : Arrive)
  | exit
  | trig
  | semPost (n : Nat)
  /-- A handle takes a new descriptor, is sealed, opened or unmapped (R176). -/
  | handle (h : Nat) (rec_ : Option (List Byte)) (st : Nat)
  deriving DecidableEq, Repr

/-- The waiting instruction of a context. -/
structure Pend where
  who : Who
  conds : List WaitFor
  act : After
  deriving DecidableEq, Repr

/-- A fault answer held in a line's tag (R372). -/
structure HeldFault where
  cause : Word
  faddr : Word
  /-- The PC of a precise answer. -/
  pc : Option Word
  /-- A FAULTPATH slot has suppressed its message: the line is resumed as soon as it parks for it (R414). -/
  quiet : Bool := false
  deriving DecidableEq, Repr

/-! ## Context lines (R58–R63) -/

/-- Whether a line is live, has exited or is lost; a free line has no entry (R62). -/
inductive Life where
  | live | exited | lost
  deriving DecidableEq, Repr

/-- Where the owning copy of a line is (R62).
DESIGN CHOICE, log entry 20; DEDUCED, log entry 61; DEDUCED, log entry 64; DEDUCED, log entry 66; DEDUCED, log entry 83;
DEDUCED, log entry 87; DEDUCED, log entry 90. -/
inductive Place where
  | mem
  | l2 (cl : Nat)
  | l1 (site : Nat)
  deriving DecidableEq, Repr

/-- A mailbox wait held at the home (R326). -/
structure PopWait where
  desc : Nat
  who : Who
  dst : Reg
  deriving DecidableEq, Repr

/-- A context line: its 128 bytes (R58) and its tag (R62, R65, R138, R277, R372). -/
structure Line where
  pc : Word
  wid : Word
  pw : BitVec 32
  wt : BitVec 32
  tsw : Word
  v : List Word
  cause : Word
  faddr : Word
  link : Word
  space : Word
  /-- The context ID: the virtual address divided by 128 (R58). -/
  cid : Nat
  /-- A number that differs from context to context (R68). -/
  gen : Nat
  life : Life
  place : Place
  /-- The slot that has bound the line, and the last slot that had (R72). -/
  bound : Option Nat
  lastSlot : Nat
  /-- `$gtime` at which the line last became READY, and at which its wait began. -/
  stamp : Nat
  waitFrom : Nat
  /-- `$gtime` since which the line has been READY without being bound, when it is (R65). -/
  agedFrom : Nat
  /-- Writes not yet performed at sys scope, and not yet durable (R138). -/
  pwc : Nat
  pdc : Nat
  /-- The anchor core's site, TRG, and whether the placer seeded the line (R277, R66). -/
  anchor : Option Nat
  trg : Bool
  seeded : Bool
  /-- The core or cluster or die the line is bound to by a placement code (R272). -/
  bindCode : Nat
  bindUnit : Nat
  /-- The cluster where the line last resided (R67). -/
  lastCl : Nat
  /-- The number of the last load reply received, for `fence.acq` (R163). -/
  lastReply : Nat
  /-- The line has changed since it was filled into its L1 (R394). -/
  touched : Bool
  /-- The waiting instruction: its PC, encoding and length, for faults that end the wait. -/
  ipc : Word
  ienc : BitVec 32
  ilen : Nat
  pend : Option Pend
  heldFaults : List HeldFault
  popWait : Option PopWait
  /-- A gang switch has put the line away with its partition's state (R385). -/
  away : Bool
  /-- The address of the access the context waits for, the EA of a `ldr.w` and the record of a `gang` among them (R69). -/
  waitAddr : Word
  /-- KIND and SIZE of that access (R365, R366). -/
  waitKs : Nat × Nat
  /-- The context issues nothing until every visitor invalidation that was sent to its die before this message is applied: what an
  acquire of R235, or a move to another die, makes it see (R224, R232). -/
  acqTo : Nat
  deriving DecidableEq, Repr

/-! ## Kernel slots, handles and barriers of a core -/

/-- The state of a handle (R176). -/
inductive HState where
  | undef | open_ | sealed_ | stash
  deriving DecidableEq, Repr

/-- A handle-table entry (R172, R173). -/
structure Handle where
  st : HState
  offset : Nat
  rows : Nat
  cols : Nat
  fmt : Nat
  ttab : Nat
  pitch : Nat
  sbase : Nat
  scoff : Nat
  refs : Nat
  asid : Nat
  deriving DecidableEq, Repr

/-- A barrier of the barrier file (R329). -/
structure Bar where
  state : Nat
  group : Bool
  thr : Bool
  blk : Bool
  loc : Bool
  phase : Nat
  expa : Nat
  arra : Nat
  expb : Nat
  expbc : Nat
  arrb : Nat
  ncons : Nat
  lp : Nat
  ack0 : Nat
  ack1 : Nat
  gn : Nat
  gi : Nat
  gtab : Nat
  rcv0 : Nat
  rcv1 : Nat
  /-- The members of the group as the table names them, the round that runs, and whether its notification is sent (R334,
  R341). -/
  members : List Nat
  round : Nat
  sent : Bool
  deriving DecidableEq, Repr

/-- A waiter entry (R330). -/
structure BarWaiter where
  key : Nat
  b : Nat
  v : Nat
  aw : Bool
  deriving DecidableEq, Repr

/-- A kernel slot of a core (R14, R71, R170, R172, R274). -/
structure KSlot where
  kid : Option Nat
  part : Nat
  s : List Word
  /-- Per s register: one plus the issue cycle of its last write, and that write's rank (R72). -/
  stamps : List (Nat × Nat)
  /-- Per s register: one plus the issue cycle of its last memory reply, and of its last long-operation completion (R72). -/
  answered : List (Nat × Nat)
  winBase : Nat
  winSize : Nat
  barBase : Nat
  barShare : Nat
  /-- W1 to W6 (R80), the l1share (R66). -/
  widths : List Nat
  l1share : Nat
  handles : Table Handle
  deriving DecidableEq, Repr

/-- A stash line of a core, tagged by ASID and VA (R179, R180). -/
structure StashLine where
  asid : Nat
  va : Nat
  ga : Nat
  ks : Nat
  /-- The scratch offset of its 64 bytes. -/
  at_ : Nat
  dirty : Bool
  /-- The translation the line was filled or last written under, which its hits are checked against (R142). -/
  leaf : Leaf
  /-- The writes held here, which their contexts' PWC counts. -/
  writers : List Writer
  deriving DecidableEq, Repr

/-- A line a core owns for atomics, with the home's last written-back value (R153, R393). -/
structure Owned where
  asid : Nat
  va : Nat
  /-- The translation that the line was asked for under (R142). -/
  leaf : Leaf
  ga : Nat
  saved : List Byte
  dirty : Bool
  /-- The atomics executed since the last write-back, which no count shows. -/
  writers : List Writer
  deriving DecidableEq, Repr

/-- A write waiting in the check-hold buffer (R141, R216): a context's request or an epilogue's row. -/
structure HeldWrite where
  who : Who
  va : Nat
  k : ReqKind
  bytes : List Byte
  tok : Nat
  /-- The unchecked matrix rows it depends on. -/
  deps : List (Nat × Nat)
  epi : Bool
  deriving DecidableEq, Repr

/-- The tile vector operations (R193). -/
inductive TvKind where
  | add | sub | mul | fma | min | max | abs | exp2 | rcp | cvt | red | bcast | trans | sel | scale
  deriving DecidableEq, Repr

/-- A tile vector operation (R193–R197): its rounding field, `.sr`, the operator and the axis of `tv.red`, its handles as
issue found them, and the type 3 table captured at issue with its number. -/
structure TvOp where
  id : Nat
  who : Who
  k : TvKind
  rm : Round
  sr : Bool
  red : RedOp
  all : Bool
  d : Nat
  a : Nat
  b : Nat
  hd : Handle
  ha : Handle
  hb : Handle
  tab : List T3Entry
  tabNo : Option Nat
  /-- The issuer's writes outstanding at issue, where a handle is a STASH (R227, R238). -/
  after : List Nat
  deriving DecidableEq, Repr

/-- A computed tile vector operation: the rows to write, by scratch address, and the flags. -/
structure TvRun where
  op : TvOp
  writes : List (Nat × List Byte)
  flags : Flags
  /-- The beats of it that have mismatched once and were computed again (R390). -/
  again : List Nat
  deriving DecidableEq, Repr

/-- The service state of a core (R392) and the states of the boot (R429). -/
inductive CoreLife where
  | active | halted | containing | contained | retired
  deriving DecidableEq, Repr

/-- A core's trace buffer and its registers (R378, R379). -/
structure Trace where
  ctl : Word
  next : Nat
  wrapped : Bool
  sel : Word
  post : Option Nat
  /-- The report of R379 that REP asks for on freezing is due. -/
  due : Bool
  recs : Table (Nat × Nat)
  deriving DecidableEq, Repr

/-- An EMULATE sequence that a slot executes in its own turns (R412, R413): the line and its PC, the fetched encoding and its length,
WB, the sequence and its next instruction, the shadow registers x0 to x7, what is staged for the v registers and PW, and the staged
stores; and whether the slot idles for a load's reply. -/
structure EmuRun where
  no : Nat
  key : Nat
  pc : Word
  enc : BitVec 32
  len : Nat
  wb : Bool
  words : List Nat
  at_ : Nat
  x : List Word
  v : List Word
  pw : BitVec 32
  stores : List (Nat × List Byte)
  loading : Bool
  deriving DecidableEq, Repr

/-- A core with everything R14 gives it. -/
structure Core where
  life : CoreLife
  /-- Position in the logical map; none before the map is installed (R20). -/
  pos : Option Nat
  lfsr : BitVec 32
  ks : List KSlot
  /-- The line bound in each slot, and how many turns in a row it has issued (R65). -/
  bound : Table Nat
  streak : Table Nat
  /-- The issue cycle of the core's last turn: a core issues at most once in a cycle (R64). -/
  turnAt : Option Nat
  /-- The issue cycle in which the core's slot has last bound its line (R65). -/
  prepAt : Option Nat
  /-- The EMULATE sequence that each slot executes (R412). -/
  emu : Table EmuRun
  bars : Table Bar
  /-- Per barrier: one plus the issue cycle of its last operation, and that operation's rank in the cycle (R331). -/
  barSeen : Table (Nat × Nat)
  waiters : List BarWaiter
  scratch : Mem
  stash : List StashLine
  owned : List Owned
  pred : Table Nat
  icache : Table (List Byte)
  /-- The lines of it that are exempt from replacement: the boot image's until an `iinv` names them, and the boot ROM's (R438). -/
  imaged : List Nat
  hold : List HeldWrite
  /-- The unchecked rows that each holding context depends on (R216). -/
  holders : Table (List (Nat × Nat))
  tvq : List TvOp
  tvRun : Option TvRun
  trace : Trace
  /-- Corrected mismatches: the `$gtime` of each within the last second (R423). -/
  mism : List Nat
  /-- The issue cycle of the core's last pop of a continuation record (R297). -/
  lastPop : Option Nat
  deriving DecidableEq, Repr

/-! ## Clusters: copy engine, matrix unit, tables, queues -/

/-- The copies of major 0x29, op 0 to 6 (R185), and `apndh`, which the copy engine carries (R262). -/
inductive CpyOp where
  | g2t | t2g | t2t | g2g | g2q | gat | sca | apnd
  deriving DecidableEq, Repr

/-- A copy with the operands read at issue (R185–R190).
DEDUCED, log entry 42; DEDUCED, log entry 44; DEDUCED, log entry 45; DESIGN CHOICE, log entry 46; DEDUCED, log entry 47;
DEDUCED, log entry 91. -/
structure Copy where
  id : Nat
  who : Who
  op : CpyOp
  sc : Scope
  h : Nat
  hA : Nat
  /-- The global address of ra, and for `g2g` the destination in rd; for `apndh` rd itself. -/
  src : Nat
  dst : Nat
  opt : Word
  cw : Option Nat
  /-- The shape that was checked at issue. -/
  rows : Nat
  cols : Nat
  fmt : Nat
  /-- The writes of the issuer outstanding at issue (R189). -/
  after : List Nat
  /-- The issuer's context ID, for what is reported of the copy. -/
  cid : Nat
  started : Bool
  srcRead : Bool
  /-- Bytes read so far, and those of a multicast or an append that wait until all are read. -/
  moved : Nat
  buf : List Byte
  /-- The receivers of a multicast that have written its bytes (R187, R188). -/
  recv : List Nat
  err : Option Flt
  deriving DecidableEq, Repr

/-- A continuation record in a queue (R296, R321). -/
structure Cont where
  resume : Bool
  tgt : Nat
  fp : Nat
  ja : Nat
  wid : Word
  kid : Nat
  part : Nat
  anchor : Nat
  trg : Bool
  since : Nat
  bindCode : Nat
  bindUnit : Nat
  /-- The entry of the spill region that holds the record's 64 bytes, when it is not on-chip (R321). -/
  slot : Option Nat
  deriving DecidableEq, Repr

/-- The matrix operations (R208), with the handles that issue found. -/
inductive MatKind where
  | mcfg (slot : Nat) (rec_ : List Byte)
  | mloadb (slot : Nat) (hA : Handle)
  | mmac (sparse : Bool) (slot d : Nat) (hA hD : Handle) (opt : Word)
  | mepi (slot a d : Nat) (hA hD : Handle) (sc bi : Option Handle) (opt : Word) (addr : Nat)
  | ctswap (t : Nat)
  deriving DecidableEq, Repr

/-- The tag of a resident B (R210). -/
structure BTag where
  slot : Nat
  bfmt : Nat
  kk : Nat
  n : Nat
  sparse : Bool
  spn : Nat
  deriving DecidableEq, Repr

/-- An accepted or submitted matrix operation, with the type 3 table it captured (R95) and the operation accepted
immediately before it (R206). -/
structure MatOp where
  id : Nat
  who : Who
  k : MatKind
  tab : List T3Entry
  tabNo : Option Nat
  prev : Option Nat
  /-- The writes of the issuer outstanding at issue: the fork edge (R207, R238). -/
  after : List Nat
  /-- The slot record and the tag of the resident B that issue judged it by (R205). -/
  seen : Option (List Byte) × Option BTag
  deriving DecidableEq, Repr

/-- The resident B (R200, R210): per output column the aligned values of its stored rows, and per block of 32 of them the exponent,
whether a value is no number, and the scale record; and the check column, C[h][j] of each half and stored row. -/
structure ResB where
  tag : BTag
  cells : List (List Int)
  exps : List (List Int)
  nans : List (List Bool)
  scales : List (List Nat)
  check : List (List Int)
  deriving DecidableEq, Repr

/-- An accumulator row whose check is outstanding, with its scratch address and prior contents (R215, R216). -/
structure Unchecked where
  opId : Nat
  site : Nat
  ks : Nat
  h : Nat
  row : Nat
  at_ : Nat
  prior : List Byte
  /-- The slot and PC of the operation's instruction (R390). -/
  slot : Nat
  pc : Word
  /-- The output handle of the fused epilogue that has converted the row. -/
  epiH : Option Nat
  /-- Its check has failed once; the pass, and then the epilogue's row, run again; a second failure leaves the row to the containment of
  its core (R217). -/
  failed : Bool
  pending : Bool
  redo : Bool
  lost : Bool
  /-- The two sums of its check, mod 2^20 (R215). -/
  p : Nat
  q : Nat
  deriving DecidableEq, Repr

/-- A matrix operation that runs: the slot's record, the rows done, the popped masks, the flags and the error that stops it. -/
structure MatRun where
  op : MatOp
  cfg : List Byte
  row : Nat
  masks : List Nat
  masked : Bool
  flags : Flags
  err : Option Flt
  deriving DecidableEq, Repr

/-- A waiter of a semaphore (R219). -/
structure SemWait where
  sem : Nat
  key : Nat
  deriving DecidableEq, Repr

/-- A translation-cache entry (R252). -/
structure TEntry where
  leaf : Leaf
  /-- The A bit of the entry as it was read or set. -/
  a : Bool
  sealed_ : Bool
  deriving DecidableEq, Repr

/-- A cluster with everything R14 and R200 give it.  DESIGN CHOICE, log entry 79. -/
structure Cluster where
  tcache : Table TEntry
  copies : List Copy
  mslots : Table (List Byte)
  resB : Option ResB
  sems : Table Nat
  semWait : List SemWait
  mqueues : Table (List (List Byte))
  mops : List MatOp
  /-- The operation accepted last, the operation that runs, and the epilogue that runs, by itself or fused (R206). -/
  lastMat : Option Nat
  mrun : Option MatRun
  erun : Option MatRun
  unchecked : List Unchecked
  /-- The failing rows of each macro, and how many of them are mapped onto its spare rows; whether the unit is off (R423). -/
  macroRows : Table (List Nat)
  macroMapped : Table Nat
  macroOff : Bool
  /-- Type 3 tables: active and shadow copies, quad selectors, swaps pending (R94, R214). -/
  t3 : Table (List T3Entry)
  t3shadow : Table (List T3Entry)
  t3sel : Table Nat
  t3swap : List Nat
  /-- The operations that have reached the head of the queue and whose swaps are pending, by table (R214). -/
  swapOps : Table Nat
  /-- Continuation queues by level (R297, R321). -/
  conts : Table (List Cont)
  stealing : Bool
  /-- Power: the step's account, the last grant and the temperature in 1/16 degree (R422, R425). -/
  account : Nat
  grant : Nat
  temp : Nat
  deriving DecidableEq, Repr

/-! ## Homes -/

/-- An entry of a reservation queue (R156). -/
structure ResvEntry where
  who : Who
  dst : Reg
  acc : Acc
  deriving DecidableEq, Repr

/-- A reservation queue of a 64-byte line (R156, R158). -/
structure ResvQ where
  entries : List ResvEntry
  granted : Bool
  since : Nat
  deriving DecidableEq, Repr

/-- A reserved append (R260, R262). -/
structure AppSeg where
  off : Nat
  len : Nat
  who : Who
  dst : Reg
  /-- The groups of the visitor invalidations its bytes have sent (R138, R262). -/
  grps : List Nat
  deriving DecidableEq, Repr

/-- The append home's state of a frame (R259–R267).
DEDUCED, log entry 5; DEDUCED, log entry 19; DEDUCED, log entry 56; DEDUCED, log entry 57. -/
structure Append where
  nx : Nat
  segs : List AppSeg
  seals : List Who
  /-- The dies with a replica: its frame there, and the issue cycle of its last use. -/
  replicas : Table (Nat × Nat)
  /-- The lines whose `xinv` waits for the frame to be reclaimed, and their partition. -/
  reclaims : List Nat
  part : Nat
  /-- The page is mirrored (R244). -/
  mir : Bool
  deriving DecidableEq, Repr

/-- A line whose value in its home slice a die reset may lose: what survives for certain, and the writers since with the line as
each left it.  A write to a page of the recovery discipline is among them until the mirror acknowledges it (R242, R393, R395).
DESIGN CHOICE, log entry 35. -/
structure SliceLine where
  /-- The partition whose home holds the line. -/
  part : Nat
  hbm : List Byte
  writers : List (Acc × List Byte)
  deriving DecidableEq, Repr

/-- A request held at a full queue (R316). -/
structure HeldReq where
  who : Who
  k : ReqKind
  va : Nat
  msg : Option FaultMsg
  /-- The operation's number, of a `wenq`. -/
  tok : Nat
  /-- The entry of a `wenq` that has been accepted and performed, and found the queue full. -/
  entry : Option (List Byte)
  deriving DecidableEq, Repr

/-! ## Kernels, partitions -/

/-- The states of a kernel (R279, R280). -/
inductive KState where
  | queued | placing | running | triggered | draining | done | faulted
  deriving DecidableEq, Repr

/-- A parsed launch header (R269). -/
structure Header where
  entry : Nat
  kid : Nat
  graph : Nat
  prio : Nat
  l1share : Nat
  bshare : Nat
  rs : Nat
  rse : Bool
  priv : Nat
  seed : Bool
  mx : Bool
  w : List Nat
  pl : List Nat
  dlx : Nat
  asid : Nat
  ext : List Nat
  ctxbase : Nat
  ctxlim : Nat
  swin : Nat
  framebase : Nat
  framesize : Nat
  htpl : Nat
  hmask : Nat
  s : List Word
  compl : Nat
  preds : List (Nat × Nat)
  hostmax : Nat
  deriving DecidableEq, Repr

/-- A node of the completion tree: one host core (R281, R282, R285). -/
structure TreeNode where
  site : Nat
  live : Nat
  untrig : Nat
  maxcls : Nat
  err : Nat
  exits : Nat
  trigSent : Bool
  doneSent : Bool
  /-- A contained host core whose node the placer stands in for (R283). -/
  standIn : Bool
  deriving DecidableEq, Repr

/-- A gang record (R307) with its issuer. -/
structure Gang where
  level : Nat
  shw : Nat
  shh : Nat
  gidx : List Nat
  who : Option Who
  /-- The placer has tried it in its turn and placed another: it stays at the head of its priority (R310). -/
  passed : Bool
  deriving DecidableEq, Repr

/-- A kernel of the placer (R273–R285).
DEDUCED, log entry 64; DEDUCED, log entry 65; DEDUCED, log entry 67; DEDUCED, log entry 87; DEDUCED, log entry 90. -/
structure Kernel where
  hdr : Header
  /-- A number that grows with acceptance (R273). -/
  no : Nat
  state : KState
  part : Nat
  asid : Nat
  since : Nat
  templates : Table Handle
  hosts : List Nat
  nodes : List TreeNode
  nextSeed : Nat
  gang : Option Gang
  /-- The replay a graph kernel belongs to: the graph object and the replay number (R291). -/
  replay : Option (Nat × Nat)
  /-- END KERNEL has been applied (R406). -/
  ending : Bool
  /-- A context of the kernel has become LOST (R406). -/
  lost : Bool := false
  deriving DecidableEq, Repr

/-- A queued replay of a graph (R290, R291). -/
structure Replay where
  obj : Nat
  seq : Nat
  bank : Nat
  bankVa : Nat
  nk : Nat
  asid : Nat
  priv : Nat
  next : Nat
  /-- The writes of its kernels' completion objects that may be outstanding (R289). -/
  pending : List Nat
  deriving DecidableEq, Repr

/-- The registers of a launch ring (R317). -/
structure Ring where
  rbase : Nat
  rctl : Nat
  rasid : Nat
  widx : Nat
  ridx : Nat
  rstat : Nat
  /-- The privilege at which an entry launches, where a peer wrote it (R320). -/
  privs : Table Nat
  deriving DecidableEq, Repr

/-- A recovery stream (R398). -/
structure Stream where
  rcp : Word
  next : Nat
  deriving DecidableEq, Repr

/-- A commit at the recovery-point unit (R401, R402): its record's virtual and global address and leaf, its stream and cover, the covered
lines still to be read with their leaves and the bytes read so far, and, once taken or done, its mark and PREV, and the group of the
invalidations that its record's write has sent. -/
structure CommitRun where
  va : Nat
  ga : Nat
  leaf : Leaf
  st : Nat
  cover : Word
  lines : List (Nat × Leaf)
  data : List Byte
  mark : Option (Nat × Word)
  grp : Option Nat
  tok : Nat
  deriving DecidableEq, Repr

/-! ## Messages -/

/-- What a message carries.  Each kind is taken by the step its comment names. -/
inductive Body where
  /-- TRANSLATE and, when `walking`, PAGE_WALK. -/
  | req (w : Who) (va : Nat) (k : ReqKind) (tok : Nat) (walking : Bool)
  /-- HOME_ACCESS and the steps of particular requests. -/
  | acc (a : Acc)
  /-- LOAD_REPLY or S_REGISTER_REPLY; `sc` marks the reply of an sc operation at dev or wider (R236). -/
  | reply (w : Who) (a : Answer) (sc : Bool) (counted : Bool) (tok : Nat)
  /-- LOAD_REPLY of a record read by an instruction. -/
  | record (w : Who) (dst : LdDst) (data : List Byte)
  | longDone (w : Who) (d : Reg) (v : Word) (f : Flags)
  /-- Completion of an operation the line waits for with kind 9, with flags (R100). -/
  | opDone (w : Who) (f : Flags)
  /-- The flags of a matrix operation, which no context waits for, with the operation and the cluster and semaphore of its post: what
  observes the completion follows the flags (R100, R207). -/
  | opFlags (w : Who) (f : Flags) (op : Nat) (post : Option (Nat × Nat))
  /-- WRITE_ACKNOWLEDGEMENT; deliverable when no invalidation of `grp` remains. -/
  | ack (w : Who) (tok grp : Nat) (ends : Option Answer) (sc : Bool)
  | dack (w : Who) (tok : Nat) (ends : Option Answer) (counted : Bool)
  /-- What a peer's packet or access comes to: 0 when it is taken, or a NET subclass, with the bytes that it reads (R320, R353, R354). -/
  | peerAnswer (sub : Nat) (data : List Byte)
  /-- The write of an engine operation is performed at its scope; `narrow` says that the scope is the issuing die's, and `ends` that the
  write is the operation's last. -/
  | eack (w : Who) (tok grp : Nat) (narrow : Bool) (mirror : Option Nat) (ends : Bool)
  /-- A line that a home has written while its mirror die is under reset (R396, R402). -/
  | mirrorPend (gline die : Nat)
  /-- A write whose mirror die is under reset (MIRROR_RETRY, R396). -/
  | mirror (w : Who) (tok die : Nat) (ends : Option Answer) (counted : Bool)
  | fault (w : Who) (f : Flt) (async : Bool) (counted : Bool) (tok : Nat) (record : Option (List Byte)) (durable : Bool)
  /-- VISITOR_INVALIDATE; `via` is the translation slice that forwarded the write (R225). -/
  | inval (grp gline die via : Nat)
  | msg (m : FaultMsg)
  /-- `grp` marks the completion of a group barrier, which acquires at device scope or wider (R339). -/
  | barDone (key b v : Nat) (aw grp : Bool)
  | notif (site : Nat) (n : Notif)
  | notifNet (site : Nat) (n : Notif)
  | semGrant (key n : Nat)
  | semPost (cl n : Nat) (op : Nat)
  | joinDone (key : Nat)
  | gangGrant (key : Nat)
  | gangWithdraw (key kid part : Nat)
  | trigEvent (site kid part no : Nat)
  | copyReq (c : Copy)
  | matReq (m : MatOp)
  /-- The bytes of a multicast for one receiver (R187). -/
  | mcast (cl id site : Nat) (w : Who) (h rows cols fmt : Nat) (data : List Byte)
  /-- Bytes of the copy `op`, whose issuer had the context ID `cid` (R188, R342). -/
  | bytes (site part kid b n : Nat) (cid op : Nat)
  /-- The entry of an accepted `wenq`; `res` is the queue's line when the request was held, so that a freed entry is its own (R316). -/
  | wenqPush (w : Who) (va : Nat) (queue : Nat) (entry : List Byte) (tok : Nat) (res : Option Nat)
  | xinv (w : Who) (asid : Nat) (all recl : Bool) (lo hi : Nat)
  | xinvAck (w : Who) (asid : Nat) (all : Bool) (lo hi : Nat)
  | ctbl (site t : Nat) (v : Word)
  /-- A write of `$rcpS`; `here` says that it has reached the recovery-point unit and waits its turn (R398). -/
  | rcp (w : Who) (st : Nat) (v : Word) (here : Bool)
  /-- A commit that has reached the recovery-point unit (R401). -/
  | commit (w : Who) (c : CommitRun)
  /-- A line asked of the host, for an access that waits for it (R361). -/
  | hostReq (gline : Nat) (own : Bool) (a : Acc)
  /-- A host access to HBM that waits at its home; `tracks` says that it came through CXL (R363, R364). -/
  | hostAcc (pa : Nat) (wr : Bool) (d : List Byte) (tracks : Bool)
  /-- A back-invalidate snoop, with the access that waits for it, if any (R363, R364). -/
  | bisnp (gline : Nat) (inv : Bool) (a : Option Acc)
  /-- A mailbox request to the Regulator. -/
  | reg (box : Nat) (cmd : Nat) (args : List Nat)
  /-- The discovery flood: PRESENT and DONE on their way, the latter to a port of a router (R436). -/
  | present (die site : Nat)
  | floodDone (die router port n : Nat)
  /-- The image stream at a cluster, or at one of its cores, with its number (R438). -/
  | image (die cl : Nat) (site : Option Nat) (digest base : Nat) (data : List Byte) (no : Nat)
  deriving DecidableEq, Repr

/-- A message: its number, end points, virtual network (R345) and contents. -/
structure Msg where
  id : Nat
  src : Node
  dst : Node
  vn : Nat
  body : Body
  deriving DecidableEq, Repr

/-- An operation that a drain or a handle waits for (R164, R176). -/
inductive OpClass where
  /-- A copy into the issuing core's scratch; one towards global memory, or a write of a context; a matrix or a tile
  vector operation; a copy that no drain waits for. -/
  | ts | gm | mx | tv | other
  deriving DecidableEq, Repr

/-- An outstanding operation; `copy` tells a copy of the copy engine from a write of a context, and `wenq` a `wenq` (R77, R189,
R240). -/
structure OpInfo where
  cls : OpClass
  copy : Bool
  wenq : Bool
  site : Nat
  key : Nat
  kid : Nat
  /-- The kernel slot and handle it writes, if any. -/
  dest : Option (Nat × Nat)
  cl : Nat
  /-- The invalidations of its writes that their scope has not waited for, and whether all else of it is done: a drain waits for the
  performance at sys scope (R164, R239). -/
  late : List Nat := []
  done : Bool := false
  deriving DecidableEq, Repr

/-! ## Partitions -/

/-- A saved partition (R388): what a switch keeps under a save area beside its header: cores, clusters, the placer's table,
rings, held requests, the ejected messages and the operations they belong to, and the lines that await it.
DESIGN CHOICE, log entry 63. -/
structure SavedPart where
  cores : Table Core
  clusters : Table Cluster
  kernels : List Kernel
  replays : List Replay
  /-- The placer's turn by priority, its place in the scan of cores, and the holder of reservation priority (R273, R274, R292, R310). -/
  placerAt : Table Nat
  lastTaken : Option Nat
  reserve : Option Nat
  rings : Table Ring
  heldQ : Table (List HeldReq)
  ejected : List Msg
  ops : Table OpInfo
  lines : List Nat
  deriving DecidableEq, Repr

/-- A Pallet image: slot records, sequences, version and hash (R408, R416). -/
structure Image where
  slots : Table (List Byte)
  seqs : Table (List Nat)
  ver : Nat
  hash : Nat
  deriving DecidableEq, Repr

/-- A partition: its quarters, its registers of R383 and R48, its placer, rings and patch image. -/
structure Part where
  mask : Nat
  xlbase : Word
  apdbase : Word
  biasbase : Word
  ctqbase : Word
  ilv : Word
  ilvNow : Nat
  sasid : Word
  repl : List Word
  svcq : Word
  gswt : Word
  gsout : Word
  gsin : Word
  gsstat : Word
  kernels : List Kernel
  /-- Per priority, the acceptance number of the kernel placed last (R273). -/
  placerAt : Table Nat
  lastTaken : Option Nat
  reserve : Option Nat
  replays : List Replay
  rings : Table Ring
  streams : Table Stream
  /-- The Pallet image, the one that a pending switch will install, and the stored minimum of VERSION (R408, R417, R418). -/
  image : Image
  imageNext : Option Image
  patchMin : Nat
  /-- Window registers of R359. -/
  bfpage : Nat
  bfctl : Nat
  icause : Nat
  /-- The flip in progress: the page and the direction (R364). -/
  flip : Option (Nat × Nat)
  /-- The ejected messages still to be re-injected, and the numbers of those of the last round (R387). -/
  reinject : List Msg
  round : List Nat
  /-- The boot ROM's page tables translate, while no `$xlbase` has been written (R435). -/
  rom : Bool
  saved : Table SavedPart
  deriving DecidableEq, Repr

/-! ## Links, host, Regulator -/

/-- The states of a die edge or Troty port (R350). -/
inductive LinkState where
  | down | training | up | degraded | faulted
  deriving DecidableEq, Repr

/-- A flit kept for replay (R349). -/
structure Flit where
  sq : Nat
  body : FlitBody
  deriving DecidableEq, Repr

/-- An injector (R355, R356). -/
structure Injector where
  ctl : Word
  mask : Word
  left : Nat
  fired : Nat
  deriving DecidableEq, Repr

/-- One direction of a die edge or Troty port (R347–R351). -/
structure Link where
  st : LinkState
  txSeq : Nat
  rxSeq : Nat
  replay : List Flit
  /-- Consecutive failed replays of the first flit that is missing. -/
  fails : Nat
  /-- The transmitter is replaying; a further request or timeout before the next acceptance makes that replay a failed one. -/
  again : Bool
  /-- The receiver has discarded a flit and asked for the first missing one. -/
  asked : Bool
  /-- The flit that the link holds, with every flit behind it, and the cycle until which it does (R356). -/
  held : Option (Nat × Nat)
  /-- The next flit of the replay that is under way (R349). -/
  resend : Option Nat
  /-- The flits of other devices that wait to go on over a Troty port (R352). -/
  queue : List FlitBody
  /-- The message that a network of a link is in the middle of, and its next flit (R346). -/
  partly : Table (Nat × Nat)
  sentAt : Nat
  since : Nat
  bad : List Nat
  corrected : Nat
  deriving DecidableEq, Repr

/-- A mailbox (R421). -/
structure Mailbox where
  cmd : Nat
  args : List Nat
  stat : Nat
  deriving DecidableEq, Repr

/-- The source of a logged event (R422): a core by its site, a cluster, a direction of a link or the peer behind it, or a rail. -/
inductive LogSrc where
  | core (site : Nat)
  | cluster (cl : Nat)
  | link (n : Nat)
  | rail (n : Nat)
  deriving DecidableEq, Repr

/-- A logged event (R422). -/
structure LogEntry where
  time : Nat
  src : LogSrc
  cls : Nat
  sub : Nat
  detail : Nat
  deriving DecidableEq, Repr

/-- The kind and number of a source. -/
def LogSrc.code (x : LogSrc) : Nat × Nat :=
  match x with
  | .core n => (0, n)
  | .cluster n => (1, n)
  | .link n => (2, n)
  | .rail n => (3, n)

/-- The 32 bytes of a log entry: `$gtime`, the source's number and kind, class and subclass as CAUSE[15:0] has them, and 16 bytes of
detail (R422); the places of the source and of its kind are the model's.  DESIGN CHOICE, log entry 79. -/
def LogEntry.bytes (x : LogEntry) : List Byte :=
  leBytes 8 x.time ++ leBytes 4 x.src.code.2 ++ leBytes 2 x.src.code.1 ++ leBytes 1 x.cls ++ leBytes 1 x.sub ++ leBytes 16 x.detail

/-- A checker mismatch: the slot, the unit and the PC that R390 logs; unit 0 is the issue pipeline, 1 the matrix unit and 2 the tile
vector unit.  DEDUCED, log entry 55. -/
structure Mismatch where
  slot : Option Nat
  unit_ : Nat
  at_ : Nat
  deriving DecidableEq, Repr

/-- The 16 bytes of detail of a mismatch: PC, unit and slot.  DESIGN CHOICE, log entry 79. -/
def Mismatch.detail (x : Mismatch) : Nat := x.at_ % 2 ^ 64 + x.unit_ * 2 ^ 64 + (x.slot.getD 0xFF) * 2 ^ 72

/-- A line the host holds under CXL (R361–R363). -/
inductive HostHold where
  | shared | modified
  deriving DecidableEq, Repr

/-- A router of the discovery flood (R436): its parent port, none at the boot core; the ports that have delivered a probe or a
DONE, those that have delivered a DONE, the sum of their counts, and whether it has sent its own DONE. -/
structure Router where
  parent : Option Nat
  got : List Nat
  dones : List Nat
  sum : Nat
  sent : Bool
  /-- The issue cycle of its first probe. -/
  at_ : Nat
  deriving DecidableEq, Repr

/-- The boot block and the discovery flood of a die (R436–R438). -/
structure Flood where
  /-- FLOOD, the boot core's place in the die, the routers reached by place, and the PRESENT map. -/
  state : Nat
  boot : Nat
  routers : Table Router
  present : List Nat
  mapbase : Nat
  mapctl : Nat
  imgbase : Nat
  imgctl : Nat
  /-- The accepted GOs that the block has not acted on yet, oldest first: the base with the count or the length. -/
  mapGo : List (Nat × Nat)
  imgGo : List (Nat × Nat)
  /-- How many streams have left. -/
  streams : Nat
  mapOk : Bool
  mapErr : Bool
  imgDone : Bool
  imgErr : Bool
  /-- The cores that have verified the latest image, and those that have found one wrong. -/
  ok : List Nat
  bad : List Nat
  /-- Boot contexts that cannot be written yet: the site, the record and the PC. -/
  starts : List (Nat × Nat × Nat)
  deriving DecidableEq, Repr

/-- The Regulator (R392, R420–R427).
DEDUCED, log entry 65; DESIGN CHOICE, log entry 76; DEDUCED, log entry 77; DEDUCED, log entry 78; DESIGN CHOICE, log entry
79. -/
structure Regulator where
  boxes : Table Mailbox
  log : List LogEntry
  /-- The mirror of the log in the HBM of die 0, at an address that no rule gives. -/
  logMirror : List (List Byte)
  /-- Fault messages held for a partition, and how many were dropped (R315). -/
  kept : Table (List FaultMsg)
  dropped : Table Nat
  acl : Table Word
  routes : Table Nat
  /-- The mailbox served last (R421). -/
  lastBox : Nat
  /-- The images in the slots A and B of the flash, the stored minimum of VERSION, which slot runs, and the device firmware
  image (R427, R428). -/
  slotA : List Byte
  slotB : List Byte
  fwMin : Nat
  runsB : Bool
  device : List Byte
  resetDies : List Nat
  retired : List Nat
  selector : Word
  /-- The stored map of the partitions: number and quarters; none for the whole package (R428). -/
  stored : List (Nat × Nat)
  /-- The package has power; its boot has begun; the floods are not over yet; its firmware has failed verification, so that it stays in
  reset. -/
  powered : Bool
  booted : Bool
  booting : Bool
  failed : Bool
  deriving DecidableEq, Repr

end Sys2Proof.Machine
end

