-- ==== Sys2Proof/Machine/State.lean ====
section
/-! DEFINITION. The state of the package: everything the spec gives the machine, as plain data, with the reset state and
the reasons a step can stop. -/

namespace Sys2Proof.Machine

/-- Why a step stops with a fault.  No constructor stands for an effect the spec gives: every fault class of R367 is taken
by the faulting context and is a next state. -/
inductive Fault where
  /-- Raised by no instruction: the package has lost power and nothing runs (R422); safe, since no step follows. -/
  | powerOff
  deriving DecidableEq, Repr

/-- Why an instruction has no meaning. -/
inductive Refusal where
  /-- Raised by an arm of `exec` that is still rejected by name; safe, since no run passes it. -/
  | notModelled (mnemonic : String)
  deriving DecidableEq, Repr

/-- What the package is asked to do next: a step of the device, or a turn of a core's current slot.
DESIGN CHOICE, log entry 16. -/
inductive Todo where
  | event (i : Instr)
  | turn (site : Nat)
  /-- A turn whose instruction the checker finds mismatched: it does not commit and is executed again at the slot's next
  turn; a second mismatch of the same instruction contains the core (R390). -/
  | mismatch (site : Nat) (second : Bool)
  /-- A fault message whose FAULTPATH decision the descriptor's home slice finds wrong (R415). -/
  | pathMismatch (m : Nat)
  deriving DecidableEq, Repr

/-- An entry of the schedule: what happens, and how many issue cycles elapse first.  DESIGN CHOICE, log entry 16. -/
structure Act where
  after : Nat
  what : Todo
  deriving DecidableEq, Repr

/-- The state of the package. -/
structure State where
  /-- Issue cycles since power-up (R6, R64); `$gtime` counts 5 ns in each 7 of them (R7). -/
  cycle : Nat
  /-- The core that takes the next turn when the schedule is empty. -/
  cur : Nat
  agenda : List Act
  /-- The encoding being executed and its length in bytes, for CAUSE (R52, R365). -/
  fetched : BitVec 32
  flen : Nat
  /-- The model's own counter of free values (DESIGN CHOICE, log entry 2), and the number of the next message; 0 numbers nothing. -/
  free : Nat
  nextId : Nat
  /-- HBM, host memory, device registers and peer memory, at the global addresses of `gaddr` (R245, R353). -/
  mem : Mem
  lines : Table Line
  cores : Table Core
  clusters : Table Cluster
  parts : Table Part
  net : List Msg
  ops : Table OpInfo
  /-- Visitor copies by line × 4 + die (R228), with the cluster whose slice holds the copy. -/
  visitors : Table (Nat × List Byte)
  /-- Lines that a home slice holds newer than HBM (R395). -/
  slices : Table SliceLine
  /-- The lines whose value the mirror frame on the partner die holds too (R396). -/
  mirrored : List Nat
  /-- The last core whose access each line's home performed (R153). -/
  lastBy : Table Nat
  /-- Reservation queues and append homes (R156, R259), requests held at full queues (R316). -/
  resv : Table ResvQ
  appends : Table Append
  heldQ : Table (List HeldReq)
  /-- Lines the host holds (R361–R363). -/
  hostHeld : Table HostHold
  links : Table Link
  injectors : Table Injector
  floods : Table Flood
  reg : Regulator
  /-- Sites fused off at test, and the spread of the logical map (R16, R18). -/
  fused : List Nat
  /-- This device's peer number (R352), and whether the host link trained with CXL (R357, R360). -/
  peerNo : Nat
  cxl : Bool
  deriving DecidableEq, Repr

/-! ## Reset values -/

/-- A kernel slot that hosts no kernel.  DESIGN CHOICE, log entry 12. -/
def KSlot.reset : KSlot :=
  { kid := none, part := 0, s := List.replicate 8 0#64, stamps := List.replicate 8 (0, 0), answered := List.replicate 8 (0, 0), winBase := 0, winSize := 0,
    barBase := 0, barShare := 0, widths := List.replicate 6 0, l1share := 64, handles := [] }

/-- A trace buffer that records nothing (R378, R379).  DESIGN CHOICE, log entry 12. -/
def Trace.reset : Trace := { ctl := 0#64, next := 0, wrapped := false, sel := 0#64, post := none, due := false, recs := [] }

/-- A core after reset: the LFSR holds 1 (R88), the predictor counters 0 (R153), every kernel slot free.
DESIGN CHOICE, log entry 12. -/
def Core.reset : Core :=
  { life := .active, pos := none, lfsr := 1#32, ks := List.replicate 4 KSlot.reset, bound := [], streak := [], turnAt := none, prepAt := none, emu := [], bars := [], barSeen := [],
    waiters := [], scratch := [], stash := [], owned := [], pred := [], icache := [], imaged := [], hold := [], holders := [], tvq := [], tvRun := none,
    trace := Trace.reset, mism := [], lastPop := none }

/-- A cluster after reset: slots empty, semaphores 0 (R200), table entries 0 and selectors 0 (R94).
DESIGN CHOICE, log entry 12. -/
def Cluster.reset : Cluster :=
  { tcache := [], copies := [], mslots := [], resB := none, sems := [], semWait := [], mqueues := [], mops := [], lastMat := none,
    mrun := none, erun := none,
    unchecked := [], macroRows := [], macroMapped := [], macroOff := false, t3 := [], t3shadow := [], t3sel := [], t3swap := [], swapOps := [], conts := [],
    stealing := false, account := 0, grant := 0, temp := 0 }

/-- No Pallet image: every slot record is zero. -/
def Image.none : Image := { slots := [], seqs := [], ver := 0, hash := 0 }

/-- A partition whose registers hold zero (R321 and R384 state it for `$ctqbase` and `$sasid`; DESIGN CHOICE, log entry 3 for the
others); the interleave granule is 64 bytes (R253). -/
def Part.reset (mask : Nat) : Part :=
  { mask := mask, xlbase := 0#64, apdbase := 0#64, biasbase := 0#64, ctqbase := 0#64, ilv := 0#64, ilvNow := 0, sasid := 0#64,
    repl := List.replicate 4 0#64, svcq := 0#64, gswt := 0#64, gsout := 0#64, gsin := 0#64, gsstat := 0#64, kernels := [],
    placerAt := [], lastTaken := none, reserve := none, replays := [], rings := [], streams := [], image := Image.none,
    imageNext := none, patchMin := 0, bfpage := 0, bfctl := 0, icause := 0, flip := none, reinject := [], round := [], rom := false,
    saved := [] }

/-- The Regulator after reset.  DESIGN CHOICE, log entry 14. -/
def Regulator.reset : Regulator :=
  { boxes := [], log := [], logMirror := [], kept := [], dropped := [], acl := [], routes := [], lastBox := 16, slotA := [],
    slotB := [], fwMin := 0, runsB := false, device := [], resetDies := [], retired := [], selector := 0#64, stored := [],
    powered := true, booted := false, booting := false, failed := false }

/-- The package right after reset: partition 0 is the whole package (R428), no line is live, no message is on its way, and `$gtime`
stands at 0.  DESIGN CHOICE, log entry 111.
DESIGN CHOICE, log entry 1; DESIGN CHOICE, log entry 12; DESIGN CHOICE, log entry 13; DESIGN CHOICE, log entry 14. -/
def State.reset : State :=
  { cycle := 0, cur := 0, agenda := [], fetched := 0#32, flen := 0, free := 0, nextId := 1, mem := [], lines := [], cores := [],
    clusters := [], parts := [(0, Part.reset 0xFFFF)], net := [], ops := [], visitors := [], slices := [], mirrored := [], lastBy := [], resv := [],
    appends := [], heldQ := [], hostHeld := [], links := [], injectors := [], floods := [], reg := Regulator.reset, fused := [],
    peerNo := 0, cxl := true }

end Sys2Proof.Machine
end

