-- ==== Sys2Proof/Machine/Ops.lean ====
section
/-! DEFINITION. The named operations: topology, records of the state, memory, registers, messages, trace, and taking a
fault as one shared operation (R369–R373). -/

namespace Sys2Proof.Machine

/-! ## Time and topology (R6, R7, R12–R18) -/

/-- `$gtime` in nanoseconds: 5 ns in every 7 issue cycles (R6, R7). -/
def State.gtime (s : State) : Nat := s.cycle * 5 / 7

/-- The number of a site: die × 1,024 + 32 × y + x. -/
def siteNo (die x y : Nat) : Nat := die * 1024 + 32 * y + x
/-- The die of a site. -/
def dieOf (site : Nat) : Nat := site / 1024
/-- The mesh coordinates of a site (R13). -/
def siteX (site : Nat) : Nat := site % 32
/-- The row of a site. -/
def siteY (site : Nat) : Nat := site / 32 % 32
/-- The cluster of a site (R17). -/
def clusterOf (site : Nat) : Nat := dieOf site * 64 + siteY site / 4 * 8 + siteX site / 4
/-- The cluster-local index of a site (R17). -/
def localIdx (site : Nat) : Nat := siteY site % 4 * 4 + siteX site % 4
/-- The site of a cluster with a local index.  DEDUCED, log entry 5. -/
def siteOf (cl i : Nat) : Nat := siteNo (cl / 64) (cl % 8 * 4 + i % 4) (cl % 64 / 8 * 4 + i / 4)
/-- The die of a cluster. -/
def dieOfCl (cl : Nat) : Nat := cl / 64
/-- The partner die (R12). -/
def partner (die : Nat) : Nat := die ^^^ 1

/-- The difference of two naturals.  DEDUCED, log entry 5. -/
def absDiff (a b : Nat) : Nat := (a - b) + (b - a)

/-- Mesh hops between two clusters, counted between their north-west sites in package coordinates (R13; DEDUCED, log entry 5). -/
def hops (a b : Nat) : Nat :=
  absDiff (a % 8 * 4 + 32 * (a / 64 % 2)) (b % 8 * 4 + 32 * (b / 64 % 2)) +
    absDiff (a % 64 / 8 * 4 + 32 * (a / 128)) (b % 64 / 8 * 4 + 32 * (b / 128))

/-! ## Records of the state -/

/-- The core at a site. -/
def State.core (s : State) (site : Nat) : Core := tgetD s.cores site Core.reset
/-- The state with a core replaced. -/
def State.setCore (s : State) (site : Nat) (c : Core) : State := { s with cores := tset s.cores site c }
/-- Whether a core serves the network: neither contained nor retired, nor on its way there (R392, R393). -/
def Core.serves (c : Core) : Bool := c.life == .active || c.life == .halted
/-- The cluster of a number. -/
def State.cl (s : State) (cl : Nat) : Cluster := tgetD s.clusters cl Cluster.reset
/-- The state with a cluster replaced. -/
def State.setCl (s : State) (cl : Nat) (c : Cluster) : State := { s with clusters := tset s.clusters cl c }
/-- The active copy of a type 3 table of a cluster (R94). -/
def Cluster.table (c : Cluster) (t : Nat) : List T3Entry := tgetD c.t3 t (List.replicate 16 { i := 0#8, f := 0#3 })

/-- The partition of a number. -/
def State.part (s : State) (p : Nat) : Part := tgetD s.parts p (Part.reset 0)
/-- The state with a partition replaced. -/
def State.setPart (s : State) (p : Nat) (x : Part) : State := { s with parts := tset s.parts p x }
/-- The line at a key. -/
def State.line? (s : State) (key : Nat) : Option Line := tget s.lines key
/-- The state with a line moved, bound or unbound: its bytes stay what they were at its fill (R394). -/
def State.moveLine (s : State) (key : Nat) (l : Line) : State := { s with lines := tset s.lines key l }
/-- The state with a line replaced: its bytes or its tag have changed since its fill (R394). -/
def State.setLine (s : State) (key : Nat) (l : Line) : State := s.moveLine key { l with touched := true }
/-- A line changed in place, if there is one. -/
def State.modLine (s : State) (key : Nat) (f : Line → Line) : State :=
  match s.line? key with
  | some l => s.setLine key (f l)
  | none => s
/-- A core changed in place. -/
def State.modCore (s : State) (site : Nat) (f : Core → Core) : State := s.setCore site (f (s.core site))
/-- A cluster changed in place. -/
def State.modCl (s : State) (cl : Nat) (f : Cluster → Cluster) : State := s.setCl cl (f (s.cl cl))
/-- The start of a pass or a tile vector operation debits its estimate from the step's account (R425). -/
def Cluster.debit (c : Cluster) (op : Nat) : Cluster := { c with account := c.account - Config.energyEstimate op }
/-- A partition changed in place. -/
def State.modPart (s : State) (p : Nat) (f : Part → Part) : State := s.setPart p (f (s.part p))

/-- The partition of a cluster: the first whose mask holds its quarter (R380). -/
def State.partOfCl (s : State) (cl : Nat) : Nat :=
  match s.parts.find? fun e => e.2.mask.testBit (cl / 16) with
  | some e => e.1
  | none => 0
/-- The partition of a core. -/
def State.partOf (s : State) (site : Nat) : Nat := s.partOfCl (clusterOf site)
/-- Whether a core lies in a partition; one whose quarter no mask holds lies in none (R380). -/
def State.inPart (s : State) (p site : Nat) : Bool := s.partOf site == p && (s.part p).mask.testBit (clusterOf site / 16)

/-- Whether a gang switch has stopped a partition: its agreed time has come, or it runs (R385). -/
def State.stopped (s : State) (p : Nat) : Bool :=
  let x := s.part p
  x.gsstat.toNat % 4 == 2 || (x.gsstat.toNat % 4 == 1 && decide (x.gswt.toNat ≤ s.gtime))

/-- The clusters of a partition in increasing number (R253, R380). -/
def Part.clusters (p : Part) : List Nat :=
  ((List.range 16).filter fun q => p.mask.testBit q).flatMap fun q => (List.range 16).map fun i => 16 * q + i
/-- The sites of a partition by cluster and local index. -/
def Part.sites (p : Part) : List Nat := p.clusters.flatMap fun c => (List.range 16).map (siteOf c)

/-- Whether a site carries a core that is neither fused off nor retired. -/
def State.enabled (s : State) (site : Nat) : Bool := !s.fused.contains site && (s.core site).life != .retired

/-- Whether a cluster has an enabled core (R15). -/
def State.populated (s : State) (cl : Nat) : Bool := (List.range 16).any fun i => s.enabled (siteOf cl i)

/-- The logical core number of a site: die × 1,024 plus its position in the map (R18, R20). -/
def State.logical (s : State) (site : Nat) : Nat := dieOf site * 1024 + ((s.core site).pos.getD 0xFFF)
/-- The site of a logical core number, if it names a core. -/
def State.siteOfLogical (s : State) (n : Nat) : Option Nat :=
  match s.cores.find? fun e => e.2.pos == some (n % 1024) && dieOf e.1 == n / 1024 && s.enabled e.1 with
  | some e => some e.1
  | none => none

/-! ## Instruction caches (R14, R438) -/

/-- The lines of the 32 KiB instruction cache (R14). -/
def icacheLines : Nat := 512

/-- A line put into the instruction cache; a full one drops its first line in the order of ASID and address that is not exempt from
replacement, and one whose every line is exempt does not take it.  DESIGN CHOICE, log entry 103. -/
def Core.cacheLine (c : Core) (key : Nat) (bs : List Byte) : Core :=
  if (tget c.icache key).isSome || decide (c.icache.length < icacheLines) then { c with icache := tset c.icache key bs }
  else
    match c.icache.find? fun e => !c.imaged.contains e.1 with
    | some e => { c with icache := tset (tdel c.icache e.1) key bs }
    | none => c

/-- Lines of the instruction cache dropped by name (R78, R256). -/
def Core.dropCode (c : Core) (p : Nat → Bool) : Core :=
  { c with icache := c.icache.filter fun e => !p e.1, imaged := c.imaged.filter fun k => !p k }

/-! ## Fields of words -/

/-- The field of `n` bits at bit `lo` of a word. -/
def wfld (x : Word) (lo n : Nat) : Nat := x.toNat / 2 ^ lo % 2 ^ n
/-- A word with a field replaced. -/
def wput (x : Word) (lo n v : Nat) : Word :=
  BitVec.ofNat 64 (x.toNat - wfld x lo n * 2 ^ lo + v % 2 ^ n * 2 ^ lo)
/-- The word of a natural number. -/
def W (n : Nat) : Word := BitVec.ofNat 64 n

/-- A virtual address is canonical when bits [63:54] are zero (R245). -/
def canonical (a : Word) : Bool := wfld a 54 10 == 0

/-! ## Context lines -/

/-- The wait kind and detail (R60). -/
def Line.wtKind (l : Line) : Nat := l.wt.toNat / 2 ^ 28
/-- The detail of the wait tag. -/
def Line.wtDetail (l : Line) : Nat := l.wt.toNat % 2 ^ 28
/-- A wait tag. -/
def mkWt (kind detail : Nat) : BitVec 32 := BitVec.ofNat 32 (kind * 2 ^ 28 + detail % 2 ^ 28)
/-- TSW.PRIV (R59). -/
def Line.priv (l : Line) : Nat := wfld l.tsw 0 2
/-- TSW.MX. -/
def Line.mx (l : Line) : Bool := l.tsw.getLsbD 2
/-- TSW.AP. -/
def Line.ap (l : Line) : Bool := l.tsw.getLsbD 3
/-- TSW.SVC. -/
def Line.svc (l : Line) : Bool := l.tsw.getLsbD 4
/-- TSW.HELD. -/
def Line.held (l : Line) : Bool := l.tsw.getLsbD 5
/-- TSW.ABAR. -/
def Line.abar (l : Line) : Nat := wfld l.tsw 8 6
/-- TSW.TND. -/
def Line.tnd (l : Line) : Nat := wfld l.tsw 14 2
/-- TSW.DLX. -/
def Line.dlx (l : Line) : Nat := wfld l.tsw 16 8
/-- TSW.WK. -/
def Line.wk (l : Line) : Bool := l.tsw.getLsbD 24
/-- SPACE fields (R58); a priority above 15 reads as 15 (R61). -/
def Line.asid (l : Line) : Nat := wfld l.space 0 16
/-- The partition. -/
def Line.part (l : Line) : Nat := wfld l.space 16 8
/-- The kernel ID. -/
def Line.kid (l : Line) : Nat := wfld l.space 24 16
/-- The priority. -/
def Line.prio (l : Line) : Nat := min (wfld l.space 40 8) 15

/-- A line with a field of TSW replaced. -/
def Line.setTsw (l : Line) (lo n v : Nat) : Line := { l with tsw := wput l.tsw lo n v }

/-- The 128 bytes of a line (R58). -/
def Line.bytes (l : Line) : List Byte :=
  leBytes 8 l.pc.toNat ++ leBytes 8 l.wid.toNat ++ leBytes 4 l.pw.toNat ++ leBytes 4 l.wt.toNat ++ leBytes 8 l.tsw.toNat ++
    (List.range 8).flatMap (fun i => leBytes 8 (l.v.getD i 0#64).toNat) ++
    leBytes 8 l.cause.toNat ++ leBytes 8 l.faddr.toNat ++ leBytes 8 l.link.toNat ++ leBytes 8 l.space.toNat

/-- A line with its 128 bytes replaced and its tag kept (R70).  DESIGN CHOICE, log entry 13. -/
def Line.ofBytes (l : Line) (bs : List Byte) : Line :=
  { l with
    pc := W (leField bs 0 8), wid := W (leField bs 8 8), pw := BitVec.ofNat 32 (leField bs 16 4),
    wt := BitVec.ofNat 32 (leField bs 20 4), tsw := W (leField bs 24 8),
    v := (List.range 8).map (fun i => W (leField bs (32 + 8 * i) 8)), cause := W (leField bs 96 8),
    faddr := W (leField bs 104 8), link := W (leField bs 112 8), space := W (leField bs 120 8) }

/-- KIND of a load (R366). -/
def kLoadCode : Nat := 2

/-- A line whose bytes are all zero and whose tag is empty.  DESIGN CHOICE, log entry 13. -/
def Line.blank : Line :=
  { pc := 0#64, wid := 0#64, pw := 0#32, wt := 0#32, tsw := 0#64, v := List.replicate 8 0#64, cause := 0#64, faddr := 0#64,
    link := 0#64, space := 0#64, cid := 0, gen := 0, life := .live, place := .mem, bound := none, lastSlot := 0, stamp := 0, agedFrom := 0,
    waitFrom := 0, pwc := 0, pdc := 0, anchor := none, trg := false, seeded := false, bindCode := 0, bindUnit := 0,
    lastCl := 0, lastReply := 0, touched := false, ipc := 0#64, ienc := 0#32, ilen := 0, pend := none, heldFaults := [], popWait := none, away := false,
    waitAddr := 0#64, waitKs := (kLoadCode, 0xF), acqTo := 0 }

/-- The predicate of a number; p0 reads 1 (R26). -/
def Line.pred (l : Line) (p : Nat) : Bool := if p = 0 then true else l.pw.getLsbD p

/-- A line with a predicate written; a write to p0 is discarded (R26). -/
def Line.setPred (l : Line) (p : Nat) (b : Bool) : Line :=
  if p = 0 then l
  else { l with pw := if b then l.pw ||| (1#32 <<< p) else l.pw &&& ~~~(1#32 <<< p) }

/-- A line with flags ORed into PW (R86). -/
def Line.orFlags (l : Line) (f : Flags) : Line := { l with pw := l.pw ||| f.bits }

/-- Whether a guard holds: p(g) xor n = 1 (R27). -/
def Line.guard (l : Line) (g : Guard) : Bool := l.pred g.p.val != g.n

/-- A line that becomes READY: WT := 0 and a new ready stamp (R63, R65). -/
def Line.ready (l : Line) (now : Nat) : Line := { l with wt := 0#32, stamp := now, agedFrom := now, pend := none, popWait := none }

/-- A live line READY by its wait tag (R62). -/
def Line.isReady (l : Line) : Bool := l.life == .live && l.wtKind == 0

/-! ## Memory -/

/-- The address spaces of R245 and R353, as multiples of 2^52 in one numbering of global addresses. -/
def gHost : Nat := 2 ^ 52
/-- The device register map. -/
def gDev : Nat := 2 * 2 ^ 52
/-- The physical space of a peer.  DESIGN CHOICE, log entry 32. -/
def gPeer (n : Nat) : Nat := (3 + n) * 2 ^ 52
/-- The end of HBM: 384 GiB (R245). -/
def hbmEnd : Nat := 0x006000000000

/-- The byte at a global address: a live line's bytes stand for the memory below them (R70). -/
def State.rdByte (s : State) (ga : Nat) : Byte :=
  match s.line? (ga / 128) with
  | some l => if l.life == .live || l.life == .exited then l.bytes.getD (ga % 128) 0#8 else memGet s.mem ga
  | none => memGet s.mem ga

/-- Bytes from a global address upwards.  DESIGN CHOICE, log entry 32. -/
def State.rd (s : State) (ga n : Nat) : List Byte := (List.range n).map fun i => s.rdByte (ga + i)

/-- A little-endian number of `n` bytes at a global address. -/
def State.rdNat (s : State) (ga n : Nat) : Nat := leNat (s.rd ga n)

/-- One byte written at a global address, into a live line's bytes or into memory. -/
def State.wrByte (s : State) (ga : Nat) (b : Byte) : State :=
  match s.line? (ga / 128) with
  | some l =>
    if l.life == .live || l.life == .exited then s.setLine (ga / 128) (l.ofBytes (l.bytes.set (ga % 128) b))
    else { s with mem := memSet s.mem ga b }
  | none => { s with mem := memSet s.mem ga b }

/-- Bytes written from a global address upwards.  DESIGN CHOICE, log entry 32. -/
def State.wr (s : State) (ga : Nat) (bs : List Byte) : State :=
  match bs with
  | [] => s
  | b :: rest => (s.wrByte ga b).wr (ga + 1) rest

/-! ## Messages -/

/-- The state with one more message in the network. -/
def State.send (s : State) (src dst : Node) (vn : Nat) (b : Body) : State :=
  { s with net := s.net ++ [{ id := s.nextId, src := src, dst := dst, vn := vn, body := b }], nextId := s.nextId + 1 }

/-! ## Die edges on a message's way (R12, R13, R347, R350) -/

/-- Whether a die-to-die edge is FAULTED, in either direction; edges 0 to 3 are 0–1, 2–3, 0–2 and 1–3 (R12, R347).
DEDUCED, log entry 73. -/
def State.edgeDown (s : State) (e : Nat) : Bool :=
  [2 * e, 2 * e + 1].any fun i => ((tget s.links i).map fun l => l.st == .faulted).getD false

/-- The edges that a message crosses between two dies, first along X and then along Y (R13). -/
def edgesBetween (a b : Nat) : List Nat :=
  (if a % 2 = b % 2 then [] else [a / 2]) ++ (if a / 2 = b / 2 then [] else [2 + b % 2])

/-- Whether a die-to-die edge carries nothing for now: it is TRAINING or DOWN, in either direction (R350).  A direction without a record, which
nothing has enabled since power-up, holds nothing back.  DEDUCED, log entry 73. -/
def State.edgeWaits (s : State) (e : Nat) : Bool :=
  [2 * e, 2 * e + 1].any fun i => ((tget s.links i).map fun l => l.st == .training || l.st == .down).getD false

/-- Whether messages between two dies wait in their buffers: an edge on the way is not carrying traffic (R350). -/
def State.pathWaits (s : State) (a b : Nat) : Bool := (edgesBetween a b).any s.edgeWaits

/-- The die on which an end point of the networks stands, where it has one; an answer goes to the core or cluster that holds its line. -/
def State.nodeDie (s : State) (n : Node) : Option Nat :=
  match n with
  | .core site => some (dieOf site)
  | .slice cl | .engine cl => some (dieOfCl cl)
  | .die d => some d
  | .line key =>
    match (s.line? key).map Line.place with
    | some (.l1 site) => some (dieOf site)
    | some (.l2 cl) => some (dieOfCl cl)
    | some .mem | none => none
  | .placer _ | .desc _ | .regulator | .port _ => none

/-- Whether flits of a message are on a die edge: one is sent and not accepted, or the last is not sent yet (R346, R349). -/
def State.inFlits (s : State) (m : Nat) : Bool :=
  s.links.any fun e => decide (e.1 < 100) &&
    ((e.2.replay.any fun x => x.body.msg == m && decide (e.2.rxSeq ≤ x.sq)) || e.2.partly.any fun x => x.2.1 == m)

/-- Whether a message waits in the buffers of an edge that carries nothing for now, or has flits on one (R346, R350). -/
def State.msgWaits (s : State) (x : Msg) : Bool :=
  s.inFlits x.id || match s.nodeDie x.src, s.nodeDie x.dst with
  | some a, some b => s.pathWaits a b
  | _, _ => false

/-- Whether an invalidation of a group is on its way. -/
def State.openGroup (s : State) (grp : Nat) : Bool :=
  s.net.any fun y => match y.body with
    | .inval g _ _ _ => g == grp
    | _ => false

/-- Whether a message is not sent yet, for the order of R226: an acknowledgement whose write is not performed, a mirror write that the
home keeps, and what has arrived and waits at a slice or at the recovery-point unit, which take it in an order of their own. -/
def State.unsent (s : State) (b : Body) : Bool :=
  match b with
  | .ack _ _ grp _ _ | .eack _ _ grp _ _ _ => s.openGroup grp
  | .mirror _ _ _ _ _ | .mirrorPend _ _ | .req _ _ _ _ _ | .acc _ | .hostReq _ _ _ | .bisnp _ _ _ | .hostAcc _ _ _ _ | .rcp _ _ _ true | .commit _ _ => true
  | _ => false

/-- A message that may be delivered: none before it has its end points and network, and every edge on its way carries traffic (R226,
R345, R350). -/
def State.msg? (s : State) (m : Nat) : Option Msg :=
  match s.net.find? fun x => x.id == m with
  | none => none
  | some x =>
    let before (y : Msg) : Bool := decide (y.id < m) && y.src == x.src && y.dst == x.dst && y.vn == x.vn && !s.unsent y.body
    if s.net.any before || s.msgWaits x then none else some x

/-- Whether a visitor invalidation for a die that was sent before a message is not applied yet (R163, R236). -/
def State.invalsBefore (s : State) (die bound : Nat) : Bool :=
  s.net.any fun y => decide (y.id < bound) && match y.body with
    | .inval _ _ d _ => d == die
    | _ => false

/-- Every message on its way: those in the network and those that a gang switch still has to re-inject (R387). -/
def State.inFlight (s : State) : List Msg := s.net ++ s.parts.flatMap fun p => p.2.reinject

/-- The state without a message. -/
def State.drop (s : State) (m : Nat) : State := { s with net := s.net.filter fun x => x.id != m }

/-- A message whose contents change while it stays in its place. -/
def State.rebody (s : State) (m : Nat) (b : Body) : State :=
  { s with net := s.net.map fun x => if x.id == m then { x with body := b } else x }

/-- A new number for an operation that a drain may wait for. -/
def State.newOp (s : State) (i : OpInfo) : Nat × State :=
  (s.nextId, { s with ops := tset s.ops s.nextId i, nextId := s.nextId + 1 })

/-- The operation is complete (R164). -/
def State.endOp (s : State) (tok : Nat) : State := { s with ops := tdel s.ops tok }

/-- Whether a completion signal of a copy, its bytes' arrival or its semaphore post, is still to be made (R188, R190). -/
def State.signalsOpen (s : State) (tok : Nat) : Bool :=
  tok != 0 && s.inFlight.any fun y => match y.body with
    | .semPost _ _ op | .bytes _ _ _ _ _ _ op => op == tok
    | _ => false

/-- The operation is complete once its semaphore post and its completion word are made too, and its writes are performed at sys scope
(R164, R188, R190). -/
def State.doneOp (s : State) (tok : Nat) : State :=
  let open_ := s.inFlight.any fun y => match y.body with
    | .semPost _ _ op => op == tok
    | .req _ _ (.engAdd _ _) t _ => t == tok
    | .acc b => b.tok == tok && match b.k with
        | .engAdd _ _ => true
        | _ => false
    | .eack _ t _ _ _ ends => ends && t == tok
    | .fault _ _ _ _ t _ _ => t == tok
    | _ => false
  if open_ then s
  else match tget s.ops tok with
    | some o => if o.late.any s.openGroup then { s with ops := tset s.ops tok { o with done := true } } else s.endOp tok
    | none => s

/-- A write of an operation is performed at the operation's scope while invalidations of it on other dies are on their way (R239). -/
def State.lateOp (s : State) (tok grp : Nat) : State :=
  match tget s.ops tok with
  | some o => { s with ops := tset s.ops tok { o with late := grp :: o.late } }
  | none => s

/-- The operations that waited only for invalidations which are now all applied are complete (R164). -/
def State.settleOps (s : State) : State := { s with ops := s.ops.filter fun o => !(o.2.done && !(o.2.late.any s.openGroup)) }

/-- The message leaves a core towards the network: requests go to the translation slice. -/
def regVn : Nat := 0
/-- The reply network (R345). -/
def vnReply : Nat := 1
/-- The control network. -/
def vnControl : Nat := 2
/-- The service network. -/
def vnService : Nat := 3

/-! ## The issuing context -/

/-- The context that a slot issues from: the site and slot, the line, the core and the kernel slot hosting it. -/
structure Env where
  site : Nat
  slot : Nat
  key : Nat
  line : Line
  core : Core
  ks : Nat
  deriving DecidableEq, Repr

/-- The kernel slot of a core that hosts a kernel of a partition. -/
def Core.slotOf (c : Core) (part kid : Nat) : Option Nat :=
  c.ks.findIdx? fun k => k.kid == some kid && k.part == part

/-- The slot whose turn it is: cycle mod 8 (R64). -/
def State.slot (s : State) : Nat := s.cycle % 8

/-- A context has acquired what others released: it issues nothing until every visitor invalidation sent to its die so far is applied
(R232, R235).  DEDUCED, log entry 95. -/
def State.acquires (s : State) (key : Nat) : State :=
  match s.line? key with
  | some l => s.moveLine key { l with acqTo := s.nextId }
  | none => s

/-- The context that the current core's current slot issues from: its bound line, live and not waiting, of a kernel the
core hosts, with what it has acquired in sight. -/
def State.env? (s : State) : Option Env :=
  let c := s.core s.cur
  match tget c.bound s.slot with
  | none => none
  | some key =>
    match s.line? key with
    | none => none
    | some l =>
      if l.isReady && c.life == .active && !s.invalsBefore (dieOf s.cur) l.acqTo then
        match c.slotOf l.part l.kid with
        | some k => some { site := s.cur, slot := s.slot, key := key, line := l, core := c, ks := k }
        | none => none
      else none

/-- The state with the issuing context's line and core written back; the line has changed since its fill (R394). -/
def State.put (s : State) (e : Env) : State :=
  { s with lines := tset s.lines e.key { e.line with touched := true }, cores := tset s.cores e.site e.core }

/-- The kernel slot record of the issuing context. -/
def Env.kslot (e : Env) : KSlot := e.core.ks.getD e.ks KSlot.reset

/-- The value of a register field (R26). -/
def Env.reg (e : Env) (r : Reg) : Word :=
  if r.val < 8 then e.line.v.getD r.val 0#64 else e.kslot.s.getD (r.val - 8) 0#64

/-- The register after a register of the same bank (R26). -/
def Reg.succ (r : Reg) : Reg := r + 1

/-- A kernel slot with an s register written in issue cycle `cycle` at rank `rank`: a lower rank in the same cycle is
discarded (R72). -/
def KSlot.setS (k : KSlot) (cycle rank i : Nat) (v : Word) : KSlot :=
  let old := k.stamps.getD i (0, 0)
  if old.1 = cycle + 1 ∧ rank < old.2 then k
  else { k with s := k.s.set i v, stamps := k.stamps.set i (cycle + 1, rank) }

/-- Whether an s register has had its one memory reply, or its one long-operation completion, of an issue cycle (R72). -/
def KSlot.busy (k : KSlot) (cycle : Nat) (mem : Bool) (i : Nat) : Bool :=
  let x := k.answered.getD i (0, 0)
  (if mem then x.1 else x.2) == cycle + 1

/-- A kernel slot whose s register takes an answer in an issue cycle (R72). -/
def KSlot.noteAnswer (k : KSlot) (cycle : Nat) (mem : Bool) (i : Nat) : KSlot :=
  let x := k.answered.getD i (0, 0)
  { k with answered := k.answered.set i (if mem then (cycle + 1, x.2) else (x.1, cycle + 1)) }

/-- A core with a kernel slot replaced. -/
def Core.setKs (c : Core) (i : Nat) (k : KSlot) : Core := { c with ks := c.ks.set i k }

/-- The issuing context with a register written (R72: an issuing instruction's write ranks highest for its slot). -/
def Env.setReg (e : Env) (cycle : Nat) (r : Reg) (v : Word) : Env :=
  if r.val < 8 then { e with line := { e.line with v := e.line.v.set r.val v } }
  else { e with core := e.core.setKs e.ks (e.kslot.setS cycle (e.slot * 3 + 2) (r.val - 8) v) }

/-- The issuing context with its PC advanced. -/
def Env.adv (e : Env) (n : Nat) : Env := { e with line := { e.line with pc := e.line.pc + W n } }

/-- The issuing context with a wait tag written. -/
def Env.wait (e : Env) (now kind detail : Nat) : Env :=
  { e with line := { e.line with wt := mkWt kind detail, waitFrom := now } }

/-- Who the issuing context is, with the instruction being executed. -/
def State.who (s : State) (e : Env) : Who :=
  { key := e.key, gen := e.line.gen, site := e.site, slot := e.slot, ks := e.ks, part := e.line.part, asid := e.line.asid, priv := e.line.priv,
    pc := e.line.pc, enc := s.fetched, len := s.flen }

/-- The line remembers the instruction it waits for. -/
def Env.note (s : State) (e : Env) : Env :=
  { e with line := { e.line with ipc := e.line.pc, ienc := s.fetched, ilen := s.flen } }

/-! ## Trace (R378, R379) -/

/-- The 64-bit word of a trace record. -/
def traceWord (kind slot ks payload : Nat) : Nat := kind * 2 ^ 60 + slot * 2 ^ 57 + ks * 2 ^ 55 + payload % 2 ^ 54

/-- The trace freezes; with REP set a report is due (R379). -/
def Trace.freeze (t : Trace) : Trace := { t with ctl := wput t.ctl 11 1 1, post := none, due := t.ctl.getLsbD 12 }

/-- A trace buffer with a record written, unless it is disabled, frozen or does not record the kind. -/
def Trace.record (t : Trace) (now kind slot ks payload : Nat) : Trace :=
  if t.ctl.getLsbD 0 && !t.ctl.getLsbD 11 && t.ctl.getLsbD kind then
    let t := { t with
      recs := tset t.recs t.next (now, traceWord kind slot ks payload)
      next := (t.next + 1) % 1024
      wrapped := t.wrapped || t.next == 1023 }
    match t.post with
    | some 0 => t.freeze
    | some (n + 1) => if n = 0 then t.freeze else { t with post := some n }
    | none => t
  else t

/-- The trigger of R379 fires: `POST` more records, then the trace freezes. -/
def Trace.trigger (t : Trace) (fires : Bool) : Trace :=
  if fires && t.ctl.getLsbD 0 && !t.ctl.getLsbD 11 && t.post.isNone then
    if wfld t.ctl 36 10 = 0 then t.freeze else { t with post := some (wfld t.ctl 36 10) }
  else t

/-- A fault that the core takes is recorded, and fires the trigger of its class (R378, R379). -/
def Trace.fault (t : Trace) (now slot ks : Nat) (f : Flt) : Trace :=
  let t := t.record now 4 slot ks (f.sub * 256 + f.cls)
  t.trigger (wfld t.ctl 8 3 == 1 && wfld t.ctl 16 8 == f.cls)

/-- A record of the issuing context in its core's trace buffer. -/
def Env.trace (now : Nat) (e : Env) (kind payload : Nat) : Env :=
  { e with core := { e.core with trace := e.core.trace.record now kind e.slot e.ks payload } }

/-! ## Taking a fault (R365–R373) -/

/-- The CAUSE word (R365). -/
def mkCause (enc : BitVec 32) (len : Nat) (async esc : Bool) (f : Flt) : Word :=
  W (enc.toNat * 2 ^ 32 + b2n async * 2 ^ 31 + b2n esc * 2 ^ 30 +
    (if len = 2 then 1 else if len = 4 then 2 else 0) * 2 ^ 27 + f.kind * 2 ^ 20 + f.size * 2 ^ 16 + f.sub * 2 ^ 8 + f.cls)

/-- The descriptor, the TND written and ESC of a fault of a line; no descriptor stands for a double fault (R370).
DEDUCED, log entry 60. -/
def faultRoute (l : Line) (cls : Nat) : Option (Nat × Nat × Bool) :=
  if !l.svc then some (cls, 0, false)
  else if l.priv = 2 then none
  else some (0, 1, true)

/-- The completion-tree node of an anchor remembers the largest fault class (R282). -/
def State.noteClass (s : State) (l : Line) (cls : Nat) : State :=
  match l.anchor with
  | none => s
  | some a => s.modPart l.part fun p =>
      { p with kernels := p.kernels.map fun k =>
          if k.hdr.kid == l.kid then
            { k with nodes := k.nodes.map fun n => if n.site == a && !n.standIn then { n with maxcls := max n.maxcls cls } else n }
          else k }

/-- A fault message on its way to the service table's home (R369, R314). -/
def State.pushFault (s : State) (site : Nat) (l : Option Line) (key : Option Nat) (part desc : Nat) (cause faddr : Word)
    (record : Option (List Byte)) : State :=
  s.send (.core site) (.desc part) vnService
    (.msg { part := part, desc := desc, cid := (l.map (·.cid)).getD 0, cause := cause, faddr := faddr,
            core := s.logical site, cookie := (l.map fun x => wfld x.tsw 32 32).getD 0, record := record, key := key,
            priv := (l.map (·.priv)).getD 2, svc := (l.map (·.svc)).getD false })

/-- The last 2,048 entries of a log (R422). -/
def lastEntries {α : Type} (l : List α) : List α := l.drop (l.length - 2048)

/-- An entry in the Regulator log, and in its mirror in the HBM of die 0, which holds it at once (R422).  DESIGN CHOICE, log entry 79. -/
def State.logEvent (s : State) (src : LogSrc) (cls sub detail : Nat) : State :=
  let x : LogEntry := { time := s.gtime, src := src, cls := cls, sub := sub, detail := detail }
  { s with reg := { s.reg with log := lastEntries (s.reg.log ++ [x]), logMirror := lastEntries (s.reg.logMirror ++ [x.bytes]) } }

/-- A context of a kernel is no longer live: its anchor's counts fall (R281), and LOST is noted (R282, R406). -/
def State.countOut (s : State) (l : Line) (lost : Bool) : State :=
  match l.anchor with
  | none => s
  | some a => s.modPart l.part fun p =>
      { p with kernels := p.kernels.map fun k =>
          if k.hdr.kid == l.kid then
            { k with lost := k.lost || lost, nodes := k.nodes.map fun n =>
                if n.site == a && !n.standIn then
                  { n with live := n.live - 1, untrig := if l.trg then n.untrig else n.untrig - 1,
                           err := if lost then n.err ||| 1 else n.err, exits := if lost then n.exits else n.exits + 1 }
                else n }
          else k }

/-- A context is named in no reservation queue any more; an emptied queue is freed (R158). -/
def State.unreserve (s : State) (key : Nat) : State :=
  { s with resv := (s.resv.map fun e =>
      match e.2.entries with
      | [] => e
      | h :: _ =>
        let rest := e.2.entries.filter fun x => x.who.key != key
        if h.who.key == key then (e.1, { e.2 with entries := rest, granted := false }) else (e.1, { e.2 with entries := rest })
      ).filter fun e => !e.2.entries.isEmpty }

/-- A line becomes LOST: its slot is free, its reservations are removed, its anchor counts it, answers to it are dropped
(R62, R158, R394). -/
def State.loseLine (s : State) (key : Nat) : State :=
  match s.line? key with
  | none => s
  | some l =>
    if l.life == .live then
      let s := (s.countOut l true).unreserve key
      let s := match l.place, l.bound with
        | .l1 site, some k => s.modCore site fun c => { c with bound := tdel c.bound k, emu := tdel c.emu k }
        | .l1 _, none | .mem, _ | .l2 _, _ => s
      s.setLine key { l with life := .lost, bound := none, place := .mem, pend := none, popWait := none }
    else s

/-- The double fault of R371: the line becomes LOST, the Regulator log and descriptor 0 hear of it, and a core that was
executing the line stops for containment, which meets the line in its L1 (R393).  DEDUCED, log entry 72. -/
def State.doubleFault (s : State) (key : Nat) (l : Line) (site : Nat) (running : Bool) (enc : BitVec 32) (len : Nat) (f : Flt) : State :=
  let s := s.logEvent (.core site) 0x11 3 l.cid
  let s := s.pushFault site (some l) none l.part 0 (mkCause enc len false true { f with cls := 0x11, sub := 3 }) f.faddr none
  let s := s.loseLine key
  if running then
    (s.modCore site fun c => { c with life := .containing }).modLine key fun l => { l with place := .l1 site, touched := true }
  else s

/-- An EMULATE sequence of a line is abandoned: nothing that it staged stands (R412). -/
def State.abandon (s : State) (key : Nat) : State :=
  match (s.line? key).map Line.place with
  | some (.l1 site) => s.modCore site fun c => { c with emu := c.emu.filter fun e => e.2.key != key }
  | _ => s

/-- A fault of a context, however it arrives (R369–R373): CAUSE, FADDR, TND and WT are written into its line and the
message leaves for the service table.  `mine` says that the fault ends what the line is doing (it runs, or the fault is the
answer it waits for); otherwise a waiting line holds the answer in its tag and a line parked for a fault keeps its first
cause.  `pc` is the address of an instruction that did not commit. -/
def State.faultLine (s : State) (key site : Nat) (mine running async : Bool) (enc : BitVec 32) (len : Nat) (pc : Option Word)
    (f : Flt) (record : Option (List Byte)) : State :=
  match s.line? key with
  | none => s
  | some l =>
    if l.life != .live then s
    else
      let s := s.noteClass l f.cls
      match faultRoute l f.cls with
      | none => s.doubleFault key l site running enc len f
      | some (desc, tnd, esc) =>
        let cause := mkCause enc len async esc f
        let s := s.abandon key
        let s :=
          if l.wtKind = 6 then s
          else if l.wtKind ≠ 0 ∧ mine = false then
            s.setLine key { l with heldFaults := l.heldFaults ++ [{ cause := cause, faddr := f.faddr, pc := pc }] }
          else
            let l := l.setTsw 14 2 tnd
            s.setLine key { l with
              cause := cause, faddr := f.faddr, wt := mkWt 6 0, pc := pc.getD l.pc, pend := none, popWait := none,
              waitFrom := s.gtime }
        s.pushFault site (some l) (some key) l.part desc cause f.faddr record

/-- A fault that the core detects while it executes an instruction of the issuing context: nothing of the instruction is
committed, and the line parks with PC at it (R63, R140, R369). -/
def State.raise (s : State) (e : Env) (f : Flt) : State :=
  let s := s.setCore e.site { e.core with trace := e.core.trace.fault s.gtime e.slot e.ks f }
  s.faultLine e.key e.site true true false s.fetched s.flen (some e.line.pc) f none

/-- A precise fault that a core finds in an instruction that waits: it ends the wait, and is recorded as any other (R378, R379). -/
def State.faultAt (s : State) (w : Who) (f : Flt) (running : Bool := false) : State :=
  let s := s.modCore w.site fun c => { c with trace := c.trace.fault s.gtime w.slot w.ks f }
  s.faultLine w.key w.site true running false w.enc w.len (some w.pc) f none

/-- The return from a fault (R375): what a `resume` does to the line, at its home. -/
def Line.resumed (l : Line) (mode : ResumeMode) (pc : Word) (now : Nat) : Line :=
  let lenCode := wfld l.cause 27 2
  let l := match mode with
    | .replay => l
    | .skip => { l with pc := l.pc + W (if lenCode = 1 then 2 else if lenCode = 2 then 4 else 0) }
    | .handler => { l with pc := pc }
  let l := if mode = .replay then l else l.setTsw 3 1 0
  (l.setTsw 14 2 0).ready now

/-- A line that becomes READY takes the first fault answer held in its tag; the later ones exist in their messages only
(R372).  One whose message a FAULTPATH slot has suppressed resumes it at once as `resume` mode 1 does (R414). -/
def Line.takeHeld (l : Line) : Line :=
  match l.heldFaults with
  | [] => l
  | h :: _ =>
    let l := l.setTsw 14 2 (if h.cause.getLsbD 30 then 1 else 0)
    let l := { l with cause := h.cause, faddr := h.faddr, wt := mkWt 6 0, pc := h.pc.getD l.pc, heldFaults := [] }
    if h.quiet then l.resumed .skip 0#64 l.stamp else l

/-- The wait of a line ends (R63, R68). -/
def State.makeReady (s : State) (key : Nat) : State := s.modLine key fun l => (l.ready s.gtime).takeHeld

/-- An answer decrements a wait of kind 1 or 9; the wait ends at 0 (R68). -/
def State.decWait (s : State) (key : Nat) : State :=
  match s.line? key with
  | none => s
  | some l =>
    if l.life == .live && (l.wtKind == 1 || l.wtKind == 9) then
      if l.wtDetail ≤ 1 then s.makeReady key else s.setLine key { l with wt := mkWt l.wtKind (l.wtDetail - 1) }
    else s

/-- The EMULATE sequence that an answer is addressed to, if it still runs (R412). -/
def State.emuOf? (s : State) (w : Who) : Option EmuRun := (tget (s.core w.site).emu w.slot).filter fun r => r.no == w.emu && r.key == w.key

/-- Whether an answer finds the context it is addressed to: the same one, and live; and an answer of an EMULATE sequence's load, that
sequence (R68, R393, R412). -/
def State.answers (s : State) (w : Who) : Bool :=
  match s.line? w.key with
  | some l => l.life == .live && l.gen == w.gen && (w.emu == 0 || (s.emuOf? w).isSome)
  | none => false

/-- A write of a context is performed (R138). -/
def State.decPwc (s : State) (key : Nat) : State := s.modLine key fun l => { l with pwc := l.pwc - 1 }
/-- A write of a context is durable (R138). -/
def State.decPdc (s : State) (key : Nat) : State := s.modLine key fun l => { l with pdc := l.pdc - 1 }

/-- A register of an answer, written into the line, or into the s bank of the core and kernel slot that issued the access
with the rank of its kind of answer (R68, R71, R72). -/
def State.answerReg (s : State) (w : Who) (mem : Bool) (r : Reg) (v : Word) : State :=
  if r.val < 8 then s.modLine w.key fun l => { l with v := l.v.set r.val v }
  else
    let last := ((s.line? w.key).map (·.lastSlot)).getD w.slot
    s.modCore w.site fun c =>
      c.setKs w.ks (((c.ks.getD w.ks KSlot.reset).setS s.cycle (last * 3 + b2n mem) (r.val - 8) v).noteAnswer s.cycle mem (r.val - 8))

/-- The core that holds a line records that an answer has written a predicate of it (R378). -/
def State.tracePred (s : State) (key : Nat) : State :=
  match s.line? key with
  | some l =>
    match l.place with
    | .l1 site => s.modCore site fun c =>
        { c with trace := c.trace.record s.gtime 2 l.lastSlot ((c.slotOf l.part l.kid).getD 0) (l.pw.toNat % 2 ^ 16) }
    | .mem | .l2 _ => s
  | none => s

/-- An answer's registers, flags and p15 reach their places (R50, R68). -/
def State.answer (s : State) (w : Who) (a : Answer) (mem : Bool) : State :=
  let s := a.regs.foldl (fun s x => s.answerReg w mem x.1 x.2) s
  let s := s.modLine w.key fun l => l.orFlags a.flags
  match a.p15 with
  | some b => (s.modLine w.key fun l => l.setPred 15 b).tracePred w.key
  | none => s

/-- Whether an answer must wait for the next issue cycle: an s register that it writes has had an answer of its kind in this one
(R72). -/
def State.sBusy (s : State) (w : Who) (a : Answer) (mem : Bool) : Bool :=
  a.regs.any fun r => decide (8 ≤ r.1.val) && ((s.core w.site).ks.getD w.ks KSlot.reset).busy s.cycle mem (r.1.val - 8)

/-- No register, flag or predicate. -/
def Answer.none : Answer := { regs := [], flags := Flags.none, p15 := Option.none }

/-! ## Guarded issue -/

/-- An instruction acts on the context that issues it; with no context in the slot nothing happens. -/
def withEnv (s : State) (f : Env → State) : Host.Outcome State Fault Refusal :=
  match s.env? with
  | none => .next s
  | some e => .next (f e)

/-- A guarded 32-bit instruction: a guard that fails only advances PC (R27). -/
def guarded (g : Guard) (s : State) (f : Env → State) : Host.Outcome State Fault Refusal :=
  withEnv s fun e => if e.line.guard g then f e else s.put (e.adv 4)

/-- The faults of the core's own checks (R367, R368). -/
def fltPriv (pc : Word) : Flt := { cls := 0x02, sub := 0x00, kind := 0, size := 0xF, faddr := pc }
/-- PRIV 0x01, system register (R368). -/
def fltPrivReg (pc : Word) : Flt := { cls := 0x02, sub := 0x01, kind := 0, size := 0xF, faddr := pc }
/-- ILL 0x00 (R368). -/
def fltIll (pc : Word) : Flt := { cls := 0x01, sub := 0x00, kind := 0, size := 0xF, faddr := pc }

end Sys2Proof.Machine
end

