-- ==== Sys2Proof/Machine/Forms.lean ====
section
/-! DEFINITION. The shared forms of the instructions on a context's own registers (R105–R108). -/

namespace Sys2Proof.Machine

/-- The outcome of an instruction. -/
abbrev Out := Host.Outcome State Fault Refusal

/-- A fixed-latency instruction of `len` bytes: rd is written and PC advances (R105, R106, R108). -/
def Env.commit (e : Env) (cycle : Nat) (len : Nat) (d : Reg) (v : Word) : Env := (e.setReg cycle d v).adv len

/-- A guarded instruction that writes rd with a value computed from the registers read at issue. -/
def computeRd (g : Guard) (s : State) (d : Reg) (f : Env → Word) : Out :=
  guarded g s fun e => s.put (e.commit s.cycle 4 d (f e))

/-- A guarded instruction that writes rd and ORs flags into PW (R86). -/
def computeRdF (g : Guard) (s : State) (d : Reg) (f : Env → Word × Flags) : Out :=
  guarded g s fun e =>
    let r := f e
    let e := e.commit s.cycle 4 d r.1
    s.put { e with line := e.line.orFlags r.2 }

/-- A 16-bit instruction that writes rd (R34, R130). -/
def computeRd16 (s : State) (d : Reg) (f : Env → Word) : Out :=
  withEnv s fun e => s.put (e.commit s.cycle 2 d (f e))

/-- A 16-bit instruction that writes rd and ORs flags into PW (R130). -/
def computeRdF16 (s : State) (d : Reg) (f : Env → Word × Flags) : Out :=
  withEnv s fun e =>
    let r := f e
    let e := e.commit s.cycle 2 d r.1
    s.put { e with line := e.line.orFlags r.2 }

/-- An unguarded 32-bit instruction that writes rd. -/
def computeRdU (s : State) (d : Reg) (f : Env → Word) : Out :=
  withEnv s fun e => s.put (e.commit s.cycle 4 d (f e))

/-- A long instruction: WT := 0x9000_0001, and its result returns as a long-operation completion (R106). -/
def longOp (g : Guard) (s : State) (d : Reg) (f : Env → Word × Flags) : Out :=
  guarded g s fun e =>
    let r := f e
    let w := s.who e
    let s1 := s.put ((e.note s).adv 4 |>.wait s.gtime 9 1)
    s1.send (.core e.site) (.line e.key) vnReply (.longDone w d r.1 r.2)

/-- A guarded instruction that writes predicates (R118), recorded in the trace (R378). -/
def computePred (g : Guard) (s : State) (f : Env → Line) : Out :=
  guarded g s fun e =>
    let e := { e with line := f e }
    s.put ((e.trace s.gtime 2 (e.line.pw.toNat % 2 ^ 16)).adv 4)

end Sys2Proof.Machine
end

