-- ==== Sys2Proof/Machine/Alu.lean ====
section
/-! DEFINITION. Integer arithmetic and logic, immediates, shifts, moves, bit operations and division (R110–R115) and their 16-bit forms (R130). -/

namespace Sys2Proof.Machine

/-! ## Majors 0x00 and the 16-bit forms -/

/-- The lanes of `add` (R110). -/
def addWord (t : LaneType) (a b : Word) : Word := lanes2 t.width (fun x y => (x + y) % 2 ^ t.width) a b

/-- `add.t rd, ra, rb` (R110). -/
def execAdd (g : Guard) (t : LaneType) (d a b : Reg) (s : State) : Out :=
  computeRd g s d fun e => addWord t (e.reg a) (e.reg b)

/-- The lanes of `sub` (R110). -/
def subWord (t : LaneType) (a b : Word) : Word := lanes2 t.width (fun x y => wrap t.width ((x : Int) - y)) a b

/-- `sub.t rd, ra, rb` (R110). -/
def execSub (g : Guard) (t : LaneType) (d a b : Reg) (s : State) : Out :=
  computeRd g s d fun e => subWord t (e.reg a) (e.reg b)

/-- The lanes of `and` (R110). -/
def andWord (t : LaneType) (a b : Word) : Word := lanes2 t.width (fun x y => x &&& y) a b

/-- `and.t rd, ra, rb` (R110). -/
def execAnd (g : Guard) (t : LaneType) (d a b : Reg) (s : State) : Out :=
  computeRd g s d fun e => andWord t (e.reg a) (e.reg b)

/-- The lanes of `or` (R110). -/
def orWord (t : LaneType) (a b : Word) : Word := lanes2 t.width (fun x y => x ||| y) a b

/-- `or.t rd, ra, rb` (R110). -/
def execOr (g : Guard) (t : LaneType) (d a b : Reg) (s : State) : Out :=
  computeRd g s d fun e => orWord t (e.reg a) (e.reg b)

/-- The lanes of `xor` (R110). -/
def xorWord (t : LaneType) (a b : Word) : Word := lanes2 t.width (fun x y => x ^^^ y) a b

/-- `xor.t rd, ra, rb` (R110). -/
def execXor (g : Guard) (t : LaneType) (d a b : Reg) (s : State) : Out :=
  computeRd g s d fun e => xorWord t (e.reg a) (e.reg b)

/-- The lanes of `shl` (R110). -/
def shlWord (t : LaneType) (a b : Word) : Word := lanes2 t.width (fun x y => shlLane t.width x (shiftCount t.width y)) a b

/-- `shl.t rd, ra, rb` (R110). -/
def execShl (g : Guard) (t : LaneType) (d a b : Reg) (s : State) : Out :=
  computeRd g s d fun e => shlWord t (e.reg a) (e.reg b)

/-- The lanes of `shr` (R110). -/
def shrWord (t : LaneType) (a b : Word) : Word := lanes2 t.width (fun x y => shrLane x (shiftCount t.width y)) a b

/-- `shr.t rd, ra, rb` (R110). -/
def execShr (g : Guard) (t : LaneType) (d a b : Reg) (s : State) : Out :=
  computeRd g s d fun e => shrWord t (e.reg a) (e.reg b)

/-- The lanes of `sra` (R110). -/
def sraWord (t : LaneType) (a b : Word) : Word := lanes2 t.width (fun x y => sraLane t.width x (shiftCount t.width y)) a b

/-- `sra.t rd, ra, rb` (R110). -/
def execSra (g : Guard) (t : LaneType) (d a b : Reg) (s : State) : Out :=
  computeRd g s d fun e => sraWord t (e.reg a) (e.reg b)

/-- The lanes of `mul` (R110). -/
def mulWord (t : LaneType) (a b : Word) : Word := lanes2 t.width (fun x y => x * y % 2 ^ t.width) a b

/-- `mul.t rd, ra, rb` (R110). -/
def execMul (g : Guard) (t : LaneType) (d a b : Reg) (s : State) : Out :=
  computeRd g s d fun e => mulWord t (e.reg a) (e.reg b)

/-- The lanes of `mulh` (R110). -/
def mulhWord (t : LaneType) (a b : Word) : Word := lanes2 t.width (fun x y => wrap t.width (signed t.width x * signed t.width y / 2 ^ t.width)) a b

/-- `mulh.t rd, ra, rb` (R110). -/
def execMulh (g : Guard) (t : LaneType) (d a b : Reg) (s : State) : Out :=
  computeRd g s d fun e => mulhWord t (e.reg a) (e.reg b)

/-- The lanes of `mulhu` (R110). -/
def mulhuWord (t : LaneType) (a b : Word) : Word := lanes2 t.width (fun x y => x * y / 2 ^ t.width) a b

/-- `mulhu.t rd, ra, rb` (R110). -/
def execMulhu (g : Guard) (t : LaneType) (d a b : Reg) (s : State) : Out :=
  computeRd g s d fun e => mulhuWord t (e.reg a) (e.reg b)

/-- The lanes of `min` (R110). -/
def minWord (t : LaneType) (a b : Word) : Word := lanes2 t.width (minS t.width) a b

/-- `min.t rd, ra, rb` (R110). -/
def execMin (g : Guard) (t : LaneType) (d a b : Reg) (s : State) : Out :=
  computeRd g s d fun e => minWord t (e.reg a) (e.reg b)

/-- The lanes of `max` (R110). -/
def maxWord (t : LaneType) (a b : Word) : Word := lanes2 t.width (maxS t.width) a b

/-- `max.t rd, ra, rb` (R110). -/
def execMax (g : Guard) (t : LaneType) (d a b : Reg) (s : State) : Out :=
  computeRd g s d fun e => maxWord t (e.reg a) (e.reg b)

/-- The lanes of `minu` (R110). -/
def minuWord (t : LaneType) (a b : Word) : Word := lanes2 t.width (fun x y => if x ≤ y then x else y) a b

/-- `minu.t rd, ra, rb` (R110). -/
def execMinu (g : Guard) (t : LaneType) (d a b : Reg) (s : State) : Out :=
  computeRd g s d fun e => minuWord t (e.reg a) (e.reg b)

/-- The lanes of `maxu` (R110). -/
def maxuWord (t : LaneType) (a b : Word) : Word := lanes2 t.width (fun x y => if x ≤ y then y else x) a b

/-- `maxu.t rd, ra, rb` (R110). -/
def execMaxu (g : Guard) (t : LaneType) (d a b : Reg) (s : State) : Out :=
  computeRd g s d fun e => maxuWord t (e.reg a) (e.reg b)

/-- `mov.t rd, ra` copies all 64 bits (R110). -/
def execMov (g : Guard) (_t : LaneType) (d a : Reg) (s : State) : Out :=
  computeRd g s d fun e => e.reg a

/-- `mov.n rd, rs` copies all 64 bits (R130). -/
def execMov16 (_t : LaneType) (d r : Reg) (s : State) : Out :=
  computeRd16 s d fun e => e.reg r

/-- `add.n.t rd, rs` is the 32-bit `add` with rd as first source (R34, R130). -/
def execAdd16 (t : LaneType) (d r : Reg) (s : State) : Out :=
  computeRd16 s d fun e => addWord t (e.reg d) (e.reg r)

/-- `sub.n.t rd, rs` is the 32-bit `sub` with rd as first source (R34, R130). -/
def execSub16 (t : LaneType) (d r : Reg) (s : State) : Out :=
  computeRd16 s d fun e => subWord t (e.reg d) (e.reg r)

/-- `and.n.t rd, rs` is the 32-bit `and` with rd as first source (R34, R130). -/
def execAnd16 (t : LaneType) (d r : Reg) (s : State) : Out :=
  computeRd16 s d fun e => andWord t (e.reg d) (e.reg r)

/-- `or.n.t rd, rs` is the 32-bit `or` with rd as first source (R34, R130). -/
def execOr16 (t : LaneType) (d r : Reg) (s : State) : Out :=
  computeRd16 s d fun e => orWord t (e.reg d) (e.reg r)

/-- `xor.n.t rd, rs` is the 32-bit `xor` with rd as first source (R34, R130). -/
def execXor16 (t : LaneType) (d r : Reg) (s : State) : Out :=
  computeRd16 s d fun e => xorWord t (e.reg d) (e.reg r)

/-- `shl.n.t rd, rs` is the 32-bit `shl` with rd as first source (R34, R130). -/
def execShl16 (t : LaneType) (d r : Reg) (s : State) : Out :=
  computeRd16 s d fun e => shlWord t (e.reg d) (e.reg r)

/-- `shr.n.t rd, rs` is the 32-bit `shr` with rd as first source (R34, R130). -/
def execShr16 (t : LaneType) (d r : Reg) (s : State) : Out :=
  computeRd16 s d fun e => shrWord t (e.reg d) (e.reg r)

/-- `sra.n.t rd, rs` is the 32-bit `sra` with rd as first source (R34, R130). -/
def execSra16 (t : LaneType) (d r : Reg) (s : State) : Out :=
  computeRd16 s d fun e => sraWord t (e.reg d) (e.reg r)

/-- `mul.n.t rd, rs` is the 32-bit `mul` with rd as first source (R34, R130). -/
def execMul16 (t : LaneType) (d r : Reg) (s : State) : Out :=
  computeRd16 s d fun e => mulWord t (e.reg d) (e.reg r)

/-- `min.n.t rd, rs` is the 32-bit `min` with rd as first source (R34, R130). -/
def execMin16 (t : LaneType) (d r : Reg) (s : State) : Out :=
  computeRd16 s d fun e => minWord t (e.reg d) (e.reg r)

/-- `max.n.t rd, rs` is the 32-bit `max` with rd as first source (R34, R130). -/
def execMax16 (t : LaneType) (d r : Reg) (s : State) : Out :=
  computeRd16 s d fun e => maxWord t (e.reg d) (e.reg r)

/-! ## Immediates, shifts by immediate, moves (R111–R113) -/

/-- `addi rd, ra, imm12` on all 64 bits (R111). -/
def execAddi (g : Guard) (d a : Reg) (i : BitVec 12) (s : State) : Out :=
  computeRd g s d fun e => e.reg a + simm i

/-- `andi rd, ra, imm12` on all 64 bits (R111). -/
def execAndi (g : Guard) (d a : Reg) (i : BitVec 12) (s : State) : Out :=
  computeRd g s d fun e => e.reg a &&& simm i

/-- `ori rd, ra, imm12` on all 64 bits (R111). -/
def execOri (g : Guard) (d a : Reg) (i : BitVec 12) (s : State) : Out :=
  computeRd g s d fun e => e.reg a ||| simm i

/-- `xori rd, ra, imm12` on all 64 bits (R111). -/
def execXori (g : Guard) (d a : Reg) (i : BitVec 12) (s : State) : Out :=
  computeRd g s d fun e => e.reg a ^^^ simm i

/-- `shli.t rd, ra, shamt` (R112). -/
def execShli (g : Guard) (t : LaneType) (d a : Reg) (h : Fin 64) (s : State) : Out :=
  computeRd g s d fun e => lanes1 t.width (fun x => shlLane t.width x h.val) (e.reg a)

/-- `shri.t rd, ra, shamt` (R112). -/
def execShri (g : Guard) (t : LaneType) (d a : Reg) (h : Fin 64) (s : State) : Out :=
  computeRd g s d fun e => lanes1 t.width (fun x => shrLane x h.val) (e.reg a)

/-- `srai.t rd, ra, shamt` (R112). -/
def execSrai (g : Guard) (t : LaneType) (d a : Reg) (h : Fin 64) (s : State) : Out :=
  computeRd g s d fun e => lanes1 t.width (fun x => sraLane t.width x h.val) (e.reg a)

/-- `rori.t rd, ra, shamt` (R112). -/
def execRori (g : Guard) (t : LaneType) (d a : Reg) (h : Fin 64) (s : State) : Out :=
  computeRd g s d fun e => lanes1 t.width (fun x => rorLane t.width x h.val) (e.reg a)

/-- `movi rd, imm16, hw` (R113). -/
def execMovi (d : Reg) (i : BitVec 16) (w : Fin 4) (s : State) : Out :=
  computeRdU s d fun _ => i.zeroExtend 64 <<< (16 * w.val)

/-- `movk rd, imm16, hw` keeps the other 48 bits (R113). -/
def execMovk (d : Reg) (i : BitVec 16) (w : Fin 4) (s : State) : Out :=
  computeRdU s d fun e => (e.reg d &&& ~~~(0xFFFF#64 <<< (16 * w.val))) ||| (i.zeroExtend 64 <<< (16 * w.val))

/-! ## Bit operations (R114) -/

/-- `clz.t rd, ra` (R114). -/
def execClz (g : Guard) (t : LaneType) (d a : Reg) (s : State) : Out :=
  computeRd g s d fun e => lanes1 t.width (fun x => t.width - bitLen x) (e.reg a)

/-- `ctz.t rd, ra` (R114). -/
def execCtz (g : Guard) (t : LaneType) (d a : Reg) (s : State) : Out :=
  computeRd g s d fun e => lanes1 t.width (fun x => trailingZeros t.width x) (e.reg a)

/-- `popc.t rd, ra` (R114). -/
def execPopc (g : Guard) (t : LaneType) (d a : Reg) (s : State) : Out :=
  computeRd g s d fun e => lanes1 t.width (fun x => popCount t.width x) (e.reg a)

/-- `bswap.t rd, ra` (R114). -/
def execBswap (g : Guard) (t : LaneType) (d a : Reg) (s : State) : Out :=
  computeRd g s d fun e => lanes1 t.width (fun x => byteReverse (t.width / 8) x) (e.reg a)

/-- `brev.t rd, ra` (R114). -/
def execBrev (g : Guard) (t : LaneType) (d a : Reg) (s : State) : Out :=
  computeRd g s d fun e => lanes1 t.width (fun x => bitReverse t.width x) (e.reg a)

/-- `sext.t rd, ra` (R114). -/
def execSext (g : Guard) (t : LaneType) (d a : Reg) (s : State) : Out :=
  computeRd g s d fun e => sext64 t.width (e.reg a).toNat

/-- `zext.t rd, ra` (R114). -/
def execZext (g : Guard) (t : LaneType) (d a : Reg) (s : State) : Out :=
  computeRd g s d fun e => W ((e.reg a).toNat % 2 ^ t.width)

/-- `bext.t rd, ra, rb` (R114). -/
def execBext (g : Guard) (t : LaneType) (d a b : Reg) (s : State) : Out :=
  computeRd g s d fun e => lanes2 t.width (bextLane t.width) (e.reg a) (e.reg b)

/-- `bins.t rd, ra, rb` reads rd as a source (R114). -/
def execBins (g : Guard) (t : LaneType) (d a b : Reg) (s : State) : Out :=
  computeRd g s d fun e => lanes3 t.width (binsLane t.width) (e.reg d) (e.reg a) (e.reg b)

/-! ## Division (R115, R82): long instructions without flags -/

/-- `div.t rd, ra, rb` (R115). -/
def execDiv (g : Guard) (t : LaneType) (d a b : Reg) (s : State) : Out :=
  longOp g s d fun e => (lanes2 t.width (fun x y => (divLane true t.width x y).1) (e.reg a) (e.reg b), Flags.none)

/-- `divu.t rd, ra, rb` (R115). -/
def execDivu (g : Guard) (t : LaneType) (d a b : Reg) (s : State) : Out :=
  longOp g s d fun e => (lanes2 t.width (fun x y => (divLane false t.width x y).1) (e.reg a) (e.reg b), Flags.none)

/-- `rem.t rd, ra, rb` (R115). -/
def execRem (g : Guard) (t : LaneType) (d a b : Reg) (s : State) : Out :=
  longOp g s d fun e => (lanes2 t.width (fun x y => (divLane true t.width x y).2) (e.reg a) (e.reg b), Flags.none)

/-- `remu.t rd, ra, rb` (R115). -/
def execRemu (g : Guard) (t : LaneType) (d a b : Reg) (s : State) : Out :=
  longOp g s d fun e => (lanes2 t.width (fun x y => (divLane false t.width x y).2) (e.reg a) (e.reg b), Flags.none)

/-! ## Compares and predicates (R116–R118) -/

/-- `cmp.cc.t pd, ra, rb` compares lane 0 (R116). -/
def execCmp (g : Guard) (t : LaneType) (c : Cond) (p : Pred) (a b : Reg) (s : State) : Out :=
  computePred g s fun e => e.line.setPred p.val (testInt c t.width (lane t.width (e.reg a) 0) (lane t.width (e.reg b) 0))

/-- `cmpi.cc pd, ra, imm8` on all 64 bits (R117). -/
def execCmpi (g : Guard) (c : Cond) (p : Pred) (a : Reg) (i : BitVec 8) (s : State) : Out :=
  computePred g s fun e => e.line.setPred p.val (testInt c 64 (e.reg a).toNat (simm i).toNat)

/-- `pand pd, pa, pb` (R118). -/
def execPand (g : Guard) (d a b : Pred) (s : State) : Out :=
  computePred g s fun e =>
    let x := e.line.pred a.val
    let y := e.line.pred b.val
    e.line.setPred d.val (x && y)

/-- `por pd, pa, pb` (R118). -/
def execPor (g : Guard) (d a b : Pred) (s : State) : Out :=
  computePred g s fun e =>
    let x := e.line.pred a.val
    let y := e.line.pred b.val
    e.line.setPred d.val (x || y)

/-- `pxor pd, pa, pb` (R118). -/
def execPxor (g : Guard) (d a b : Pred) (s : State) : Out :=
  computePred g s fun e =>
    let x := e.line.pred a.val
    let y := e.line.pred b.val
    e.line.setPred d.val (x != y)

/-- `pandn pd, pa, pb` (R118). -/
def execPandn (g : Guard) (d a b : Pred) (s : State) : Out :=
  computePred g s fun e =>
    let x := e.line.pred a.val
    let y := e.line.pred b.val
    e.line.setPred d.val (x && !y)

/-- `pget rd` (R118): bit 0 reads 1. -/
def execPget (g : Guard) (d : Reg) (s : State) : Out :=
  computeRd g s d fun e => W (e.line.pw.toNat % 2 ^ 16) ||| 1#64

/-- `pput ra` writes PW[15:1]; p0 and the flags are unchanged (R118). -/
def execPput (g : Guard) (a : Reg) (s : State) : Out :=
  computePred g s fun e =>
    { e.line with pw := (e.line.pw &&& 0xFFFF0001#32) ||| ((e.reg a).setWidth 32 &&& 0x0000FFFE#32) }

/-! ## Select and address arithmetic (R119) -/

/-- `sel rd, ra, rb, pc` (R119). -/
def execSel (g : Guard) (d a b : Reg) (c : Pred) (s : State) : Out :=
  computeRd g s d fun e => if e.line.pred c.val then e.reg a else e.reg b

/-- `lea rd, ra, rb, sh` (R119). -/
def execLea (g : Guard) (d a b : Reg) (h : Fin 16) (s : State) : Out :=
  computeRd g s d fun e => e.reg a + (e.reg b <<< h.val)

/-- XLAT 0x01, non-canonical (R254).  DEDUCED, log entry 24. -/
def fltCanon (kind size : Nat) (a : Word) : Flt := { cls := 0x04, sub := 0x01, kind := kind, size := size, faddr := a }

/-- `padd rd, ra, rb`: a sum that is not canonical faults and leaves rd unchanged (R119). -/
def execPadd (g : Guard) (d a b : Reg) (s : State) : Out :=
  guarded g s fun e =>
    let t := e.reg a + e.reg b
    if canonical t then s.put (e.commit s.cycle 4 d t) else s.raise e (fltCanon 0 0xF t)

end Sys2Proof.Machine
end

