-- ==== Sys2Proof/Machine/Translate.lean ====
section
/-! DEFINITION. Translation: the slice hashes (R253), page-table entries (R246–R249), permissions and page classes (R142,
R250) and translation caches (R252), with the checks in the order of R254. -/

namespace Sys2Proof.Machine

/-! ## Slice hashes (R253) -/

/-- The XOR of the successive 16-bit groups of a number. -/
def fold16 (x : Nat) : Nat :=
  (x % 65536) ^^^ (x / 2 ^ 16 % 65536) ^^^ (x / 2 ^ 32 % 65536) ^^^ (x / 2 ^ 48 % 65536)

/-- The partition's cluster that a key picks. -/
def Part.pick (p : Part) (key : Nat) : Nat :=
  let quarters := (List.range 16).filter fun q => p.mask.testBit q
  let i := key * (16 * quarters.length) / 65536
  16 * quarters.getD (i / 16) 0 + i % 16

/-- The translation slice of a virtual page. -/
def Part.tslice (p : Part) (asid va : Nat) : Nat := p.pick (fold16 (va / 4096) ^^^ asid)

/-- The home slice of a physical line under the granule in force. -/
def Part.home (p : Part) (ga : Nat) : Nat :=
  let pa := ga % 2 ^ 52
  p.pick (if p.ilvNow = 0 then fold16 (pa / 64) else fold16 (pa / 4096))

/-! ## Page-table entries -/

/-- The base of the table a walk reads at a level and the index of an address (R247). -/
def ptIndex (va level : Nat) : Nat :=
  if level = 4 then va / 2 ^ 48 % 64 else va / 2 ^ (12 + 9 * level) % 512

/-- The size of a leaf at a level. -/
def leafSize (level : Nat) : Nat := 2 ^ (12 + 9 * level)

/-- A bad entry with V = 1 (R249). -/
def badEntry (x level : Nat) : Bool :=
  let f (lo n : Nat) := fld x lo n
  let isLeaf := x.testBit 7
  let cls := f 61 3
  let peer := x.testBit 60
  let pa := f 12 40 * 4096
  f 52 2 != 0 || x.testBit 5 || x.testBit 1 ||
  (isLeaf && decide (3 ≤ level)) || (!isLeaf && level == 0) ||
  (!isLeaf && (f 61 3 != 0 || f 54 7 != 0 || f 8 4 != 0 || f 1 6 != 0)) ||
  decide (5 ≤ cls) || (peer && cls != 0) || (f 54 6 != 0 && !peer) || (x.testBit 10 && cls != 1) ||
  (isLeaf && cls == 1 && level != 0) ||
  (isLeaf && pa % leafSize level != 0) ||
  (!isLeaf && decide (hbmEnd ≤ pa)) ||
  (isLeaf && !peer && (cls == 0 || cls == 1 || cls == 2) && decide (hbmEnd ≤ pa))

/-- The leaf of an entry, for the 4 KiB page of an address. -/
def leafOf (x level va : Nat) : Leaf :=
  { pa := fld x 12 40 * 4096 / leafSize level * leafSize level + va % leafSize level / 4096 * 4096,
    cls := fld x 61 3, peer := x.testBit 60, peerId := fld x 54 6, mir := x.testBit 10, u := x.testBit 6, x := x.testBit 4,
    w := x.testBit 3, r := x.testBit 2, d := x.testBit 8, span := leafSize level }

/-- The global address of a virtual address under a leaf (R245); a DEVICE page shows HBM too (R353). -/
def Leaf.ga (l : Leaf) (va : Nat) : Nat :=
  let pa := l.pa + va % 4096
  if l.peer then gPeer l.peerId + pa
  else if l.cls = 3 ∧ hbmEnd ≤ pa then gDev + pa
  else if l.cls = 4 then gHost + pa
  else pa

/-- A page of the checkpoint domain's discipline: REC, or APPEND with MIR (R244). -/
def Leaf.durable (l : Leaf) : Bool := l.cls == 2 || (l.cls == 1 && l.mir)

/-! ## Permissions and classes -/

/-- The permissions an access needs: read, write, execute (R250).  DEDUCED, log entry 40. -/
def Cat.needs (c : Cat) : Bool × Bool × Bool :=
  match c with
  | .load _ | .ldtail | .pref | .migr | .engRead | .record | .descRead | .commitR => (true, false, false)
  | .commitW | .store _ _ | .stc | .red | .append | .seal | .context | .engWrite _ | .wenq _ | .entryPush => (false, true, false)
  | .stashStore _ _ | .amo | .ldrw | .clean | .descPush => (true, true, false)
  | .fetch => (false, false, true)
  | .iinv => (false, false, false)

/-- Whether an access writes, so that the walker sets D (R250): every kind whose row asks for W counts.  DESIGN CHOICE, log entry 112. -/
def Cat.writes (c : Cat) : Bool := c.needs.2.1

/-- What a page class answers to an access (R142, R263, R264, R76, R78, R323): admitted, or refused with class and
subclass; an APPEND page refuses writes by its state. -/
inductive ClassVerdict where
  | ok
  | refuse (cls sub : Nat)
  | appendState
  deriving DecidableEq, Repr

/-- PROT 0x12, access kind.  DEDUCED, log entry 86. -/
def prot12 : ClassVerdict := .refuse 0x05 0x12

/-- The table of R142.  DEDUCED, log entry 40. -/
def classAdmits (c : Cat) (l : Leaf) : ClassVerdict :=
  match c with
  | .load q => if l.cls = 3 && q then prot12 else .ok
  | .store q recov | .stashStore q recov =>
    if l.cls = 1 then .appendState
    else if l.cls = 3 && q then prot12
    else if l.peer && recov then prot12 else .ok
  | .amo | .red => if l.cls = 1 then .appendState else if l.cls = 3 then prot12 else .ok
  | .ldrw => if l.cls = 3 || l.peer then prot12 else .ok
  | .stc => if l.cls = 1 then .appendState else if l.cls = 3 || l.peer then prot12 else .ok
  | .wenq _ => if l.cls = 1 then .appendState else if l.cls = 3 then prot12 else .ok
  | .clean | .pref | .iinv | .commitW | .commitR => .ok
  | .engRead | .record => if l.cls = 3 then prot12 else .ok
  | .engWrite recov =>
    if l.cls = 1 then .appendState else if l.cls = 3 then prot12 else if l.peer && recov then prot12 else .ok
  | .fetch => if l.cls = 3 || l.peer then prot12 else .ok
  | .append | .ldtail | .seal => if l.cls = 1 then .ok else prot12
  | .context => if l.cls = 0 && !l.peer then .ok else .refuse 0x05 0x11
  | .descPush | .descRead | .entryPush => if (l.cls = 0 && !l.peer) || l.cls = 2 || l.cls = 4 then .ok else prot12
  | .migr => if l.cls = 3 || l.peer then prot12 else .ok

/-- The append descriptor of a frame (R259): its address. -/
def Part.descAddr (p : Part) (pa : Nat) : Nat := wfld p.apdbase 4 48 * 16 + 16 * (pa / 4096)

/-- Fields of an append descriptor (R259). -/
structure ADesc where
  tail : Nat
  state : Nat
  repl : Nat
  rref : Nat
  bad : Bool
  deriving DecidableEq, Repr

/-- The descriptor of a frame; a reserved value makes it bad (R259). -/
def State.adesc (s : State) (part pa : Nat) : ADesc :=
  let b := s.rd ((s.part part).descAddr pa) 16
  { tail := leField b 0 2, state := leField b 2 1, repl := leField b 3 1, rref := leField b 4 1,
    bad := decide (4096 < leField b 0 2) || decide (2 < leField b 2 1) || decide (16 ≤ leField b 3 1) ||
      decide (3 < leField b 4 1) || leField b 5 11 != 0 }

/-- The append state's verdict on an access to an APPEND page (R254 step 7, R260, R261). -/
def State.appendVerdict (s : State) (part : Nat) (l : Leaf) (v : ClassVerdict) : Option (Nat × Nat) :=
  let d := s.adesc part l.pa
  if d.bad then some (0x06, 0x03)
  else if d.state = 2 then some (0x06, 0x04)
  else match v with
    | .appendState => some (0x06, if d.state = 0 then 0x01 else 0x02)
    | .ok | .refuse _ _ => none

/-- The checks of a translation of U, of R, W and X and of the class, in the order of R254.  DEDUCED, log entry 41. -/
def leafVerdict (priv : Nat) (c : Cat) (l : Leaf) : Option (Nat × Nat) :=
  let (nr, nw, nx) := c.needs
  if priv = 0 && !l.u && c != .iinv then some (0x05, 0x04)
  else if nr && !l.r then some (0x05, 0x01)
  else if nw && !l.w then some (0x05, 0x02)
  else if nx && !l.x then some (0x05, 0x03)
  else match classAdmits c l with
    | .refuse a b => some (a, b)
    | .ok | .appendState => none

/-- The last check of R254, of the append state; `pref`, `cln`, `cinv` and `iinv` raise none of its faults (R168, R169). -/
def State.appendCheck (s : State) (part : Nat) (c : Cat) (l : Leaf) : Option (Nat × Nat) :=
  if l.cls = 1 && c != .pref && c != .iinv && c != .clean && c != .commitW then s.appendVerdict part l (classAdmits c l) else none

/-! ## Translation caches and the walk -/

/-- The tag of a translation-cache entry (R252). -/
def tkey (asid va : Nat) : Nat := asid * 2 ^ 42 + va / 4096

/-- A cached translation. -/
def State.tlookup (s : State) (part asid va : Nat) : Option TEntry :=
  tget (s.cl ((s.part part).tslice asid va)).tcache (tkey asid va)

/-- The capacity of a translation cache (R252).  DESIGN CHOICE, log entry 6. -/
def tcacheSize : Nat := 4096

/-- A translation cached at its slice, with the A bit of its entry; a full cache drops its first entry (DESIGN CHOICE, log entry 6). -/
def State.tfill (s : State) (part asid va : Nat) (l : Leaf) (a : Bool) : State :=
  s.modCl ((s.part part).tslice asid va) fun c =>
    let t := if c.tcache.length < tcacheSize then c.tcache else c.tcache.drop 1
    { c with tcache := tset t (tkey asid va) { leaf := l, a := a, sealed_ := false } }

/-- The physical address of an ASID entry (R246). -/
def Part.asidEntry (p : Part) (asid : Nat) : Nat := wfld p.xlbase 3 49 * 8 + 8 * asid

/-- What the page tables of the boot ROM map: HBM as NORMAL in 1 GiB leaves and register space as DEVICE, VA = PA, with R, W
and X (R435). -/
def romLeaf (va : Nat) : Option Leaf :=
  let l (cls : Nat) : Leaf :=
    { pa := va / 4096 * 4096, cls := cls, peer := false, peerId := 0, mir := false, u := false, x := true, w := true, r := true, d := true }
  if va < hbmEnd then some (l 0) else if 0x008000000000 ≤ va ∧ va < 0x008004000000 then some (l 3) else none

/-- What the translation slice finds in its cache: a translation to use, a fault, or nothing, so that a walk is needed; a
write that finds D = 0 walks again (R252).  DEDUCED, log entry 41. -/
def State.tcheck (s : State) (part asid priv va : Nat) (c : Cat) : Option (Except (Nat × Nat) Leaf) :=
  match s.tlookup part asid va with
  | none => none
  | some t =>
    match leafVerdict priv c t.leaf with
    | some f => some (.error f)
    | none =>
      if c.writes && !t.leaf.d then none
      else match s.appendCheck part c t.leaf with
        | some f => some (.error f)
        | none => some (.ok t.leaf)

end Sys2Proof.Machine
end

