-- ==== Sys2Proof/Machine/Access.lean ====
section
/-! DEFINITION. The core's side of a memory access: the address checks of R135, the data forms of R143, R148 and R150,
the stash and the check-hold buffer, and the request that leaves for the translation slice (R136, R138, R139). -/

namespace Sys2Proof.Machine

/-! ## Sizes and the address checks -/

/-- Bytes of a size code (R42). -/
def sizeBytes (z : MSize) : Nat :=
  match z with
  | .b => 1
  | .h => 2
  | .w => 4
  | .d => 8
  | .q => 16

/-- The width in bytes of an atomic type (R150). -/
def amoBytes (y : AmoType) : Nat :=
  match y with
  | .i32 | .f32 | .bf16x2 => 4
  | .i64 | .f64 | .f32x2 => 8
  | .bf16 => 2
  | .i128 => 16

/-- Floor of log2, the SIZE field of CAUSE (R365). -/
def log2Size (n : Nat) : Nat := Nat.log2 n

/-- Access kinds of CAUSE (R366). -/
def kLoad : Nat := 2
/-- Store. -/
def kStore : Nat := 3
/-- Atomic. -/
def kAtomic : Nat := 4
/-- Reservation. -/
def kResv : Nat := 5
/-- Engine operation. -/
def kEngine : Nat := 6
/-- Append or seal. -/
def kAppend : Nat := 7
/-- Context target. -/
def kContext : Nat := 8
/-- Queue descriptor. -/
def kQueue : Nat := 9
/-- Barrier. -/
def kBarrier : Nat := 10

/-- The checks of R135 on an effective address: canonical, then aligned. -/
def eaFault (kind bytes : Nat) (ea : Word) : Option Flt :=
  if !canonical ea then some (fltCanon kind (log2Size bytes) ea)
  else if ea.toNat % bytes != 0 then some { cls := 0x03, sub := 0x02, kind := kind, size := log2Size bytes, faddr := ea }
  else none

/-- The checks of R135 without alignment (R258, R78). -/
def canonFault (kind size : Nat) (ea : Word) : Option Flt := if canonical ea then none else some (fltCanon kind size ea)

/-! ## Data of loads and stores -/

/-- The registers a load writes (R143, R148), with the flags of a typed load. -/
def loadResult (dst : LdDst) (data : List Byte) : Answer :=
  match dst with
  | .reg d n sx =>
    let x := leNat (data.take n)
    { Answer.none with regs := [(d, if sx then sext64 (8 * n) x else W x)] }
  | .pair d => { Answer.none with regs := [(d, W (leField data 0 8)), (Reg.succ d, W (leField data 8 8))] }
  | .typed d f t rm scale tab _ =>
    let x := leNat data
    let n := 64 / t.width
    let elems : List (Nat × Flags) :=
      match f with
      | .i8 => (List.range n).map fun i => (wrap t.width (signed 8 (fld x (8 * i) 8)), Flags.none)
      | .z8 => (List.range n).map fun i => (fld x (8 * i) 8, Flags.none)
      | .e4m3 => (List.range n).map fun i => (fmtOf t).convert false (.field .rne) (fmtE4M3.value (fld x (8 * i) 8))
      | .e5m2 => (List.range n).map fun i => (fmtOf t).convert false (.field .rne) (fmtE5M2.value (fld x (8 * i) 8))
      | .fp4 => (List.range 4).map fun i =>
          (fmtOf t).convert false (.field rm) (elementValue (scaleRec scale) tab (fld x (4 * i) 4))
      | .bf16 => (List.range 2).map fun i => (fld x (16 * i) 16 * 2 ^ 16, Flags.none)
    let r := packF t.width elems
    { Answer.none with regs := [(d, r.1)], flags := r.2 }
  | .hdef _ | .hmap _ | .mcfg _ => Answer.none

/-- The bytes of memory a typed access moves (R148). -/
def typedBytes (f : MemFmt) (t : LaneType) : Nat :=
  match f with
  | .fp4 => 2
  | .bf16 => 4
  | .i8 | .z8 | .e4m3 | .e5m2 => 64 / t.width

/-- The data of a typed store, its flags and the LFSR afterwards (R148, R149). -/
def typedStore (f : MemFmt) (t : LaneType) (rm : Round) (sr : Bool) (scale : Nat) (tab : List T3Entry) (l : BitVec 32)
    (v : Word) : List Byte × Flags × BitVec 32 :=
  let n := 64 / t.width
  let vals := (List.range n).map fun i => (fmtOf t).value (lane t.width v i)
  let run (w : Nat) (conv : Rounding → FVal → Nat × Flags) : List Byte × Flags × BitVec 32 :=
    if sr then
      let (rs, l') := srList conv l vals
      (leBytes (w * n / 8) (packNat w (rs.map (·.1))), Flags.all (rs.map (·.2)), l')
    else
      let rs := vals.map (conv (.field rm))
      (leBytes (w * n / 8) (packNat w (rs.map (·.1))), Flags.all (rs.map (·.2)), l)
  match f with
  | .i8 | .z8 => (leBytes n (packNat 8 ((lanes t.width v).map fun x => satS 8 (signed t.width x))), Flags.none, l)
  | .e4m3 => run 8 (fmtE4M3.convert true)
  | .e5m2 => run 8 (fmtE5M2.convert true)
  | .bf16 => run 16 (fmtBF16.convert false)
  | .fp4 => run 4 (toBlockCode (scaleRec scale) tab)

/-- The bytes of a floating-point lane of an atomic type: its format and how many lanes (R44, R150). -/
def amoLanes (y : AmoType) : Option (Fmt × Nat) :=
  match y with
  | .bf16 => some (fmtBF16, 1)
  | .f32 => some (fmtF32, 1)
  | .f64 => some (fmtF64, 1)
  | .f32x2 => some (fmtF32, 2)
  | .bf16x2 => some (fmtBF16, 2)
  | .i32 | .i64 | .i128 => none

/-- A floating-point atomic on each lane; no sticky flag is raised (R103). -/
def amoFp (y : AmoType) (f : Fmt → Nat → Nat → Nat) (old src : Nat) : Nat :=
  match amoLanes y with
  | none => old
  | some (fmt, n) =>
    packNat fmt.width ((List.range n).map fun j => f fmt (fld old (fmt.width * j) fmt.width) (fld src (fmt.width * j) fmt.width))

/-- The new value of an atomic (R150). -/
def amoNew (op : AmoOp) (y : AmoType) (old src cmp : Nat) : Nat :=
  let w := 8 * amoBytes y
  let src := src % 2 ^ w
  match op with
  | .add => (old + src) % 2 ^ w
  | .and => old &&& src
  | .or => old ||| src
  | .xor => old ^^^ src
  | .min => minS w old src
  | .max => maxS w old src
  | .minu => if old ≤ src then old else src
  | .maxu => if old ≤ src then src else old
  | .swap => src
  | .cas => if old = cmp % 2 ^ w then src else old
  | .fadd => amoFp y (fun f a b => (fpAdd f .rne a b).1) old src
  | .fmin => amoFp y (fun f a b => (fpMinMax f false a b).1) old src
  | .fmax => amoFp y (fun f a b => (fpMinMax f true a b).1) old src

/-- Whether an atomic writes: all but a `cas` whose comparison fails (R150). -/
def amoWrites (op : AmoOp) (y : AmoType) (old cmp : Nat) : Bool :=
  op != .cas || old == cmp % 2 ^ (8 * amoBytes y)

/-- The registers an `amo` returns its old value in (R150). -/
def amoAnswer (y : AmoType) (dst : Option Reg) (old : Nat) : Answer :=
  match dst with
  | none => Answer.none
  | some d =>
    if y = .i128 then { Answer.none with regs := [(d, W (old % 2 ^ 64)), (Reg.succ d, W (old / 2 ^ 64))] }
    else { Answer.none with regs := [(d, W old)] }

/-! ## What a request is -/

/-- The category of R142 and R250 of a request; a store that fills a stash line reads the page too.  DEDUCED, log entry 40. -/
def ReqKind.cat (k : ReqKind) : Cat :=
  match k with
  | .load dst n _ _ =>
    match dst with
    | .hdef _ | .hmap _ | .mcfg _ => .record
    | .reg _ _ _ | .pair _ | .typed _ _ _ _ _ _ _ => .load (n == 16)
  | .store d _ sc => .store (d.length == 16) (sc == .recov)
  | .stt _ _ _ _ _ _ _ _ => .store false false
  | .amo _ _ _ _ dst _ _ _ => if dst.isSome then .amo else .red
  | .ldrw _ => .ldrw
  | .stc _ => .stc
  | .rcancel => .ldrw
  | .wenq _ sc _ => .wenq (sc == .recov)
  | .cln _ | .cinv => .clean
  | .iinv => .iinv
  | .pref => .pref
  | .apnd _ _ => .append
  | .ldtail _ => .ldtail
  | .seal => .seal
  | .wake | .resume _ _ | .send _ => .context
  | .migr => .migr
  | .qpush _ | .qpop _ => .descPush
  | .qstat _ => .descRead
  | .launch | .gang | .grun _ | .groupTable _ => .record
  | .fork _ _ | .sync | .exitJoin => .store false false
  | .ldh _ => .load false
  | .sth _ => .store false false
  | .eng _ sc => .engWrite (sc == .recov)
  | .engAdd _ _ => .red
  | .stashFill k =>
    match k.cat with
    | .store q recov => .stashStore q recov
    | c => c
  | .rcommit _ _ => .commitW

/-- KIND and SIZE of a request's faults (R365, R366). -/
def ReqKind.kindSize (k : ReqKind) : Nat × Nat :=
  match k with
  | .load _ n _ _ => (kLoad, log2Size n)
  | .store d _ _ => (kStore, log2Size d.length)
  | .stt f t _ _ _ _ _ _ => (kStore, log2Size (typedBytes f t))
  | .amo _ y _ _ _ _ _ _ => (kAtomic, log2Size (amoBytes y))
  | .ldrw _ | .stc _ | .rcancel => (kResv, 3)
  | .wenq p _ _ => (kStore, log2Size p.length)
  | .cln _ | .cinv | .iinv | .pref => (kLoad, 0xF)
  | .apnd d _ => (kAppend, log2Size d.length)
  | .ldtail _ | .seal => (kAppend, 0xF)
  | .wake | .resume _ _ | .migr => (kContext, 0xF)
  | .send d => (kContext, log2Size d.length)
  | .qpush _ | .qpop _ | .qstat _ => (kQueue, 6)
  | .launch => (kLoad, 8)
  | .gang => (kLoad, 6)
  | .grun _ => (kLoad, 6)
  | .fork _ _ | .sync | .exitJoin => (kStore, 3)
  | .groupTable _ => (kLoad, 3)
  | .ldh _ => (kLoad, 3)
  | .sth _ => (kStore, 3)
  | .eng d _ => (kEngine, log2Size d.length)
  | .engAdd _ _ => (kEngine, 3)
  | .stashFill k => k.kindSize
  | .rcommit _ _ => (kStore, 5)

/-- The requests that count in PWC (R138). -/
def ReqKind.counts (k : ReqKind) : Bool :=
  match k with
  | .store _ _ _ | .stt _ _ _ _ _ _ _ _ | .amo _ _ _ _ _ _ _ _ | .stc _ | .sth _ => true
  | .stashFill k => k.counts
  | _ => false

/-- The requests that `drain.gm` waits for: the counted ones and `wenq` (R164). -/
def ReqKind.drained (k : ReqKind) : Bool :=
  match k with
  | .wenq _ _ _ => true
  | k => k.counts

/-- The requests that wait in the check-hold buffer while TSW.HELD = 1 (R141). -/
def ReqKind.holds (k : ReqKind) : Bool :=
  match k with
  | .store _ _ _ | .stt _ _ _ _ _ _ _ _ | .amo _ _ _ _ _ _ _ _ | .wenq _ _ _ => true
  | _ => false

/-- The requests that touch the stash: loads, stores, `ldh` and `sth` (R179). -/
def ReqKind.stashes (k : ReqKind) : Bool :=
  match k with
  | .load dst _ _ _ =>
    match dst with
    | .reg _ _ _ | .pair _ | .typed _ _ _ _ _ _ _ => true
    | .hdef _ | .hmap _ | .mcfg _ => false
  | .store _ _ _ | .stt _ _ _ _ _ _ _ _ | .ldh _ | .sth _ => true
  | _ => false

/-- How many bytes of memory a request touches at its address. -/
def ReqKind.span (k : ReqKind) : Nat :=
  match k with
  | .load _ n _ _ => n
  | .store d _ _ | .eng d _ => d.length
  | .stt f t _ _ _ _ _ _ => typedBytes f t
  | .amo _ y _ _ _ _ _ _ => amoBytes y
  | .wenq p _ _ => p.length
  | .launch => 256
  | .gang => 64
  | .grun _ => 64
  | .send _ => 64
  | .stashFill k => k.span
  | _ => 8

/-- Whether a request is performed as a write at its home. -/
def ReqKind.writes (k : ReqKind) : Bool :=
  match k with
  | .store _ _ _ | .stt _ _ _ _ _ _ _ _ | .stc _ | .amo _ _ _ _ _ _ _ _ | .eng _ _ | .engAdd _ _ | .qpush _ | .qpop _ | .send _ | .rcommit _ _ | .apnd _ _
  | .fork _ _ | .sync | .exitJoin | .wake | .resume _ _ | .grun _ => true
  | .stashFill k => k.writes
  | _ => false

/-! ## The conditions of a release -/

/-- The conditions of a release of a scope: PWC = 0, and for `rec` PDC = 0 (R147, R163). -/
def releaseConds (sc : Scope) : List WaitFor := if sc = .recov then [.pwc, .pdc] else [.pwc]

/-! ## Where a request goes, and what it meets on the way (R12, R13, R347–R351, R395) -/

/-- Whether a home slice is lost to a die reset (R395). -/
def State.slDown (s : State) (sl : Nat) : Bool := s.reg.resetDies.contains (dieOfCl sl)

/-- The NET subclass of a request from a die that cannot reach a slice: its die is under reset, or an edge on the way is
FAULTED (R351, R395).  DEDUCED, log entry 73. -/
def State.unreached (s : State) (die sl : Nat) : Option Nat :=
  if s.slDown sl then some 0x01
  else if (edgesBetween die (dieOfCl sl)).any s.edgeDown then some 0x20
  else none

/-- Whether a load may be answered by a visitor copy (R137).  DEDUCED, log entry 9. -/
def plainLoad (o : Order) (sc : Scope) : Bool :=
  o == .rlx || o == .rel || sc == .core || sc == .clu || sc == .die

/-- Whether an operation takes part in the sc order of dev, sys or rec (R236). -/
def scWide (o : Order) (sc : Scope) : Bool := o == .sc && (sc == .dev || sc == .sys || sc == .recov)

/-- Whether an operation acquires at dev, sys or rec: its answer waits for the visitor invalidations sent to the issuing die before it,
as `fence.acq` would (R163, R232, R236).  DEDUCED, log entry 95. -/
def acqWide (o : Order) (sc : Scope) : Bool := (o == .acq || o == .sc) && (sc == .dev || sc == .sys || sc == .recov)

/-- Order and scope of a request. -/
def ReqKind.ordering (k : ReqKind) : Order × Scope :=
  match k with
  | .load _ _ o sc | .store _ o sc | .amo _ _ _ _ _ o sc _ => (o, sc)
  | _ => (.rlx, .core)

/-! ## Fault answers (R68, R140) -/

/-- The line key that stands for no context: an error of an access that a unit makes for a kernel is a report with context
ID 0 and the KID, which stands in place of the generation, in the cookie field (R276, R284, R298). -/
def noKey : Nat := 2 ^ 60

/-- The requester of what no context asks for. -/
def noWho : Who :=
  { key := noKey, gen := 0, site := 0, slot := 0, ks := 0, part := 0, asid := 0, priv := 2, pc := 0#64, enc := 0#32, len := 0 }

/-- A fault message that no context line belongs to: context ID 0, a cookie, and ASYNC set since it is a report only (R365).
DEDUCED, log entry 61. -/
def State.report (s : State) (site part desc cookie : Nat) (f : Flt) : State :=
  s.send (.core site) (.desc part) vnService
    (.msg { part := part, desc := desc, cid := 0, cause := mkCause 0#32 0 true false f, faddr := f.faddr,
            core := s.logical site, cookie := cookie, record := none, key := none, priv := 2, svc := false })

/-- A fault answer to a context, or the report of a unit's access, whose operation ends with it (R68, R140, R284). -/
def State.answerFault (s : State) (from_ : Node) (w : Who) (f : Flt) (async counted : Bool) (tok : Nat)
    (record : Option (List Byte)) (dur : Bool) : State :=
  if w.key = noKey then (s.endOp tok).report w.site w.part f.cls w.gen f
  else s.send from_ (.line w.key) vnReply (.fault w f async counted tok record dur)

/-- The write data of a request, for its deferred-operation record (R140). -/
def ReqKind.data (k : ReqKind) : List Byte :=
  match k with
  | .store d _ _ | .wenq d _ _ | .apnd d _ | .send d | .eng d _ => d
  | .amo _ y src _ _ _ _ _ => leBytes (amoBytes y) src
  | .stc v | .qpush v | .sth v => leBytes 8 v.toNat
  | .engAdd _ _ => leBytes 8 1
  | _ => []

/-- The deferred-operation record of a write that failed after commit (R140). -/
def deferredRecord (s : State) (w : Who) (k : ReqKind) : List Byte :=
  fitBytes 16 k.data ++ leBytes 4 w.enc.toNat ++ leBytes 4 0 ++ leBytes 8 (((s.line? w.key).map (·.cid)).getD 0)

/-- Whether an instruction has committed when its request is translated: a `red`, or a copy with its completion word (R140,
R190). -/
def ReqKind.committed (k : ReqKind) : Bool :=
  match k with
  | .amo _ _ _ _ none _ _ _ => true
  | .engAdd _ _ => true
  | _ => false

/-- NET 0x01 for a request (R365, R393). -/
def netFlt (k : ReqKind) (va : Nat) : Flt := { cls := 0x12, sub := 0x01, kind := k.kindSize.1, size := k.kindSize.2, faddr := W va }

/-- A write that was held dirty is lost: its writer receives NET, 0x01 or the subclass given, after commit unless it waits for the write (R393).
DEDUCED, log entry 72. -/
def State.loseWrite (s : State) (src : Node) (x : Writer) (counted dur : Bool) (sub : Nat := 0x01) : State :=
  if x.who.key = noKey then s.endOp x.tok
  else
    s.answerFault src x.who { netFlt x.k x.va with sub := sub } (!x.ends) counted x.tok (if x.ends then none else some (deferredRecord s x.who x.k)) dur

/-! ## Writing back stash and owned lines (R152, R153, R165, R166, R180) -/

/-- The lines of 64 bytes from an address on. -/
def glines (ga n : Nat) : List Nat := (List.range ((ga + n - 1) / 64 - ga / 64 + 1)).map (ga / 64 + ·)


/-- The home slice of a line in the partition that a core belongs to.  DEDUCED, log entry 75. -/
def State.homeAt (s : State) (part gline : Nat) : Nat := (s.part part).home (gline * 64)

/-- Whether the mirror frames on a die cannot be written now: the die is under reset, or the edge from its partner, the one that a
mirror write crosses, carries nothing (R24, R350, R351, R396).  DEDUCED, log entry 96. -/
def State.mirrorDieAway (s : State) (die : Nat) : Bool :=
  s.reg.resetDies.contains die || (edgesBetween (partner die) die).any fun e => s.edgeDown e || s.edgeWaits e

/-- Whether the mirror frames of a home slice's lines cannot be written now. -/
def State.mirrorAway (s : State) (home : Nat) : Bool := s.mirrorDieAway (partner (dieOfCl home))

/-- The mirror's acknowledgement of a write, which waits while the mirror cannot be written (R241, R396). -/
def State.mirrorWrite (s : State) (home : Nat) (w : Who) (tok : Nat) (ends : Option Answer) (counted : Bool) : State :=
  let die := partner (dieOfCl home)
  if s.mirrorAway home then s.send (.slice home) (.die die) vnService (.mirror w tok die ends counted)
  else s.send (.die die) (.line w.key) vnReply (.dack w tok ends counted)

/-- The answers to one performed write: the acknowledgement at sys scope, and on a page of the recovery discipline the one
of the mirror on the partner die (R138, R241, R396).  `ends` is what a waiting context receives; for a release at rec on
such a page it comes with the mirror's (R147). -/
def State.ackWrite (s : State) (home : Nat) (w : Who) (tok grp : Nat) (dur : Bool) (ends : Option Answer) (scOp recRelease : Bool) : State :=
  let late := dur && recRelease
  let s := s.send (.slice home) (.line w.key) vnReply (.ack w tok grp (if late then none else ends) scOp)
  if dur then s.mirrorWrite home w tok (if late then ends else none) true else s

/-- A write of a line at its home: on a page of the recovery discipline it goes to the mirror frame too, which is noted, and
while the mirror cannot be written it is not durable yet (R396, R402). -/
def State.noteMirror (s : State) (home gline : Nat) (dur : Bool) : State :=
  let die := partner (dieOfCl home)
  if !dur then { s with mirrored := s.mirrored.filter fun g => g != gline }
  else
    let s := if s.mirrored.contains gline then s else { s with mirrored := gline :: s.mirrored }
    if s.mirrorAway home then s.send (.slice home) (.die die) vnService (.mirrorPend gline die) else s

/-- The key of a visitor copy: line and die.  DEDUCED, log entry 9. -/
def vkey (gline die : Nat) : Nat := gline * 4 + die

/-- Every visitor copy of a line dropped at once.  DEDUCED, log entry 9. -/
def State.dropVisitors (s : State) (gline : Nat) : State :=
  { s with visitors := s.visitors.filter fun e => e.1 / 4 != gline }

/-- The invalidations of the visitor copies that a write reaches: at once on the home's die, by a message elsewhere (R229). -/
def State.invalidate (s : State) (home via gline : Nat) (dies : List Nat) (grp : Nat) : State :=
  dies.foldl (fun s d =>
    if (tget s.visitors (vkey gline d)).isSome then
      if d = dieOfCl home then { s with visitors := tdel s.visitors (vkey gline d) }
      else s.send (.slice home) (.die d) vnService (.inval grp gline d via)
    else s) s

/-- The copies that have a line pinned: their writes to it are on their way (R191). -/
def State.pinCount (s : State) (gline : Nat) : Nat :=
  (s.inFlight.filter fun y => match y.body with
    | .acc b | .hostReq _ _ b | .bisnp _ _ (some b) => b.ga / 64 == gline && ((tget s.ops b.tok).map (·.copy)).getD false && (match b.k with
        | .eng _ _ => true
        | _ => false)
    | _ => false).length

/-- Sets and ways of a shared-cache slice (R14). -/
def sliceSets : Nat := 4096
/-- Its ways. -/
def sliceWays : Nat := 16

/-- The other lines of a line's set that a slice holds beside HBM: visitor copies, lines newer than HBM, and lines of the host (R14).  The spec gives no
index: the set is the line number mod 4,096.  DESIGN CHOICE, log entry 103. -/
def State.setVisitors (s : State) (cl gline : Nat) : List Nat :=
  (s.visitors.filter fun e => e.2.1 == cl && e.1 / 4 % sliceSets == gline % sliceSets && e.1 / 4 != gline).map (·.1)
/-- The lines of the host that it holds (R361). -/
def State.setHost (s : State) (cl gline : Nat) : List Nat :=
  (s.hostHeld.filter fun e => decide (hbmEnd ≤ e.1 * 64) && e.1 % sliceSets == gline % sliceSets && e.1 != gline &&
    s.homeAt (s.partOfCl cl) e.1 == cl).map (·.1)
/-- Those newer than HBM. -/
def State.setDirty (s : State) (cl gline : Nat) : List Nat :=
  (s.slices.filter fun e => e.1 % sliceSets == gline % sliceSets && e.1 != gline && s.homeAt (s.partOfCl cl) e.1 == cl).map (·.1)

/-- A way of a slice made free for a line (R14, R191, R361): the first unpinned visitor copy of the set goes, or else its first unpinned
line that is newer than HBM, which is then written there, or else its first unpinned line of the host, which goes back by DirtyEvict
or CleanEvict with its visitor copies dropped.  DESIGN CHOICE, log entry 103. -/
def State.sliceRoom (s : State) (cl gline : Nat) : State :=
  if (s.setVisitors cl gline).length + (s.setDirty cl gline).length + (s.setHost cl gline).length < sliceWays then s
  else
    match (s.setVisitors cl gline).find? fun k => s.pinCount (k / 4) == 0 with
    | some k => { s with visitors := tdel s.visitors k }
    | none => match (s.setDirty cl gline).find? fun g => s.pinCount g == 0 with
      | some g => { s with slices := tdel s.slices g }
      | none => match (s.setHost cl gline).find? fun g => s.pinCount g == 0 with
        | some g => { s.dropVisitors g with hostHeld := tdel s.hostHeld g }
        | none => s

/-- Whether every way of a line's set is held by a pinned line (R191). -/
def State.allPinned (s : State) (cl gline : Nat) : Bool :=
  let held := ((s.setVisitors cl gline).map (· / 4)) ++ s.setDirty cl gline ++ s.setHost cl gline
  decide (sliceWays ≤ held.length) && held.all fun g => decide (0 < s.pinCount g)

/-- The value of a line that a die reset may lose is remembered with its writers, `old` being the line before the write and `ws` the
accesses that wrote it: while the home slice holds it newer than HBM, and on a page of the recovery discipline until the mirror has
acknowledged it.  A durable write that nobody waits for leaves nothing to lose (R242, R393, R395).  DESIGN CHOICE, log entry 35. -/
def State.noteSlice (s : State) (home gline : Nat) (old : List Byte) (ws : List Acc) (dur : Bool) : State :=
  if hbmEnd ≤ gline * 64 then s
  else if dur && (ws.isEmpty || ws.any fun a => !a.k.counts) then { s with slices := tdel s.slices gline }
  else
    let now := s.rd (gline * 64) 64
    let s := s.sliceRoom home gline
    let x := tgetD s.slices gline { part := s.partOfCl home, hbm := old, writers := [] }
    { s with slices := tset s.slices gline { x with writers := x.writers ++ ws.map fun a => (a, now) } }

/-! ## A store that closes a queue (R316, R326) -/

/-- The live line whose mailbox an access names: the one just below it, or, where the mailbox begins a page, the one of its
context ID (R278). -/
def State.mailboxLine (s : State) (w : Who) (va ga : Nat) : Option (Nat × Line) :=
  if 128 ≤ ga % 4096 then
    match s.line? (ga / 128 - 1) with
    | some l => if l.life == .live then some (ga / 128 - 1, l) else none
    | none => none
  else s.lines.find? fun e => e.2.cid == va / 128 - 1 && e.2.part == w.part && e.2.asid == w.asid && e.2.life == .live

/-- A request held at a queue fails: QUEUE 0x03 to its context, after commit for a `wenq` that has been accepted; a fault message is
routed again (R315, R316). -/
def State.failHeld (s : State) (sl : Nat) (h : HeldReq) : State :=
  let ks := h.k.kindSize
  let f : Flt := { cls := 0x0A, sub := 0x03, kind := ks.1, size := ks.2, faddr := W h.va }
  match h.msg with
  | some x => s.send (.slice sl) (.desc x.part) vnService (.msg x)
  | none => s.answerFault (.slice sl) h.who f h.entry.isSome h.k.counts h.tok (h.entry.map fun _ => deferredRecord s h.who h.k) false

/-- A `qpop` held at a mailbox that is closed completes as one on a CLOSED queue with no entry does (R316, R326).
DEDUCED, log entry 99. -/
def State.closePop (s : State) (w : Who) (va ga : Nat) : State :=
  match s.mailboxLine w va ga with
  | some (key, l) => match l.popWait with
    | some p => if p.desc % 4096 / 64 = ga % 4096 / 64 then (s.answer p.who { Answer.none with p15 := some false } true).makeReady key else s
    | none => s
  | none => s

/-- A store that sets CLOSED in a descriptor fails every request held at it, and ends a `qpop` held there (R316, R326).
DEDUCED, log entry 72; DEDUCED, log entry 99. -/
def State.closeHeld (s : State) (sl : Nat) (w : Who) (va ga : Nat) : State :=
  let g := ga / 64
  if s.rdNat (g * 64 + 10) 1 % 2 = 1 then
    ((tgetD s.heldQ g []).foldl (fun (s : State) h => s.failHeld sl h) { s with heldQ := tdel s.heldQ g }).closePop w va ga
  else s

/-! ## The write of a stash line at its home -/

/-- The write of a dirty stash line at its home: it is performed once every visitor copy is invalidated, and its writers are
acknowledged then (R138, R147, R180).  The number of the next message names its invalidations.  A home that cannot be reached
answers every writer with NET (R140, R199). -/
def State.writeBack (s : State) (site : Nat) (x : StashLine) : State :=
  let part := s.partOf site
  let home := s.homeAt part x.ga
  match s.unreached (dieOf site) home with
  | some sub => x.writers.foldl (fun s wr => s.loseWrite (.core site) wr true x.leaf.durable sub) s
  | none =>
    let old := s.rd (x.ga * 64) 64
    let grp := s.nextId
    let s := (s.wr (x.ga * 64) (memRead (s.core site).scratch x.at_ 64)).invalidate home ((s.part part).tslice x.asid x.va) x.ga
      [0, 1, 2, 3] grp
    let ws := x.writers.map fun wr =>
      ({ w := wr.who, va := wr.va, ga := x.ga * 64 + wr.va % 64, leaf := x.leaf, k := wr.k, tok := wr.tok, snooped := false } : Acc)
    let s := s.noteSlice home x.ga old ws x.leaf.durable
    let s := x.writers.foldl (fun s wr =>
      let o := wr.k.ordering
      s.ackWrite home wr.who wr.tok grp x.leaf.durable (if wr.ends then some Answer.none else none) (scWide o.1 o.2) (o.2 == .recov)) s
    (s.noteMirror home x.ga x.leaf.durable).closeHeld home { noWho with part := part, asid := x.asid } x.va (x.ga * 64)

/-- A dirty stash line of a stopped core is lost: each of its writers receives NET 0x01, and the home logs it (R393 steps 3 and 5). -/
def State.loseStash (s : State) (site : Nat) (x : StashLine) : State :=
  x.writers.foldl (fun s y => s.loseWrite (.core site) y true x.leaf.durable) (s.logEvent (.core site) 0x11 0x02 x.ga)

/-- A stash line of a core written back to memory if it is dirty, and then dropped or kept clean; a core that has stopped loses it
(R393). -/
def State.recallStash (s : State) (site : Nat) (x : StashLine) (keep : Bool) : State :=
  let gone := !(s.core site).serves || (s.unreached (dieOf site) (s.homeAt (s.partOf site) x.ga)).isSome
  let s := if !x.dirty then s else if (s.core site).serves then s.writeBack site x else s.loseStash site x
  s.modCore site fun c =>
    if keep && !(x.dirty && gone) then { c with stash := c.stash.map fun y => if y = x then { y with dirty := false, writers := [] } else y }
    else { c with stash := c.stash.filter fun y => y != x }

/-- Every stash copy of a line that other cores hold is recalled; for a read a dirty copy is written back and kept. -/
def State.recallStashes (s : State) (gline : Nat) (but : Option Nat) (write : Bool) : State :=
  s.cores.foldl (fun s e =>
    if but == some e.1 then s
    else e.2.stash.foldl (fun s x =>
      if x.ga == gline && (write || x.dirty) then s.recallStash e.1 x (!write) else s) s) s

/-- The accesses that wrote an owned line since its home held it last. -/
def Owned.accs (o : Owned) : List Acc :=
  o.writers.map fun y => { w := y.who, va := y.va, ga := o.ga * 64 + y.va % 64, leaf := o.leaf, k := y.k, tok := y.tok, snooped := false }

/-- An owned line of a stopped core is lost: its home keeps the last value written back (R393 step 3). -/
def State.loseOwned (s : State) (site : Nat) (o : Owned) : State :=
  let s := (s.wr (o.ga * 64) o.saved).logEvent (.core site) 0x11 0x02 o.ga
  o.writers.foldl (fun s y => s.loseWrite (.core site) y false false) s

/-- An owned line written back at its home, which holds it newer than HBM from then on, and dropped (R153, R395). -/
def State.giveUp (s : State) (site : Nat) (o : Owned) : State :=
  let t := s.modCore site fun c => { c with owned := c.owned.filter fun x => x.ga != o.ga }
  if !o.dirty then t
  else if (s.core site).serves then t.noteSlice (s.homeAt (s.partOf site) o.ga) o.ga o.saved o.accs false
  else t.loseOwned site o

/-- A line owned for atomics is given up by every core but one (R152, R153). -/
def State.recallOwned (s : State) (gline : Nat) (but : Option Nat) : State :=
  s.cores.foldl (fun s e =>
    if but == some e.1 then s else (e.2.owned.filter fun o => o.ga == gline).foldl (fun s o => s.giveUp e.1 o) s) s

/-- Whether another core owns the line. -/
def State.ownedByOther (s : State) (gline : Nat) (site : Nat) : Bool :=
  s.cores.any fun e => e.1 != site && e.2.owned.any fun o => o.ga == gline

/-- Whether a core owns the line. -/
def State.owned (s : State) (gline : Nat) : Bool := s.cores.any fun e => e.2.owned.any fun o => o.ga == gline

/-- Whether a line of 64 bytes is half of a context line that is live or has exited: its bytes change with its tag (R70). -/
def State.inLine (s : State) (gline : Nat) : Bool :=
  ((s.line? (gline / 2)).map fun l => l.life != .lost).getD false

/-- The write of bytes of one line at its home, whoever asked for it: every stash copy and every owner is recalled, the home holds the
new value, and the visitor copies of the dies named are invalidated (R138, R152, R180, R229).  The number answered groups the
invalidations. -/
def State.storeLine (s : State) (home via ga : Nat) (data : List Byte) (dies : List Nat) : State × Nat :=
  let g := ga / 64
  let s := (s.recallStashes g none true).recallOwned g none
  let grp := s.nextId
  ((s.wr ga data).invalidate home via g dies grp, grp)

/-! ## The stash at its core (R179, R180) -/

/-- The STASH handle of a core whose range holds a virtual address (R179). -/
def Core.stashHandle (c : Core) (asid va : Nat) : Option (Nat × Handle) :=
  (List.range 4).findSome? fun i =>
    ((c.ks.getD i KSlot.reset).handles.find? fun h =>
      h.2.st == .stash && h.2.asid == asid && decide (h.2.sbase ≤ va) && decide (va < h.2.sbase + h.2.rows * h.2.pitch)).map
      fun h => (i, h.2)

/-- The present stash line of a virtual address. -/
def Core.stashLine (c : Core) (asid va : Nat) : Option StashLine :=
  c.stash.find? fun x => x.asid == asid && x.va == va / 64 * 64

/-- A write of the context to the same line through the same page that is still on its way: what follows it takes its path (R136,
R225). -/
def State.ownPending (s : State) (w : Who) (va : Nat) : Bool :=
  s.inFlight.any fun y => match y.body with
    | .req v x k _ _ => v.key == w.key && v.asid == w.asid && x / 64 == va / 64 && k.writes
    | .acc b | .hostReq _ _ b | .bisnp _ _ (some b) => b.w.key == w.key && b.w.asid == w.asid && b.va / 64 == va / 64 && b.k.writes
    | _ => false

/-- Whether the translation under which a core holds a line admits an access (R142, R250): a write finds D set. -/
def Leaf.admits (l : Leaf) (w : Who) (k : ReqKind) : Bool :=
  let n := k.cat.needs
  (l.u || w.priv != 0) && (!n.1 || l.r) && (!n.2.1 || (l.w && l.d))

/-- The stash line that answers an access at its core: present, and no half of a context line; admitted by the page's permissions;
with no earlier write of the context on its way; and for a write with no copy of the line at the host (R70, R136, R138, R142, R179).
Any other access goes to its translation slice as a touch of an absent line does. -/
def State.stashReady (s : State) (w : Who) (va : Nat) (k : ReqKind) : Option StashLine :=
  match (s.core w.site).stashLine w.asid va with
  | some x =>
    if s.inLine x.ga || !x.leaf.admits w k || s.ownPending w va || (k.writes && (tget s.hostHeld x.ga).isSome) then none else some x
  | none => none

/-- The scratch bytes behind a stash line and an address in it. -/
def Core.stashRead (c : Core) (l : StashLine) (va n : Nat) : List Byte := memRead c.scratch (l.at_ + va % 64) n

/-- A number for a write of a context that `drain.gm` waits for (R164). -/
def State.gmOp (s : State) (w : Who) (wenq : Bool := false) : Nat × State :=
  let kid := ((s.line? w.key).map (·.kid)).getD 0
  s.newOp { cls := .gm, copy := false, wenq := wenq, site := w.site, key := w.key, kid := kid, dest := none, cl := clusterOf w.site }

/-- Whether a context waits for the performance of its own store (R147). -/
def ReqKind.endsAtAck (k : ReqKind) : Bool :=
  match k with
  | .store _ ord _ => ord == .rel || ord == .sc
  | _ => false

/-- A store or `sth` of a context that hits its core's stash: other cores' copies are recalled, every visitor copy goes at once, so that
nothing answers with the older value, the line is dirty, and the write counts in PWC until it is written back (R180, R224, R228). -/
def State.stashStore (s : State) (w : Who) (x : StashLine) (va : Nat) (k : ReqKind) (data : List Byte) (ends : Bool) (pre : Option Nat) :
    State :=
  let s := (s.recallStashes x.ga (some w.site) true).dropVisitors x.ga
  let (tok, s) := match pre with
    | some t => (t, s)
    | none => s.gmOp w
  (s.modCore w.site fun c =>
    { c with
      scratch := memWrite c.scratch (x.at_ + va % 64) data
      stash := c.stash.map fun y =>
        if y.asid = x.asid ∧ y.va = x.va then { y with dirty := true, writers := y.writers ++ [{ who := w, tok := tok, ends := ends, va := va, k := k }] } else y }).modLine
    w.key fun l => { l with pwc := l.pwc + b2n pre.isNone, pdc := l.pdc + b2n x.leaf.durable }

/-- An `stt` commits: its register is converted, the flags join PW and the core's LFSR steps; what remains is a store of the bytes
(R148, R149).  Any other request is what it was. -/
def State.commitStt (s : State) (w : Who) (k : ReqKind) : State × ReqKind :=
  match k with
  | .stt f t rm sr scale tab _ v =>
    let r := typedStore f t rm sr scale tab (s.core w.site).lfsr v
    ((s.modCore w.site fun c => { c with lfsr := r.2.2 }).modLine w.key fun l => l.orFlags r.2.1, .store r.1 .rlx .core)
  | k => (s, k)

/-- An access performed on a present stash line: a load is answered by the core, a store ends its wait of R139. -/
def State.stashHit (s : State) (w : Who) (x : StashLine) (va : Nat) (k : ReqKind) (pre : Option Nat) : State :=
  let reply (s : State) (a : Answer) (acq : Bool := false) : State :=
    s.send (.core w.site) (.line w.key) vnReply (.reply w a acq false 0)
  let (s, k) := s.commitStt w k
  match k with
  | .load dst n o sc => reply s (loadResult dst ((s.core w.site).stashRead x va n)) (acqWide o sc)
  | .ldh d => reply s (loadResult (.reg d 8 false) ((s.core w.site).stashRead x va 8))
  | .store data _ _ =>
    if k.endsAtAck then s.stashStore w x va k data true pre else reply (s.stashStore w x va k data false pre) Answer.none
  | .sth v => reply (s.stashStore w x va k (leBytes 8 v.toNat) false pre) Answer.none
  | _ => s

/-! ## Atomics at their core (R153) -/

/-- The predictor's index (R153). -/
def predIdx (asid va : Nat) : Nat := (va / 64 % 256) ^^^ (va / 2 ^ 14 % 256) ^^^ (asid % 256)

/-- The owned line of a core that answers an atomic: the page admits it, no earlier write of the context is on its way, and the line is
no half of a context line (R70, R136, R142, R153).  Any other atomic goes to its translation slice. -/
def State.ownedLine (s : State) (w : Who) (va : Nat) (k : ReqKind) : Option Owned :=
  (s.core w.site).owned.find? fun o =>
    o.asid == w.asid && o.va == va / 64 * 64 && o.leaf.admits w k && !s.inLine o.ga && !s.ownPending w va

/-- An atomic executed on a line that its core owns: no count changes (R138, R153); `acq` says that it acquires at dev or wider. -/
def State.localAmo (s : State) (w : Who) (o : Owned) (va : Nat) (op : AmoOp) (y : AmoType) (src cmp : Nat) (dst : Option Reg)
    (acq : Bool) : State :=
  let ga := o.ga * 64 + va % 64
  let old := s.rdNat ga (amoBytes y)
  let s := if amoWrites op y old cmp then s.wr ga (leBytes (amoBytes y) (amoNew op y old src cmp)) else s
  let s := s.modCore w.site fun c =>
    { c with owned := c.owned.map fun x =>
        if x.ga = o.ga ∧ amoWrites op y old cmp then
          { x with
            dirty := true
            writers := x.writers ++ [{ who := w, tok := 0, ends := false, va := va, k := .amo op y src cmp dst .rlx .core true }] }
        else x }
  let s := if amoWrites op y old cmp then s.closeHeld (s.homeAt w.part o.ga) w va ga else s
  match dst with
  | none => s
  | some _ => s.send (.core w.site) (.line w.key) vnReply (.reply w (amoAnswer y dst old) acq false 0)

/-! ## Sending a request -/

/-- A request leaves the core for its translation slice; a write is counted in PWC, and what `drain.gm` waits for gets a
number (R136, R138, R164).  `pre` is the number of a write that was held, and so counts already. -/
def State.sendReq (s : State) (w : Who) (va : Nat) (k : ReqKind) (pre : Option Nat := none) : State :=
  let (tok, s) := match pre with
    | some t => (t, s)
    | none => if k.drained then s.gmOp w (k.drained && !k.counts) else (0, s)
  let s := if k.counts && pre.isNone then s.modLine w.key fun l => { l with pwc := l.pwc + 1 } else s
  s.send (.core w.site) (.slice ((s.part w.part).tslice w.asid va)) regVn (.req w va k tok false)

/-- An access of a context meets its core's stash and owned lines, or leaves for its translation slice. -/
def State.access (s : State) (w : Who) (va : Nat) (k : ReqKind) (pre : Option Nat := none) : State :=
  let c := s.core w.site
  match k with
  | .amo op y src cmp dst ord sc _ =>
    let i := predIdx w.asid va
    let p := tgetD c.pred i 0
    match s.ownedLine w va k with
    | some o =>
      let s := s.modCore w.site fun c => { c with pred := tset c.pred i (p - 1) }
      let s := match pre with
        | some t => (s.decPwc w.key).endOp t
        | none => s
      s.localAmo w o va op y src cmp dst (acqWide ord sc)
    | none => s.sendReq w va (.amo op y src cmp dst ord sc (decide (p ≤ 1))) pre
  | k =>
    if k.stashes && (c.stashHandle w.asid va).isSome then
      match s.stashReady w va k with
      | some x => s.stashHit w x va k pre
      | none => s.sendReq w va (.stashFill k) pre
    else s.sendReq w va k pre

/-- A write of a context that holds unchecked data waits in the check-hold buffer, in program order, and counts in PWC
(R138, R141). -/
def State.hold (s : State) (w : Who) (va : Nat) (k : ReqKind) : State :=
  let (tok, s) := s.gmOp w (!k.counts)
  (s.modLine w.key fun l => { l with pwc := l.pwc + b2n k.counts }).modCore w.site fun c =>
    { c with hold := c.hold ++ [{ who := w, va := va, k := k, bytes := [], tok := tok, deps := tgetD c.holders w.key [], epi := false }] }

/-- Whether a context's writes are held (R216). -/
def State.isHeld (s : State) (key : Nat) : Bool := ((s.line? key).map (·.held)).getD false

/-- An access at the moment it leaves the core: held, or sent. -/
def State.accessOrHold (s : State) (w : Who) (va : Nat) (k : ReqKind) : State :=
  if k.holds && s.isHeld w.key then s.hold w va k else s.access w va k

/-- The check-hold buffer holds 64 lines of 64 bytes (R216). -/
def holdSize : Nat := 64

/-- The bytes a held write covers. -/
def HeldWrite.covers (h : HeldWrite) (va n : Nat) : Bool :=
  decide (h.va < va + n) && decide (va < h.va + (if h.epi then h.bytes.length else h.k.span))

/-- The lines of 64 bytes that a held write takes in the check-hold buffer (R216). -/
def linesHeld (k : ReqKind) (va : Nat) : Nat := (va % 64 + max 1 k.span + 63) / 64
/-- The lines that the buffer of a core holds. -/
def Core.heldLines (c : Core) : Nat := (c.hold.map fun h => if h.epi then 1 else linesHeld h.k h.va).sum

/-- A write that the full check-hold buffer cannot take now (R216). -/
def State.holdFull (s : State) (site key va : Nat) (k : ReqKind) : Bool :=
  k.holds && s.isHeld key && decide (holdSize < (s.core site).heldLines + linesHeld k va)

/-- Whether a load, or a `ldr.w`, meets a held store of its context (R141, R225). -/
def Env.meetsHeld (e : Env) (k : ReqKind) (va : Nat) : Bool :=
  match k with
  | .load _ n _ _ => e.line.held && e.core.hold.any fun h => h.who.key == e.key && h.covers va n
  | .ldrw _ => e.line.held && e.core.hold.any fun h => h.who.key == e.key && h.covers va 8
  | _ => false

/-! ## Issuing an access (R135, R139, R140) -/

/-- The instruction commits and the context waits with a wait kind until an answer (R139).  DEDUCED, log entry 28. -/
def State.leave (s : State) (e : Env) (kind : Nat) : State :=
  s.put (((e.note s).adv s.flen).wait s.gtime kind (if kind = 1 ∨ kind = 9 then 1 else 0))

/-- The address of the access a context waits for, with its KIND and SIZE (R69, R365, R366). -/
def Env.at (e : Env) (va : Nat) (k : ReqKind) : Env := { e with line := { e.line with waitAddr := W va, waitKs := k.kindSize } }

/-- An instruction that first waits for conditions at the core and then acts (R146, R147, R163, R164, R176). -/
def State.issueWait (s : State) (e : Env) (kind : Nat) (conds : List WaitFor) (act : After) : State :=
  let w := s.who e
  (s.leave e kind).modLine e.key fun l => { l with pend := some { who := w, conds := conds, act := act } }

/-- A request whose context waits with WT kind 1, or the kind given (R139). -/
def State.issueReq (s : State) (e : Env) (va : Nat) (k : ReqKind) (kind : Nat := 1) : State :=
  (s.leave (e.at va k) kind).sendReq (s.who e) va k

/-- An access that waits for conditions first, for a held store it reads (R141), or leaves at once; a held write that finds
the buffer full forfeits the turn. -/
def State.issueAccess (s : State) (e : Env) (va : Nat) (k : ReqKind) (conds : List WaitFor) : State :=
  let conds := if e.meetsHeld k va then .unheld :: conds else conds
  if s.holdFull e.site e.key va k then s
  else if conds.isEmpty then (s.leave (e.at va k) 1).accessOrHold (s.who e) va k
  else s.issueWait (e.at va k) 1 conds (.send va k)

/-- The check of R135 and then an access, recorded in the trace with its address (R378). -/
def State.checkedAccess (s : State) (e : Env) (kind bytes : Nat) (ea : Word) (k : ReqKind) (conds : List WaitFor) : State :=
  match eaFault kind bytes ea with
  | some f => s.raise e f
  | none => s.issueAccess (e.trace s.gtime 3 ea.toNat) ea.toNat k conds

end Sys2Proof.Machine
end

