-- ==== Sys2Proof/Machine/Device.lean ====
section
/-! DEFINITION. Register space: BAR 0 of function 0 as the physical map shows it (R353, R358, R359, R420), read and written
by the host, by peers and by contexts through DEVICE pages; and the operations a register write starts. -/

namespace Sys2Proof.Machine

/-- The first PA of register space and of the packet aperture (R353). -/
def regBase : Nat := 0x008000000000
/-- The end of register space. -/
def regEnd : Nat := 0x008004000000
/-- The packet aperture. -/
def apertureBase : Nat := 0x008008000000
/-- Its end. -/
def apertureEnd : Nat := 0x008008000400

/-- Whether something lies at a device PA (R353). -/
def deviceHas (pa : Nat) : Bool :=
  (decide (regBase ≤ pa) && decide (pa < regEnd)) || (decide (apertureBase ≤ pa) && decide (pa < apertureEnd))

/-! ## Rings, bias flips, interrupt cause, mailboxes -/

/-- A ring that nothing has written.  DESIGN CHOICE, log entry 3. -/
def Ring.reset : Ring := { rbase := 0, rctl := 0, rasid := 0, widx := 0, ridx := 0, rstat := 0, privs := [] }
/-- Ring k of a partition.  DESIGN CHOICE, log entry 3. -/
def Part.ring (p : Part) (k : Nat) : Ring := tgetD p.rings k Ring.reset
/-- The index size n of a ring (R317). -/
def Ring.n (r : Ring) : Nat := r.rctl % 32
/-- The number of unconsumed entries (R318). -/
def Ring.d (r : Ring) : Nat := (r.widx + 2 ^ 32 - r.ridx) % 2 ^ 32
/-- Whether the ring has been found overrun (R318). -/
def Ring.overrun (r : Ring) : Bool := r.rstat % 8 == 3
/-- RSTAT with its state bits, coded as in R327. -/
def Ring.stat (r : Ring) : Nat :=
  r.rstat / 8 * 8 + (if r.overrun then 3 else if r.d = 0 then 0 else if r.d < 2 ^ r.n then 1 else if r.d = 2 ^ r.n then 2 else 3)

/-- A write of RCTL; RST discards every unconsumed entry and ends OVERRUN (R318). -/
def Ring.writeCtl (r : Ring) (v : Nat) : Ring :=
  let keep := fld v 28 3 * 2 ^ 28 + v % 2 ^ 17
  if v.testBit 31 then { r with rctl := keep, ridx := r.widx, rstat := r.rstat / 8 * 8, privs := [] } else { r with rctl := keep }

/-- A ring whose WIDX the host writes: an entry outside the old and the new range is the host's (R319, R320). -/
def Ring.ringUp (r : Ring) (v : Nat) : Ring :=
  { r with
    widx := v % 2 ^ 32
    privs := r.privs.filter fun e => decide ((e.1 + 2 ^ r.n - r.ridx % 2 ^ r.n) % 2 ^ r.n < (v + 2 ^ 32 - r.ridx) % 2 ^ 32) }

/-- An interrupt cause bit is set by its event (R359).  DESIGN CHOICE, log entry 33. -/
def State.causeBit (s : State) (p bit : Nat) : State :=
  s.modPart p fun x => { x with icause := x.icause ||| 2 ^ bit }

/-- A write of the interrupt cause clears the bits written as 1 (R359).  DESIGN CHOICE, log entry 33. -/
def State.writeCause (s : State) (p v : Nat) : State :=
  s.modPart p fun x => { x with icause := x.icause &&& ((2 ^ 18 - 1) ^^^ (v % 2 ^ 18)) }

/-- The bias bit of an HBM page: host bias (R363).  DEDUCED, log entry 38. -/
def State.hostBias (s : State) (part ga : Nat) : Bool :=
  let base := wfld (s.part part).biasbase 12 40 * 4096
  decide (ga < hbmEnd) && base != 0 && (memGet s.mem (base + ga / 4096 / 8)).getLsbD (ga / 4096 % 8)

/-- GO: a flip of BFPAGE starts, or changes nothing and sets ERR while one runs; a page already in the requested bias
completes at once (R359, R364).  DEDUCED, log entry 38. -/
def State.biasGo (s : State) (p : Nat) (host : Bool) : State :=
  let x := s.part p
  if x.bfctl.testBit 2 then s.setPart p { x with bfctl := x.bfctl ||| 8 }
  else if s.hostBias p x.bfpage = host then (s.setPart p { x with bfctl := b2n host * 2 }).causeBit p 16
  else
    let s := s.setPart p { x with bfctl := 4 + b2n host * 2, flip := some (x.bfpage / 4096, b2n host) }
    -- the homes recall and drop the device's copies of the page's 64 lines, and snoop the lines the host holds (R364)
    (List.range 64).foldl (fun s i =>
      let g := x.bfpage / 64 + i
      let s := ((s.recallStashes g none true).recallOwned g none).dropVisitors g
      if host = false || (tget s.hostHeld g).isSome then
        s.send (.slice ((s.part p).home x.bfpage)) (.port 0) vnService (.bisnp g true none)
      else s) s

/-- A write of BFCTL. -/
def State.writeBfctl (s : State) (p v : Nat) : State :=
  if v.testBit 0 then s.biasGo p (v.testBit 1) else s.modPart p fun x => { x with bfctl := x.bfctl &&& 12 ||| (v &&& 2) }

/-- The mailbox of a number. -/
def State.box (s : State) (m : Nat) : Mailbox := tgetD s.reg.boxes m { cmd := 0, args := [0, 0, 0, 0], stat := 0 }
/-- The state with a mailbox replaced. -/
def State.setBox (s : State) (m : Nat) (b : Mailbox) : State := { s with reg := { s.reg with boxes := tset s.reg.boxes m b } }

/-- A write to CMD starts a request, unless one runs; a mailbox of a partition refuses requests that name another, and a
CMD with other bits set, which are not kept, or a code that R421 does not list is an operand error. -/
def State.mailCmd (s : State) (m v : Nat) : State :=
  let b := s.box m
  if b.stat % 4 = 1 then s
  else if (m < 16 && fld v 8 8 != m) || v / 2 ^ 16 != 0 || v % 256 == 0 || decide (9 < v % 256) then s.setBox m { b with cmd := v % 2 ^ 16, stat := 3 + 5 * 256 }
  else (s.setBox m { b with cmd := v, stat := 1 }).send (.port 0) .regulator vnControl (.reg m v b.args)

/-- A write to another register of a mailbox: while it is busy it changes nothing, and STAT is function 0's to write (R420, R421). -/
def State.mailWrite (s : State) (m o v : Nat) (full : Bool) : State :=
  let b := s.box m
  if b.stat % 4 = 1 then s
  else
    match o with
    | 0x08 => s.setBox m { b with args := b.args.set 0 v }
    | 0x10 => s.setBox m { b with args := b.args.set 1 v }
    | 0x18 => s.setBox m { b with args := b.args.set 2 v }
    | 0x20 => s.setBox m { b with args := b.args.set 3 v }
    | 0x28 => if full then s.setBox m { b with stat := v % 4 + fld v 8 8 * 256 } else s
    | _ => s

/-- The end of a request: done, or refused with a reason (R421). -/
def State.mailDone (s : State) (m : Nat) (reason : Option Nat) : State :=
  let b := s.box m
  s.setBox m { b with stat := match reason with
    | none => 2
    | some r => 3 + r * 256 }

/-! ## Injectors (R355) -/

/-- An injector that nothing has armed.  DESIGN CHOICE, log entry 14. -/
def Injector.reset : Injector := { ctl := 0#64, mask := 0#64, left := 0, fired := 0 }
/-- The injector of a number. -/
def State.inj (s : State) (i : Nat) : Injector := tgetD s.injectors i Injector.reset
/-- A write of INJCTL loads the count when it arms; its reserved bits [7:4] read zero (R5, R355). -/
def State.writeInjctl (s : State) (i : Nat) (v : Word) : State :=
  let x := s.inj i
  { s with injectors := tset s.injectors i { x with ctl := wput v 4 4 0, left := if v.getLsbD 0 then wfld v 32 32 else x.left } }

/-! ## Boot blocks (R437, R438) -/

/-- A boot block before the release of its boot core.  DESIGN CHOICE, log entry 14. -/
def Flood.reset : Flood :=
  { state := 0, boot := 0, routers := [], present := [], mapbase := 0, mapctl := 0, imgbase := 0, imgctl := 0, mapGo := [],
    imgGo := [], streams := 0, mapOk := false, mapErr := false, imgDone := false, imgErr := false, ok := [], bad := [], starts := [] }
/-- The boot block of a die. -/
def State.flood (s : State) (die : Nat) : Flood := tgetD s.floods die Flood.reset
/-- The state with a boot block replaced. -/
def State.setFlood (s : State) (die : Nat) (f : Flood) : State := { s with floods := tset s.floods die f }

/-- The 64-bit word of a boot block. -/
def Flood.word (f : Flood) (o : Nat) : Nat :=
  if o = 0 then
    f.ok.length % 2 ^ 11 * 2 ^ 32 + f.present.length % 2 ^ 11 * 2 ^ 16 + b2n f.imgErr * 2 ^ 6 + b2n f.imgDone * 2 ^ 5 +
      b2n f.mapErr * 2 ^ 4 + b2n f.mapOk * 2 ^ 3 + f.state % 4
  else if o = 0x08 then f.mapbase
  else if o = 0x10 then f.mapctl
  else if o = 0x18 then f.imgbase
  else if o = 0x20 then f.imgctl
  else if 0x80 ≤ o ∧ o < 0x100 then
    (List.range 64).foldl (fun x i => if f.present.contains ((o - 0x80) * 8 + i) then x + 2 ^ i else x) 0
  else 0

/-- Whether a length of an image is within its limits (R437). -/
def imageLenOk (n : Nat) : Bool := n % 64 == 0 && n != 0 && decide (n ≤ 32768)

/-- A write of a boot block's word: a GO is refused at once, but for what the map table holds, or waits for the block (R438). -/
def Flood.write (f : Flood) (o keep new : Nat) : Flood :=
  if o = 0x08 then { f with mapbase := fld keep 11 41 * 2 ^ 11 }
  else if o = 0x10 then
    let n := keep % 2 ^ 11
    let f := { f with mapctl := b2n (keep.testBit 31) * 2 ^ 31 + n }
    if !new.testBit 31 then f
    else if f.state = 2 ∧ n = f.present.length then { f with mapGo := f.mapGo ++ [(f.mapbase, n)] }
    else { f with mapErr := true }
  else if o = 0x18 then { f with imgbase := fld keep 6 46 * 2 ^ 6 }
  else if o = 0x20 then
    let n := keep % 2 ^ 16
    let f := { f with imgctl := b2n (keep.testBit 31) * 2 ^ 31 + n }
    if !new.testBit 31 then f
    else if f.mapOk && imageLenOk n then { f with imgGo := f.imgGo ++ [(f.imgbase, n)] }
    else { f with imgErr := true }
  else f

/-- Whether an offset lies in a boot block. -/
def inBootBlock (o : Nat) : Bool := decide (0x8000 ≤ o) && decide (o < 0xA000) && decide (o % 0x800 < 0x200)

/-! ## Register words -/

/-- The 64-bit word of a partition window at an offset that is a multiple of 8 (R359). -/
def Part.windowWord (p : Part) (o : Nat) : Nat :=
  if o < 0x400 then
    let r := p.ring (o / 64)
    match o % 64 with
    | 0 => r.rbase
    | 8 => r.rctl + r.rasid * 2 ^ 32
    | 16 => r.widx + r.ridx * 2 ^ 32
    | 24 => r.stat
    | _ => 0
  else if o = 0x1000 then p.bfpage
  else if o = 0x1008 then p.bfctl
  else if o = 0x2000 then p.icause
  else 0

/-- The bytes of the 32 slot records of a partition's image (R419). -/
def Part.patchRecord (p : Part) (i : Nat) : List Byte := tgetD p.image.slots i (List.replicate 32 0#8)

/-- A quad of a table's entries in the layout of R94. -/
def quadWord (t : List T3Entry) (q : Nat) : Nat :=
  let f (i : Nat) : Nat := let x := t.getD (4 * q + i) ⟨0#8, 0#3⟩; x.f.toNat * 256 + x.i.toNat
  q * 2 ^ 44 + f 3 * 2 ^ 33 + f 2 * 2 ^ 22 + f 1 * 2 ^ 11 + f 0

/-! ## Object readback (R424) -/

/-- A word of a barrier's entry in a barrier file, eight words each: every field of R329 (R424; the places of the fields are the
model's).  DESIGN CHOICE, log entry 8. -/
def Bar.word (b : Bar) (i : Nat) : Nat :=
  match i with
  | 0 => b.state % 4 + b2n b.group * 2 ^ 2 + b2n b.thr * 2 ^ 3 + b2n b.blk * 2 ^ 4 + b2n b.loc * 2 ^ 5 + b.phase % 2 ^ 16 * 2 ^ 16 +
      b.expa % 2 ^ 16 * 2 ^ 32 + b.arra % 2 ^ 16 * 2 ^ 48
  | 1 => b.expb % 2 ^ 32 + b.expbc % 2 ^ 32 * 2 ^ 32
  | 2 => b.arrb % 2 ^ 32 + b.ncons % 2 ^ 8 * 2 ^ 32 + b.ack0 % 2 ^ 8 * 2 ^ 40 + b.ack1 % 2 ^ 8 * 2 ^ 48
  | 3 => b.lp % 2 ^ 16 + b.gn % 2 ^ 13 * 2 ^ 16 + b.gi % 2 ^ 12 * 2 ^ 32
  | 4 => b.gtab
  | 5 => b.rcv0 % 2 ^ 12 + b.rcv1 % 2 ^ 12 * 2 ^ 16
  | _ => 0

/-- A word of a handle's entry in a handle table, four words each (R172, R173, R424).  DESIGN CHOICE, log entry 8. -/
def Handle.word (h : Handle) (i : Nat) : Nat :=
  match i with
  | 0 => (match h.st with
      | .undef => 0
      | .open_ => 1
      | .sealed_ => 2
      | .stash => 3) + h.fmt % 2 ^ 4 * 2 ^ 4 + h.ttab % 2 ^ 3 * 2 ^ 8 + h.rows % 2 ^ 16 * 2 ^ 16 + h.cols % 2 ^ 16 * 2 ^ 32 +
      h.refs % 2 ^ 12 * 2 ^ 48
  | 1 => h.offset % 2 ^ 32 + h.scoff % 2 ^ 32 * 2 ^ 32
  | 2 => h.sbase
  | _ => h.pitch % 2 ^ 32 + h.asid % 2 ^ 16 * 2 ^ 32

/-- The router at which an end point of the networks sends, by its site; a slice or an engine stands at its cluster's first site.
DESIGN CHOICE, log entry 8. -/
def Node.router (n : Node) : Option Nat :=
  match n with
  | .core site => some site
  | .slice cl | .engine cl => some (siteOf cl 0)
  | .die d => some (siteNo d 0 0)
  | .line _ | .placer _ | .desc _ | .regulator | .port _ => none

/-- The number of a service state, in the order in which R392 names them.  DESIGN CHOICE, log entry 8. -/
def CoreLife.code (l : CoreLife) : Nat :=
  match l with
  | .active => 0
  | .halted => 1
  | .containing => 2
  | .contained => 3
  | .retired => 4

/-- The partition whose window a device address lies in (R358). -/
def windowOf (pa : Nat) : Option Nat :=
  if regBase + 0x100000 ≤ pa ∧ pa < regBase + 0x1100000 then some ((pa - regBase - 0x100000) / 0x100000) else none

/-- A word of the object that the selector names (type [15:8], index [47:16]): context lines, queue heads, barrier files,
semaphores, handle tables, the messages that left a router and are on their way, directory entries, patch slots, grants, the active
copies of the type 3 tables and the service states of cores (R94, R392, R424).  The numbers of the types and the places of the fields are
the model's.  DESIGN CHOICE, log entry 8. -/
def State.objectWord (s : State) (i : Nat) : Nat :=
  let n := wfld s.reg.selector 16 32
  match wfld s.reg.selector 8 8 with
  | 0 => match s.line? n with
    | some l => leField l.bytes (8 * i) 8
    | none => 0
  | 1 => s.rdNat (n * 64 + 8 * i) 8
  | 2 => ((tget (s.core n).bars (i / 8)).map fun b => b.word (i % 8)).getD 0
  | 3 => tgetD (s.cl n).sems i 0
  | 4 => ((tget ((s.core n).ks.getD (i / 256) KSlot.reset).handles (i / 4 % 64)).map fun h => h.word (i % 4)).getD 0
  | 5 => match (s.net.filter fun x => x.src.router == some n)[i / 2]? with
    | some x => if i % 2 = 0 then x.id else x.vn
    | none => 0
  | 6 => if i = 0 then (List.range 4).foldl (fun x d => x + b2n (tget s.visitors (n * 4 + d)).isSome * 2 ^ d) 0 +
      (match tget s.hostHeld n with
        | none => 0
        | some .shared => 2 ^ 4
        | some .modified => 2 ^ 5) else 0
  | 7 => leField ((s.part n).patchRecord (i / 4)) (i % 4 * 8) 8
  | 8 => if i = 0 then (s.cl n).grant else 0
  | 9 => quadWord ((s.cl n).table (i / 4)) (i % 4)
  | 10 => if i = 0 then (s.core n).life.code else 0
  | _ => 0

/-- The 64-bit word of BAR 0 of function 0 at an offset that is a multiple of 8 (R358, R420): the window of R424 holds the
selector and then the words of the object.  DESIGN CHOICE, log entry 8; DESIGN CHOICE, log entry 82. -/
def State.regWord (s : State) (o : Nat) : Nat :=
  if inBootBlock o then (s.flood ((o - 0x8000) / 0x800)).word (o % 0x800)
  else if o < 0x10000 then (Config.deviceWord o 0).toNat
  else if o < 0x18100 then leNat (memRead s.mem (gDev + regBase + o) 8)
  else if 0x100000 ≤ o ∧ o < 0x1100000 then (s.part ((o - 0x100000) / 0x100000)).windowWord ((o - 0x100000) % 0x100000)
  else if 0x2000000 ≤ o ∧ o < 0x2011000 then
    let b := s.box ((o - 0x2000000) / 0x1000)
    match o % 0x1000 with
    | 0 => b.cmd
    | 0x08 => b.args.getD 0 0
    | 0x10 => b.args.getD 1 0
    | 0x18 => b.args.getD 2 0
    | 0x20 => b.args.getD 3 0
    | 0x28 => b.stat
    | _ => 0
  else if 0x2020000 ≤ o ∧ o < 0x2020800 then
    let c := s.cl ((o - 0x2020000) / 8)
    c.temp % 2 ^ 16 + c.grant % 2 ^ 16 * 2 ^ 16
  else if 0x2020800 ≤ o ∧ o < 0x2021000 then (Config.deviceWord o s.cycle).toNat % 2 ^ 32
  else if 0x2040000 ≤ o ∧ o < 0x2050000 then
    let j := s.inj ((o - 0x2040000) / 0x100)
    match o % 0x100 with
    | 0x00 => j.ctl.toNat
    | 0x08 => j.mask.toNat
    | 0x10 => j.left
    | 0x18 => j.fired
    | _ => 0
  else if 0x2080000 ≤ o ∧ o < 0x2080800 then (tgetD s.reg.acl ((o - 0x2080000) / 8) 0#64).toNat
  else if 0x2081000 ≤ o ∧ o < 0x2081040 then
    leNat ((List.range 8).map fun i => BitVec.ofNat 8 (tgetD s.reg.routes (o - 0x2081000 + i) 0))
  else if 0x3000000 ≤ o ∧ o < 0x3100000 then
    let p := s.part ((o - 0x3000000) / 0x10000)
    let j := o % 0x10000
    if j < 0x40 then leField (leBytes 8 p.image.ver ++ leBytes 32 p.image.hash ++ List.replicate 24 0#8) j 8
    else if j < 0x440 then leField (p.patchRecord ((j - 0x40) / 32)) (j % 32) 8
    else 0
  else if 0x3100000 ≤ o ∧ o < 0x3110000 then
    if o = 0x3100000 then s.reg.selector.toNat else s.objectWord ((o - 0x3100008) / 8)
  else 0

/-- Bytes read from register space at an offset. -/
def State.regRead (s : State) (o n : Nat) : List Byte :=
  (List.range n).map fun i => BitVec.ofNat 8 (s.regWord ((o + i) / 8 * 8) / 256 ^ ((o + i) % 8))

/-- A 64-bit word of a partition window written: `keep` is the old word with the bytes written replaced, `new` the bytes
written alone (R317, R359). -/
def State.windowWrite (s : State) (q o keep new : Nat) (lo hi : Bool) : State :=
  if o < 0x400 then
    let k := o / 64
    let r := (s.part q).ring k
    let put (r : Ring) : State := s.modPart q fun p => { p with rings := tset p.rings k r }
    match o % 64 with
    | 0 => put { r with rbase := keep }
    | 8 =>
      let r := if lo then r.writeCtl (keep % 2 ^ 32) else r
      put (if hi then { r with rasid := keep / 2 ^ 32 % 2 ^ 16 } else r)
    | 16 => if lo then put (r.ringUp (keep % 2 ^ 32)) else s
    | _ => s
  else if o = 0x1000 then s.modPart q fun p => { p with bfpage := fld keep 12 40 * 4096 }
  else if o = 0x1008 then s.writeBfctl q keep
  else if o = 0x2000 then s.writeCause q new
  else s

/-- Who writes a register: a function of the host with full rights, or a supervisor or other context of a partition. -/
inductive RegBy where
  | function0
  | context (part priv : Nat)
  deriving DecidableEq, Repr

/-- Whether a register write comes from function 0 or from a supervisor context (R420). -/
def RegBy.supervisor (r : RegBy) : Bool :=
  match r with
  | .function0 => true
  | .context _ priv => priv == 2

/-- Whether the path of a route carries messages: its port's direction keeps flits for replay, has flits of other devices to send, or is in the
middle of a message (R346, R349, R352). -/
def State.pathBusy (s : State) (r : Nat) : Bool :=
  r.testBit 7 && ((tget s.links (100 + r % 16)).map fun l =>
    l.st != .faulted && !(l.replay.isEmpty && l.queue.isEmpty && l.partly.isEmpty)).getD false

/-- Whether an access to a peer, or a message for it, is on its way (R352). -/
def State.peerBusy (s : State) (peer : Nat) : Bool :=
  s.inFlight.any fun y => y.dst == .port peer || match y.body with
    | .acc a => a.leaf.peer && a.leaf.peerId == peer
    | _ => false

/-- A route written: it changes only while neither its path nor the new one carries a message (R352).  DEDUCED, log entry 107. -/
def State.writeRoute (s : State) (peer v : Nat) : State :=
  let old := tgetD s.reg.routes peer 0
  if v = old ∨ s.pathBusy old ∨ s.pathBusy v ∨ s.peerBusy peer then s else { s with reg := { s.reg with routes := tset s.reg.routes peer v } }

/-- A 64-bit word of BAR 0 written; the management part ignores every write of a context but a supervisor's to the mailbox
of its own partition (R420).  DESIGN CHOICE, log entry 34. -/
def State.regWriteWord (s : State) (src : RegBy) (o keep new : Nat) (lo hi : Bool) : State :=
  let full := src == .function0
  if inBootBlock o then
    let d := (o - 0x8000) / 0x800
    s.setFlood d ((s.flood d).write (o % 0x800) keep new)
  else if 0x10000 ≤ o ∧ o < 0x18000 then { s with mem := memWrite s.mem (gDev + regBase + o) (leBytes 8 keep) }
  else if 0x100000 ≤ o ∧ o < 0x1100000 then s.windowWrite ((o - 0x100000) / 0x100000) (o % 0x100000) keep new lo hi
  else if 0x2000000 ≤ o ∧ o < 0x2011000 then
    let m := (o - 0x2000000) / 0x1000
    let mine := match src with
      | .function0 => true
      | .context p priv => p == m && priv == 2
    if mine then (if o % 0x1000 = 0 then s.mailCmd m keep else s.mailWrite m (o % 0x1000) keep full) else s
  else if full && decide (0x2040000 ≤ o ∧ o < 0x2050000) then
    let i := (o - 0x2040000) / 0x100
    match o % 0x100 with
    | 0x00 => s.writeInjctl i (W keep)
    | 0x08 => { s with injectors := tset s.injectors i { s.inj i with mask := W keep } }
    | 0x18 => { s with injectors := tset s.injectors i { s.inj i with fired := keep } }
    | _ => s
  else if full && decide (0x2080000 ≤ o ∧ o < 0x2080800) then
    { s with reg := { s.reg with acl := tset s.reg.acl ((o - 0x2080000) / 8) (W keep) } }
  else if full && decide (0x2081000 ≤ o ∧ o < 0x2081040) then
    (List.range 8).foldl (fun s i => s.writeRoute (o - 0x2081000 + i) (keep / 256 ^ i % 256)) s
  else if o = 0x3100000 ∧ src.supervisor then { s with reg := { s.reg with selector := W keep } }
  else s

/-- Bytes written to register space at an offset; the bytes lie within one aligned word of 8. -/
def State.regWrite (s : State) (src : RegBy) (o : Nat) (bs : List Byte) : State :=
  let a := o / 8 * 8
  let keep := leNat (patchBytes (leBytes 8 (s.regWord a)) (o % 8) bs)
  let new := leNat (patchBytes (List.replicate 8 0#8) (o % 8) bs)
  s.regWriteWord src a keep new (decide (o % 8 < 4)) (decide (4 < o % 8 + bs.length))

/-- Bytes read at a device PA (R353): the packet aperture reads zero. -/
def State.devRead (s : State) (pa n : Nat) : List Byte :=
  if regBase ≤ pa ∧ pa < regEnd then s.regRead (pa - regBase) n else List.replicate n 0#8

/-- Bytes written at a device PA by a context (R353). -/
def State.devWrite (s : State) (part priv pa : Nat) (bs : List Byte) : State :=
  if regBase ≤ pa ∧ pa < regEnd then s.regWrite (.context part priv) (pa - regBase) bs else s

end Sys2Proof.Machine
end

