-- ==== Sys2Proof/Machine/Memory.lean ====
section
/-! DEFINITION. The instructions of chapter 06 that name a virtual address or wait on the memory system: what they do at
the core (R135–R169).  What the homes do stands in Home.lean. -/

namespace Sys2Proof.Machine

/-- A fault whose rule names no address: FADDR is a free value (DESIGN CHOICE, log entry 7).  DESIGN CHOICE, log entry 2. -/
def State.raiseOpen (s : State) (e : Env) (cls sub kind size : Nat) : State :=
  ({ s with free := s.free + 1 }).raise e { cls := cls, sub := sub, kind := kind, size := size, faddr := Config.freeWord s.free }

/-! ## Loads and stores (R143–R147) -/

/-- The destination of a load of a size (R143). -/
def loadDst (z : MSize) (x : Bool) (d : Reg) : LdDst := if z = .q then .pair d else .reg d (sizeBytes z) x

/-- The bytes a store moves (R143): q takes the pair. -/
def storeData (e : Env) (z : MSize) (r : Reg) : List Byte :=
  if z = .q then leBytes 8 (e.reg r).toNat ++ leBytes 8 (e.reg (Reg.succ r)).toNat else leBytes (sizeBytes z) (e.reg r).toNat

/-- The effective address of the M layout (R143). -/
def maddr (e : Env) (z : MSize) (a : Reg) (i : BitVec 8) : Word := e.reg a + simm i * W (sizeBytes z)

/-- `ld.sz rd, [ra+imm]` (R143). -/
def execLd (g : Guard) (z : MSize) (x : Bool) (d a : Reg) (i : BitVec 8) (s : State) : Out :=
  guarded g s fun e =>
    s.checkedAccess e kLoad (sizeBytes z) (maddr e z a i) (.load (loadDst z x d) (sizeBytes z) .rlx .core) []

/-- `st.sz [ra+imm], rd` (R143). -/
def execSt (g : Guard) (z : MSize) (d a : Reg) (i : BitVec 8) (s : State) : Out :=
  guarded g s fun e =>
    s.checkedAccess e kStore (sizeBytes z) (maddr e z a i) (.store (storeData e z d) .rlx .core) []

/-- The conditions an ordered access waits for before it leaves (R146, R147, R151). -/
def orderConds (o : Order) (sc : Scope) : List WaitFor :=
  match o with
  | .rlx | .acq => []
  | .rel | .sc => releaseConds sc

/-- An ordered load (R145, R146). -/
def State.orderedLoad (s : State) (z : MSize) (x : Bool) (o : Order) (sc : Scope) (d a : Reg) : Out :=
  withEnv s fun e =>
    s.checkedAccess e kLoad (sizeBytes z) (e.reg a) (.load (loadDst z x d) (sizeBytes z) o sc) (if o = .sc then [.pwc] else [])

/-- `ld.sz.ord.scope rd, [ra]` (R145, R146). -/
def execLdOrd (z : MSize) (o : Order) (sc : Scope) (d a : Reg) (s : State) : Out := s.orderedLoad z false o sc d a

/-- `ld.ssz.ord.scope rd, [ra]` (R145, R146). -/
def execLdOrdSigned (z : MSize) (o : Order) (sc : Scope) (d a : Reg) (s : State) : Out := s.orderedLoad z true o sc d a

/-- `st.sz.ord.scope [ra], rb` (R145, R147). -/
def execStOrd (z : MSize) (o : Order) (sc : Scope) (a b : Reg) (s : State) : Out :=
  withEnv s fun e =>
    s.checkedAccess e kStore (sizeBytes z) (e.reg a) (.store (storeData e z b) o sc) (orderConds o sc)

/-! ## Typed loads and stores (R148, R149) -/

/-- The context waits, with PC at the instruction, until a table's swap is done, and then issues it again (R149, R214). -/
def State.awaitSwap (s : State) (e : Env) (t : Nat) : State :=
  let w := s.who e
  s.put { ((e.note s).wait s.gtime 9 1) with
    line := { ((e.note s).wait s.gtime 9 1).line with
      pend := some { who := w, conds := [.swapped (clusterOf e.site) t], act := .go } } }

/-- The table that a four-bit block access captures: only with a scale record of type 3 (R149). -/
def captureNo (f : MemFmt) (rb : Word) : Option Nat :=
  if f = .fp4 ∧ (scaleRec (wfld rb 0 16)).type = 3 then some (wfld rb 16 3) else none

/-- The scale-record check and the table capture of a typed access; then the access itself (R149).  DEDUCED, log entry 27. -/
def State.typedAccess (s : State) (e : Env) (f : MemFmt) (t : LaneType) (a b : Reg) (kind : Nat) (go : Env → State) : State :=
  let rb := e.reg b
  if f = .fp4 ∧ (scaleRec (wfld rb 0 16)).rsv ≠ 0 then
    s.raise e { cls := 0x07, sub := 0x01, kind := kind, size := log2Size (typedBytes f t), faddr := e.reg a }
  else
    match captureNo f rb with
    | some n => if (s.cl (clusterOf e.site)).t3swap.contains n then s.awaitSwap e n else go e
    | none => go e

/-- `ldt.mf.lt rd, [ra]` (R148).  DEDUCED, log entry 27. -/
def execLdt (f : MemFmt) (t : LaneType) (r : Round) (d a b : Reg) (s : State) : Out :=
  withEnv s fun e =>
    s.typedAccess e f t a b kLoad fun e =>
      let no := captureNo f (e.reg b)
      s.checkedAccess e kLoad (typedBytes f t) (e.reg a)
        (.load (.typed d f t r (wfld (e.reg b) 0 16) ((s.cl (clusterOf e.site)).table (no.getD 0)) no) (typedBytes f t) .rlx .core) []

/-- `stt.mf.lt [ra], rd` (R148): the register is read at issue, and its conversion, the flags and the LFSR's steps belong to the
commit, which is the acceptance (R139, R149).  DEDUCED, log entry 27. -/
def execStt (f : MemFmt) (t : LaneType) (r : Round) (sr : Bool) (d a b : Reg) (s : State) : Out :=
  withEnv s fun e =>
    s.typedAccess e f t a b kStore fun e =>
      let no := captureNo f (e.reg b)
      s.checkedAccess e kStore (typedBytes f t) (e.reg a)
        (.stt f t r sr (wfld (e.reg b) 0 16) ((s.cl (clusterOf e.site)).table (no.getD 0)) no (e.reg d)) []

/-! ## Atomics (R150–R154) -/

/-- An `amo` (R150, R151): with `rel` or `sc` the core waits for PWC = 0, and with scope rec for PDC = 0, first. -/
def State.amoIssue (s : State) (op : AmoOp) (y : AmoType) (o : Order) (sc : Scope) (d a b : Reg) : Out :=
  withEnv s fun e =>
    let wide := y = .i128
    let src := if wide then (e.reg b).toNat + 2 ^ 64 * (e.reg (Reg.succ b)).toNat else (e.reg b).toNat
    let cmp := if wide then (e.reg d).toNat + 2 ^ 64 * (e.reg (Reg.succ d)).toNat else (e.reg d).toNat
    s.checkedAccess e kAtomic (amoBytes y) (e.reg a) (.amo op y src cmp (some d) o sc false) (orderConds o sc)

/-- A `red` (R151, R154): it commits at issue and does not wait; with `rel` it forfeits turns until the counts are 0. -/
def State.redIssue (s : State) (op : AmoOp) (y : AmoType) (o : Order) (sc : Scope) (a b : Reg) : Out :=
  withEnv s fun e =>
    let ea := e.reg a
    let k := ReqKind.amo op y (e.reg b).toNat 0 none o sc false
    match eaFault kAtomic (amoBytes y) ea with
    | some f => s.raise e f
    | none =>
      if o = .rel ∧ (e.line.pwc ≠ 0 ∨ e.line.pdc ≠ 0 ∧ sc = .recov) then s
      else if s.holdFull e.site e.key ea.toNat k then s
      else (s.put ((e.trace s.gtime 3 ea.toNat).adv 4)).accessOrHold (s.who e) ea.toNat k

/-- `amo.add` (R150). -/
def execAmoAdd (y : AmoType) (o : Order) (sc : Scope) (d a b : Reg) (s : State) : Out := s.amoIssue .add y o sc d a b
/-- `amo.and` (R150). -/
def execAmoAnd (y : AmoType) (o : Order) (sc : Scope) (d a b : Reg) (s : State) : Out := s.amoIssue .and y o sc d a b
/-- `amo.or` (R150). -/
def execAmoOr (y : AmoType) (o : Order) (sc : Scope) (d a b : Reg) (s : State) : Out := s.amoIssue .or y o sc d a b
/-- `amo.xor` (R150). -/
def execAmoXor (y : AmoType) (o : Order) (sc : Scope) (d a b : Reg) (s : State) : Out := s.amoIssue .xor y o sc d a b
/-- `amo.min` (R150). -/
def execAmoMin (y : AmoType) (o : Order) (sc : Scope) (d a b : Reg) (s : State) : Out := s.amoIssue .min y o sc d a b
/-- `amo.max` (R150). -/
def execAmoMax (y : AmoType) (o : Order) (sc : Scope) (d a b : Reg) (s : State) : Out := s.amoIssue .max y o sc d a b
/-- `amo.minu` (R150). -/
def execAmoMinu (y : AmoType) (o : Order) (sc : Scope) (d a b : Reg) (s : State) : Out := s.amoIssue .minu y o sc d a b
/-- `amo.maxu` (R150). -/
def execAmoMaxu (y : AmoType) (o : Order) (sc : Scope) (d a b : Reg) (s : State) : Out := s.amoIssue .maxu y o sc d a b
/-- `amo.swap` (R150). -/
def execAmoSwap (y : AmoType) (o : Order) (sc : Scope) (d a b : Reg) (s : State) : Out := s.amoIssue .swap y o sc d a b
/-- `amo.cas` (R150). -/
def execAmoCas (y : AmoType) (o : Order) (sc : Scope) (d a b : Reg) (s : State) : Out := s.amoIssue .cas y o sc d a b
/-- `amo.cas128` (R150). -/
def execAmoCas128 (o : Order) (sc : Scope) (d a b : Reg) (s : State) : Out := s.amoIssue .cas .i128 o sc d a b
/-- `amo.fadd` (R150, R103). -/
def execAmoFadd (y : AmoType) (o : Order) (sc : Scope) (d a b : Reg) (s : State) : Out := s.amoIssue .fadd y o sc d a b
/-- `amo.fmin` (R150, R103). -/
def execAmoFmin (y : AmoType) (o : Order) (sc : Scope) (d a b : Reg) (s : State) : Out := s.amoIssue .fmin y o sc d a b
/-- `amo.fmax` (R150, R103). -/
def execAmoFmax (y : AmoType) (o : Order) (sc : Scope) (d a b : Reg) (s : State) : Out := s.amoIssue .fmax y o sc d a b
/-- `red.add` (R154). -/
def execRedAdd (y : AmoType) (o : Order) (sc : Scope) (a b : Reg) (s : State) : Out := s.redIssue .add y o sc a b
/-- `red.and` (R154). -/
def execRedAnd (y : AmoType) (o : Order) (sc : Scope) (a b : Reg) (s : State) : Out := s.redIssue .and y o sc a b
/-- `red.or` (R154). -/
def execRedOr (y : AmoType) (o : Order) (sc : Scope) (a b : Reg) (s : State) : Out := s.redIssue .or y o sc a b
/-- `red.xor` (R154). -/
def execRedXor (y : AmoType) (o : Order) (sc : Scope) (a b : Reg) (s : State) : Out := s.redIssue .xor y o sc a b
/-- `red.min` (R154). -/
def execRedMin (y : AmoType) (o : Order) (sc : Scope) (a b : Reg) (s : State) : Out := s.redIssue .min y o sc a b
/-- `red.max` (R154). -/
def execRedMax (y : AmoType) (o : Order) (sc : Scope) (a b : Reg) (s : State) : Out := s.redIssue .max y o sc a b
/-- `red.minu` (R154). -/
def execRedMinu (y : AmoType) (o : Order) (sc : Scope) (a b : Reg) (s : State) : Out := s.redIssue .minu y o sc a b
/-- `red.maxu` (R154). -/
def execRedMaxu (y : AmoType) (o : Order) (sc : Scope) (a b : Reg) (s : State) : Out := s.redIssue .maxu y o sc a b
/-- `red.fadd` (R154, R103). -/
def execRedFadd (y : AmoType) (o : Order) (sc : Scope) (a b : Reg) (s : State) : Out := s.redIssue .fadd y o sc a b
/-- `red.fmin` (R154, R103). -/
def execRedFmin (y : AmoType) (o : Order) (sc : Scope) (a b : Reg) (s : State) : Out := s.redIssue .fmin y o sc a b
/-- `red.fmax` (R154, R103). -/
def execRedFmax (y : AmoType) (o : Order) (sc : Scope) (a b : Reg) (s : State) : Out := s.redIssue .fmax y o sc a b

/-! ## Reservations (R155–R158) -/

/-- `ldr.w rd, [ra]` (R155, R156): the context waits with kind 3 for its grant, and before it asks for a held store that it reads
(R141, R225). -/
def execLdrW (d a : Reg) (s : State) : Out :=
  withEnv s fun e =>
    let ea := e.reg a
    match eaFault kResv 8 ea with
    | some f => s.raise e f
    | none =>
      let e := e.trace s.gtime 3 ea.toNat
      if e.meetsHeld (.ldrw d) ea.toNat then s.issueWait (e.at ea.toNat (.ldrw d)) 3 [.unheld] (.send ea.toNat (.ldrw d))
      else (s.leave (e.at ea.toNat (.ldrw d)) 3).sendReq (s.who e) ea.toNat (.ldrw d)

/-- `stc [ra], rb` (R155, R157): it waits for PWC = 0 first. -/
def execStc (a b : Reg) (s : State) : Out :=
  withEnv s fun e => s.checkedAccess e kResv 8 (e.reg a) (.stc (e.reg b)) [.pwc]

/-- `rcancel [ra]` (R155, R158): it does not wait. -/
def execRcancel (a : Reg) (s : State) : Out :=
  withEnv s fun e =>
    match eaFault kResv 8 (e.reg a) with
    | some f => s.raise e f
    | none =>
      let e := e.trace s.gtime 3 (e.reg a).toNat
      (s.put (e.adv 4)).sendReq (s.who e) (e.reg a).toNat .rcancel

/-! ## Fences, drains, cache maintenance, prefetch (R162–R168) -/

/-- The conditions of a fence (R163).  DEDUCED, log entry 29. -/
def fenceConds (e : Env) (o : Order) (sc : Scope) : List WaitFor :=
  let die := dieOf e.site
  let wide := sc = .dev ∨ sc = .sys ∨ sc = .recov
  match o with
  | .rlx => []
  | .acq => if wide then [.invals die e.line.lastReply] else []
  | .rel => releaseConds sc
  | .sc => releaseConds sc ++ (if wide then [.noInvals die] else [])

/-- `fence.ord.scope` (R163). -/
def execFence (o : Order) (sc : Scope) (s : State) : Out :=
  withEnv s fun e => s.issueWait e 1 (fenceConds e o sc) .go

/-- The numbers of the outstanding operations that a test picks. -/
def State.opsWhere (s : State) (p : OpInfo → Bool) : List Nat := (s.ops.filter fun o => p o.2).map (·.1)

/-- The outstanding stores, `red`s and `wenq`s of a context, from whichever core it issued them (R77). -/
def State.writesOf (s : State) (key : Nat) : List Nat := s.opsWhere fun o => o.cls == .gm && !o.copy && o.key == key

/-- The fork edge of an engine operation: the context's outstanding stores and `red`s, from whichever core it issued them, but no
engine operation of its own (R189, R207, R227, R238, R240). -/
def State.forkEdge (s : State) (key : Nat) : List Nat :=
  s.opsWhere fun o => o.cls == .gm && !o.copy && !o.wenq && o.key == key

/-- `drain.ts` (R164). -/
def execDrainTs (s : State) : Out :=
  withEnv s fun e => s.issueWait e 1 [.ops (s.opsWhere fun o => o.cls == .ts && o.site == e.site)] .go

/-- `drain.gm` (R164). -/
def execDrainGm (s : State) : Out :=
  withEnv s fun e => s.issueWait e 1 [.ops (s.opsWhere fun o => o.cls == .gm && o.site == e.site)] .go

/-- `drain.mx` (R164): the context's operations from this core. -/
def execDrainMx (s : State) : Out :=
  withEnv s fun e => s.issueWait e 1 [.ops (s.opsWhere fun o => o.cls == .mx && o.key == e.key && o.site == e.site)] .go

/-- An operation on the line that holds EA: only its canonical form is checked at the core (R165–R167). -/
def State.lineOp (s : State) (a : Reg) (k : ReqKind) : Out :=
  withEnv s fun e =>
    match canonFault kLoad 0xF (e.reg a) with
    | some f => s.raise e f
    | none =>
      let e := e.trace s.gtime 3 (e.reg a).toNat
      s.issueReq e (e.reg a).toNat k

/-- `cln.scope [ra]` (R165). -/
def execCln (sc : Scope) (a : Reg) (s : State) : Out := s.lineOp a (.cln sc)
/-- `cinv [ra]` (R166). -/
def execCinv (a : Reg) (s : State) : Out := s.lineOp a .cinv
/-- `iinv [ra]` (R167). -/
def execIinv (a : Reg) (s : State) : Out := s.lineOp a .iinv

/-- `pref [ra]` (R168): it does not wait and never faults. -/
def execPref (a : Reg) (s : State) : Out :=
  withEnv s fun e =>
    let ea := e.reg a
    if canonical ea then (s.put ((e.trace s.gtime 3 ea.toNat).adv 4)).sendReq (s.who e) ea.toNat .pref else s.put (e.adv 4)

end Sys2Proof.Machine
end

