-- ==== Sys2Proof/Machine/Walk.lean ====
section
/-! DEFINITION. The walk of the page tables (R246–R252): every entry is read and updated at its own home. -/

namespace Sys2Proof.Machine

/-- An ASID or page-table entry read at its home slice with acquire at device scope: a dirty stash copy is written back first, an
owner gives the line up, and no visitor copy answers (R250).  A home that the translation slice cannot reach answers NET (R351,
R395). -/
def State.entryRead (s : State) (part sl ga : Nat) : Except (Nat × Nat) (State × Nat) :=
  match s.unreached (dieOfCl sl) ((s.part part).home ga) with
  | some sub => .error (0x12, sub)
  | none =>
    let s := (s.recallStashes (ga / 64) none false).recallOwned (ga / 64) none
    .ok (s, s.rdNat ga 8)

/-- The atomic OR into an entry at its home: a write as any other, whose invalidations leave for the visitor copies (R250). -/
def State.entryOr (s : State) (part sl ga x : Nat) : State :=
  let old := s.rd (ga / 64 * 64) 64
  let s := (s.storeLine ((s.part part).home ga) sl ga (leBytes 8 x) [0, 1, 2, 3]).1
  s.noteSlice ((s.part part).home ga) (ga / 64) old [] false

/-- The levels of a walk from one table on (R247, R250): the leaf entry, its level and address, or class and subclass of a fault. -/
def State.walkLevels (s : State) (part sl : Nat) (levels : List Nat) (table va : Nat) : Except (Nat × Nat) (State × Nat × Nat × Nat) :=
  match levels with
  | [] => .error (0x04, 0x03)
  | level :: rest =>
    let at_ := table + 8 * ptIndex va level
    match s.entryRead part sl at_ with
    | .error f => .error f
    | .ok (s, x) =>
      if !x.testBit 0 then .error (0x04, 0x02)
      else if badEntry x level then .error (0x04, 0x03)
      else if x.testBit 7 then .ok (s, x, level, at_)
      else s.walkLevels part sl rest (fld x 12 40 * 4096) va

/-- The whole walk of R250 from the ASID entry to the leaf entry. -/
def State.walkTables (s : State) (part sl asid va : Nat) : Except (Nat × Nat) (State × Nat × Nat × Nat) :=
  match s.entryRead part sl ((s.part part).asidEntry asid) with
  | .error f => .error f
  | .ok (s, e) =>
    if !e.testBit 0 || fld e 52 12 != 0 || fld e 1 8 != 0 then .error (0x04, 0x04)
    else s.walkLevels part sl [4, 3, 2, 1, 0] (fld e 9 43 * 512) va

/-- The translations of a CONTIG leaf's range sent to their slices, each page's by its own entry where that is a CONTIG leaf too
(R251), which is read as every other entry is; one whose home cannot be reached fills nothing.  `at_` is the address of the walked entry. -/
def State.contigFill (s : State) (part asid va at_ : Nat) : State :=
  let va0 := va / 65536 * 65536
  let i0 := va / 4096 % 16
  (List.range 16).foldl (fun s i =>
    match s.entryRead part ((s.part part).tslice asid va) (at_ - 8 * i0 + 8 * i) with
    | .error _ => s
    | .ok (t, x) =>
      if i = i0 || !x.testBit 0 || !x.testBit 7 || !x.testBit 11 || badEntry x 0 then t
      else t.tfill part asid (va0 + 4096 * i) (leafOf x 0 (va0 + 4096 * i)) (x.testBit 9)) s

/-- A walk of the ROM's tables. -/
def State.walkRom (s : State) (part priv va : Nat) (c : Cat) : Except (Nat × Nat) (State × Leaf) :=
  match romLeaf va with
  | none => .error (0x04, 0x02)
  | some l =>
    match leafVerdict priv c l with
    | some f => .error f
    | none => .ok (s.tfill part 0 va l true, l)

/-- A walk of R250 with the A and D update and the fills of R251 and R252; or the class and subclass of the fault.  The append state
is not its matter: the access meets it in the cache, with A and D set (R254). -/
def State.walk (s : State) (part asid priv va : Nat) (c : Cat) : Except (Nat × Nat) (State × Leaf) :=
  let sl := (s.part part).tslice asid va
  if (s.part part).rom && asid == 0 then s.walkRom part priv va c
  else
    match s.walkTables part sl asid va with
    | .error f => .error f
    | .ok (s, x, level, at_) =>
      let l := leafOf x level va
      match leafVerdict priv c l with
      | some f => .error f
      | none =>
        let upd := x ||| 2 ^ 9 ||| (if c.writes then 2 ^ 8 else 0)
        let s := if upd = x then s else s.entryOr part sl at_ upd
        let l := { l with d := l.d || c.writes }
        let s := s.tfill part asid va l true
        .ok (if x.testBit 11 && level = 0 then s.contigFill part asid va at_ else s, l)

/-- A whole translation as one step: the cache, or else a walk; and the append state. -/
def State.xlate (s : State) (part asid priv va : Nat) (c : Cat) : Except (Nat × Nat) (State × Leaf) :=
  match s.tcheck part asid priv va c with
  | some (.ok l) => .ok (s, l)
  | some (.error f) => .error f
  | none =>
    match s.walk part asid priv va c with
    | .error f => .error f
    | .ok (s, l) =>
      match s.appendCheck part c l with
      | some f => .error f
      | none => .ok (s, l)

end Sys2Proof.Machine
end

