-- ==== Sys2Proof/Machine/Home.lean ====
section
/-! DEFINITION. The translation slice and the home: what a request meets on its way (R136–R144, R224–R231, R250–R254,
R361–R363), and the performance of loads, stores, atomics and engine writes. -/

namespace Sys2Proof.Machine

/-! ## Refusals -/

/-- Whether nothing waits for a request and its faults are dropped (R158, R168). -/
def ReqKind.silent (k : ReqKind) : Bool :=
  match k with
  | .pref | .rcancel => true
  | _ => false

/-- Whether a context goes on once its request is accepted, so that a later error is asynchronous (R139, R140). -/
def ReqKind.posted (k : ReqKind) : Bool :=
  match k with
  | .store _ o _ => o == .rlx || o == .acq
  | .amo _ _ _ _ none _ _ _ => true
  | .sth _ => true
  | .engAdd _ _ => true
  | _ => false

/-- A request that translation, permission or class refuses (R136, R140, R254). -/
def State.refuse (s : State) (sl : Nat) (w : Who) (va : Nat) (k : ReqKind) (tok : Nat) (f : Nat × Nat) : State :=
  if k.silent then s.endOp tok
  else
    let ks := k.kindSize
    let flt : Flt := { cls := f.1, sub := f.2, kind := ks.1, size := ks.2, faddr := W va }
    s.answerFault (.slice sl) w flt k.committed k.counts tok (if k.committed then some (deferredRecord s w k) else none) false

/-- An error of an engine operation's write (R140, R190): a copy or a matrix operation stops with it, and an accepted `wenq`
ends in an asynchronous fault and pushes no entry. -/
def State.engineError (s : State) (sl : Nat) (a : Acc) (f : Flt) : State :=
  let cl := clusterOf a.w.site
  let c := s.cl cl
  if c.copies.any fun x => x.id == a.tok then
    s.setCl cl { c with copies := c.copies.map fun x => if x.id = a.tok then { x with err := x.err.or (some f) } else x }
  else if c.erun.any fun r => r.op.id == a.tok then
    s.setCl cl { c with erun := c.erun.map fun r => { r with err := r.err.or (some f) } }
  else
    let pushes (y : Msg) : Bool := match y.body with
      | .wenqPush _ _ _ _ t _ => t == a.tok
      | _ => false
    { s with net := s.net.filter fun y => !pushes y }.answerFault (.slice sl) a.w f true false a.tok (some (deferredRecord s a.w a.k)) false

/-- An accepted request that ends in an error reply at its home (R140). -/
def State.accFault (s : State) (sl : Nat) (a : Acc) (f : Nat × Nat) : State :=
  let ks := a.k.kindSize
  let flt : Flt := { cls := f.1, sub := f.2, kind := ks.1, size := ks.2, faddr := W a.va }
  match a.k with
  | .eng _ _ => s.engineError sl a flt
  | _ =>
    if a.k.silent then s.endOp a.tok
    else
      s.answerFault (.slice sl) a.w flt a.k.posted a.k.counts a.tok
        (if a.k.posted then some (deferredRecord s a.w a.k) else none) (a.k.counts && a.leaf.durable)

/-! ## The translation slice (R136, R225, R250, R252) -/

/-- A request in its translation slice: requests of one context to one slice keep their order (R225, R226). -/
def State.reqMsg? (s : State) (m : Nat) : Option Msg :=
  match s.net.find? fun x => x.id == m with
  | none => none
  | some x =>
    let earlier := s.inFlight.any fun y => decide (y.id < m) && y.dst == x.dst && match y.body, x.body with
      | .req v _ _ _ _, .req w _ _ _ _ => v.key == w.key
      | _, _ => false
    if earlier || s.inFlits m then none else some x

/-- The walks that a slice has running, and whether one is for the page (R250). -/
def State.walks (s : State) (sl : Nat) (asid va : Nat) : Nat × Bool :=
  s.net.foldl (fun r y => match y.body with
    | .req w va' _ _ true => if y.dst == .slice sl then (r.1 + 1, r.2 || (w.asid == asid && va' / 4096 == va / 4096)) else r
    | _ => r) (0, false)

/-- The home slice of an accepted access.  For an APPEND page it is the append home, or, for a load of a page that the
translation cache knows to be SEALED, the slice of R253 among the requester's die's clusters (R253, R259, R265). -/
def State.homeOfAcc (s : State) (w : Who) (va : Nat) (k : ReqKind) (l : Leaf) (ga : Nat) : Nat :=
  let p := s.part w.part
  let die := dieOf w.site
  if l.cls ≠ 1 then p.home ga
  else
    let home := p.home (ga / 4096 * 4096)
    let known := ((s.tlookup w.part w.asid va).map (·.sealed_)).getD false
    if known && !k.writes && dieOfCl home != die then ({ p with mask := p.mask &&& (15 * 2 ^ (4 * die)) } : Part).home ga
    else home

/-- Whether a peer has a route: a valid entry that names one of the twelve ports, which is not FAULTED (R14, R352, R354).
DESIGN CHOICE, log entry 32. -/
def State.peerRoute (s : State) (peer : Nat) : Bool :=
  let r := tgetD s.reg.routes peer 0
  r.testBit 7 && decide (r % 16 < 12) && !(((tget s.links (100 + r % 16)).map fun l => l.st == .faulted).getD false)

/-- Whether a peer's port carries nothing for now: it is TRAINING or not yet enabled (R350). -/
def State.peerWaits (s : State) (peer : Nat) : Bool :=
  ((tget s.links (100 + tgetD s.reg.routes peer 0 % 16)).map fun l => l.st == .training || l.st == .down).getD false

/-- Whether an access may be the write of one whole packet into the packet aperture (R320, R353). -/
def ReqKind.packet (k : ReqKind) (pa : Nat) : Bool :=
  match k with
  | .eng d _ => d.length == 64 && pa % 64 == 0 && decide (apertureBase ≤ pa) && decide (pa < apertureEnd)
  | _ => false

/-- What the slice refuses beyond R254: an access to the context's own line, a hole of the device map, a peer without a
route or an address a peer denies; of a peer's aperture, only the write of one packet is allowed (R70, R353, R354). -/
def State.placeVerdict (s : State) (w : Who) (k : ReqKind) (l : Leaf) (ga : Nat) : Option (Nat × Nat) :=
  let pa := ga % 2 ^ 52
  let target := match k with
    | .wake | .resume _ _ | .migr | .send _ | .cln _ | .cinv => true
    | _ => false
  if l.peer then
    if !s.peerRoute l.peerId then some (0x12, 0x20)
    else if pa < hbmEnd || k.packet pa then none
    else some (0x12, 0x22)
  else if l.cls = 3 ∧ hbmEnd ≤ pa then
    (if !deviceHas pa then some (0x05, 0x12) else if (windowOf pa).any (· != w.part) then some (0x12, 0x02) else none)
  else if ga / 128 = w.key && !target then some (0x05, 0x10)
  else none

/-- The classes a stash line may be filled from (R179).  DEDUCED, log entry 86. -/
def stashClass (l : Leaf) : Bool := (l.cls == 0 && !l.peer) || l.cls == 2 || l.cls == 4

/-- Whether a filled line stays as a stash copy: never one of a HOST page (R244), and never half of a context line, whose bytes change
with its tag (R70).  An access to another line is performed at its home.  DEDUCED, log entry 86. -/
def State.stashKeeps (s : State) (l : Leaf) (ga : Nat) : Bool := l.cls != 4 && !s.inLine (ga / 64)

/-- The extra check of a stash fill: any other class refuses the touching access (R179).  DEDUCED, log entry 86. -/
def fillVerdict (k : ReqKind) (l : Leaf) : Option (Nat × Nat) :=
  match k with
  | .stashFill _ => if stashClass l then none else some (0x05, 0x12)
  | _ => none

/-- The instruction-cache key of a fetched line: ASID and VA (R167). -/
def ikey (asid va : Nat) : Nat := asid * 2 ^ 48 + va / 64

/-- Acceptance ends the wait of a plain store, a `wake` and a `resume` (R139, R76, R375). -/
def State.acceptEnds (s : State) (w : Who) (k : ReqKind) : State :=
  match k with
  | .store _ o _ => if o = .rlx ∨ o = .acq then s.decWait w.key else s
  | .wake | .resume _ _ => s.decWait w.key
  | _ => s

/-- A request that no rule lets fail at a home or slice it cannot reach: it waits there (R169).  DEDUCED, log entry 97. -/
def ReqKind.waitsOut (k : ReqKind) : Bool :=
  match k with
  | .cln _ | .cinv | .iinv => true
  | _ => false

/-- The virtual network of an accepted access: wakes and the messages of the completion tree are control (R345). -/
def ReqKind.network (k : ReqKind) : Nat :=
  match k with
  | .wake | .sync | .exitJoin => vnControl
  | _ => regVn

/-- A translated request is accepted: a plain store's context goes on and an `stt` commits, a write to a page of the recovery discipline counts
in PDC, and the access leaves for its home; `iinv` ends here, a no-op of R142 too.  A context's wake of itself is applied as it is
accepted, so that its next `park` continues at once (R76; DEDUCED, log entry 89). -/
def State.acceptReq (s : State) (sl m : Nat) (w : Who) (va : Nat) (k : ReqKind) (tok : Nat) (l : Leaf) : State :=
  let ga := l.ga va
  match (fillVerdict k l).or (s.placeVerdict w k l ga) with
  | some f =>
    match k with
    | .cln _ | .cinv => ((s.drop m).endOp tok).decWait w.key
    | .iinv => ((s.drop m).modCore w.site fun c => c.dropCode (· == ikey w.asid va)).decWait w.key
    | _ => (s.drop m).refuse sl w va k tok f
  | none =>
    let s := s.drop m
    let s := if k.counts && l.durable then s.modLine w.key fun x => { x with pdc := x.pdc + 1 } else s
    let (s, k) := s.commitStt w k
    let s := s.acceptEnds w k
    let go := s.send (.slice sl) (.slice (s.homeOfAcc w va k l ga)) k.network
      (.acc { w := w, va := va, ga := ga, leaf := l, k := k, tok := tok, snooped := false })
    match k with
    | .iinv => (s.modCore w.site fun c => c.dropCode (· == ikey w.asid va)).decWait w.key
    | .cln _ | .cinv =>
      if l.peer || l.cls = 3 then s.decWait w.key else go
    | .pref =>
      if l.peer || l.cls = 3 then s else go
    | .wake =>
      if ga / 128 = w.key then s.modLine w.key fun x => x.setTsw 24 1 1 else go
    | _ => go

/-- Requests that are not translated as one access: `wenq` and `rcommit` have steps of their own (R161, R401). -/
def ReqKind.ownStep (k : ReqKind) : Bool :=
  match k with
  | .wenq _ _ _ | .rcommit _ _ => true
  | _ => false

/-- Step TRANSLATE (R250, R252, R254): a request meets its slice's translation cache; with no entry a walk starts, at most
16 at once and one for a page.  It waits while an edge on its way carries nothing (R350). -/
def execTranslate (m : Nat) (s : State) : Out :=
  match s.reqMsg? m with
  | some x =>
    match x.dst, x.body with
    | .slice sl, .req w va k tok false =>
      if k.ownStep then .next s
      else
        if s.pathWaits (dieOf w.site) (dieOfCl sl) then .next s
        else
        match s.unreached (dieOf w.site) sl with
        | some sub => if k.waitsOut then .next s else .next ((s.drop m).refuse sl w va k tok (0x12, sub))
        | none =>
          match s.tcheck w.part w.asid w.priv va k.cat with
          | some (.ok l) => .next (s.acceptReq sl m w va k tok l)
          | some (.error f) => .next ((s.drop m).refuse sl w va k tok f)
          | none =>
            let r := s.walks sl w.asid va
            if r.1 < 16 && !r.2 then .next (s.rebody m (.req w va k tok true)) else .next s
    | _, _ => .next s
  | none => .next s

/-- Step PAGE_WALK (R246–R251): the walk of a request ends in a translation, which the request then meets in the cache, or
in a fault. -/
def execPageWalk (m : Nat) (s : State) : Out :=
  match s.net.find? fun x => x.id == m with
  | some x =>
    match x.dst, x.body with
    | .slice sl, .req w va k tok true =>
      match s.walk w.part w.asid w.priv va k.cat with
      | .ok (s, _) => .next (s.rebody m (.req w va k tok false))
      | .error f => .next ((s.drop m).refuse sl w va k tok f)
    | _, _ => .next s
  | none => .next s

/-! ## Arrival at the home -/

/-- An access at its home: accesses to one line that come from one slice on one network keep their order (R225, R226, R345). -/
def State.accMsg? (s : State) (m : Nat) : Option (Nat × Acc) :=
  match s.net.find? fun x => x.id == m with
  | some x =>
    match x.dst, x.body with
    | .slice sl, .acc a =>
      let earlier := s.inFlight.any fun y => decide (y.id < m) && y.src == x.src && y.dst == x.dst && match y.body with
        | .acc b | .hostReq _ _ b | .bisnp _ _ (some b) => b.ga / 64 == a.ga / 64 && b.k.network == a.k.network
        | _ => false
      if earlier || s.inFlits m then none else some (sl, a)
    | _, _ => none
  | none => none

/-- What stands between an access and its performance. -/
inductive Gate where
  | pass
  | wait
  /-- The line must come from the host, shared or owned (R361). -/
  | host (gline : Nat) (own : Bool)
  /-- The page is in host bias (R363). -/
  | snoop (inv : Bool)
  /-- The host's shared copy of the line is invalidated first (R363). -/
  | recall (gline : Nat)
  deriving DecidableEq, Repr

/-- Whether an access acts whatever slot has bound the line it names: on its tag, or on the calling core's copies only (R76, R78,
R165, R166). -/
def ReqKind.onTag (k : ReqKind) : Bool :=
  match k with
  | .wake | .resume _ _ | .migr | .cln _ | .cinv => true
  | _ => false

/-- Whether a page's bias flips (R364). -/
def State.flipping (s : State) (page : Nat) : Bool := s.parts.any fun p => p.2.flip.any fun f => f.1 == page

/-- Whether a host access to a page waits at its home since before an access (R364). -/
def State.hostFirst (s : State) (m page : Nat) : Bool :=
  s.net.any fun y => decide (y.id < m) && match y.body with
    | .hostAcc pa _ d _ => decide (pa / 4096 ≤ page) && decide (page ≤ (pa + d.length - 1) / 4096)
    | _ => false

/-- The gate of an access: a bound context line (R70), a page whose bias flips (R364), the program order of DEVICE accesses
(R142), a set whose ways are all pinned (R191), a line of host memory (R361), host bias and host copies (R363). -/
def State.gate (s : State) (m : Nat) (a : Acc) : Gate :=
  let n := a.k.span
  let bound := (List.range ((a.ga + n - 1) / 128 - a.ga / 128 + 1)).any fun i =>
    match s.line? (a.ga / 128 + i) with
    | some l => l.bound.isSome && l.life == .live
    | none => false
  let writes := a.k.writes
  if bound && !a.k.onTag then .wait
  else if decide (a.ga < hbmEnd) && s.allPinned (s.homeAt a.w.part (a.ga / 64)) (a.ga / 64) then .wait
  else if s.flipping (a.ga / 4096) || s.hostFirst m (a.ga / 4096) then .wait
  else if a.leaf.cls = 3 && s.inFlight.any fun y => decide (y.id < m) && match y.body with
      | .acc b => b.leaf.cls == 3 && b.w.key == a.w.key
      | _ => false then .wait
  else if gHost ≤ a.ga ∧ a.ga < gDev then
    if s.net.any fun y => decide (y.id < m) && match y.body with
      | .hostReq g _ _ => (glines a.ga n).contains g
      | _ => false then .wait
    else
      match (glines a.ga n).find? fun g => match tget s.hostHeld g with
          | none => true
          | some h => writes && h != .modified with
      | some g => .host g writes
      | none => .pass
  else if s.hostBias a.w.part a.ga && !a.snooped then .snoop writes
  else if writes && a.ga < hbmEnd && (tget s.hostHeld (a.ga / 64)).isSome then
    if s.net.any fun y => match y.body with
      | .bisnp g _ none => g == a.ga / 64
      | _ => false then .wait
    else .recall (a.ga / 64)
  else .pass

/-- The NET subclass of an access that its home cannot answer: as for a request, or its peer has no route any more; a SEALED page's
slice must reach the append home (R265, R351, R352, R395). -/
def State.accUnreached (s : State) (sl : Nat) (a : Acc) : Option Nat :=
  if a.leaf.peer && !s.peerRoute a.leaf.peerId then some 0x20
  else
    (s.unreached (dieOfCl ((s.part a.w.part).tslice a.w.asid a.va)) sl).or
      (if a.leaf.cls = 1 then s.unreached (dieOfCl sl) (s.homeAt a.w.part (a.ga / 4096 * 64)) else none)

/-- Whether an access waits in the buffers of an edge or port that carries nothing for now (R350). -/
def State.accWaits (s : State) (sl : Nat) (a : Acc) : Bool :=
  s.pathWaits (dieOfCl ((s.part a.w.part).tslice a.w.asid a.va)) (dieOfCl sl) || (a.leaf.peer && s.peerWaits a.leaf.peerId) ||
    (a.leaf.cls == 1 && s.pathWaits (dieOfCl sl) (dieOfCl (s.homeAt a.w.part (a.ga / 4096 * 64))))

/-- The device keeps at most 1,024 requests to the host outstanding (R360). -/
def State.hostFull (s : State) : Bool :=
  decide (1024 ≤ (s.net.filter fun y => match y.body with
    | .hostReq _ _ _ => true
    | _ => false).length)

/-- The verdict of the append home on an access to its page now (R260). -/
def ADesc.refuses (d : ADesc) : Option (Nat × Nat) :=
  if d.bad then some (0x06, 0x03) else if d.state = 2 then some (0x06, 0x04) else none

/-- The refusal, at its append home, of a request that reads a header, a record or a table (R260). -/
def State.headerRefused (s : State) (a : Acc) : Option (Nat × Nat) :=
  match a.k with
  | .launch | .gang | .grun _ | .groupTable _ => if a.leaf.cls = 1 then (s.adesc a.w.part (a.ga / 4096 * 4096)).refuses else none
  | _ => none

/-- A step of a home on an arriving access of the kinds it takes; `perform` takes the access off the network itself. -/
def homeArrival (m : Nat) (s : State) (takes : Acc → Bool) (perform : State → Nat → Acc → State) : Out :=
  match s.accMsg? m with
  | none => .next s
  | some (sl, a) =>
    if !takes a then .next s
    else
      if s.accWaits sl a then .next s
      else
      match s.accUnreached sl a with
      | some sub => if a.k.waitsOut then .next s else .next ((s.drop m).accFault sl a (0x12, sub))
      | none =>
        match s.headerRefused a with
        | some f => .next ((s.drop m).accFault sl a f)
        | none =>
        match s.gate m a with
        | .pass => .next (perform s sl a)
        | .wait => .next s
        | .host g own => if s.hostFull then .next s else .next (s.rebody m (.hostReq g own a))
        | .snoop inv => .next (s.rebody m (.bisnp (a.ga / 64) inv (some a)))
        | .recall g => .next (s.send (.slice sl) (.port 0) vnService (.bisnp g true none))

/-- A step of a home that takes an arriving access off the network and performs it. -/
def homeStep (m : Nat) (s : State) (takes : Acc → Bool) (perform : State → Nat → Acc → State) : Out :=
  homeArrival m s takes fun s sl a => perform (s.drop m) sl a

/-! ## Performing accesses -/

/-- The bytes of a page at its home: registers of a DEVICE page, zeros above the tail of an APPEND page (R261, R353). -/
def State.readPage (s : State) (part : Nat) (l : Leaf) (ga n : Nat) : List Byte :=
  if l.cls = 3 && !l.peer && decide (gDev ≤ ga) then s.devRead (ga % 2 ^ 52) n
  else if l.cls = 1 then
    let tail := (s.adesc part (ga / 4096 * 4096)).tail
    (List.range n).map fun i => if ga % 4096 + i < tail then s.rdByte (ga + i) else 0#8
  else s.rd ga n

/-- Whether copies of a page's lines may be made outside their home (R231, R244, R363).  DEDUCED, log entry 9. -/
def State.cacheable (s : State) (part : Nat) (l : Leaf) (ga : Nat) : Bool :=
  l.cls != 3 && !l.peer && !(s.hostBias part ga)

/-- An invalidation of a line on its way to a die. -/
def State.invalPending (s : State) (gline die : Nat) : Bool :=
  s.net.any fun y => match y.body with
    | .inval _ g d _ => g == gline && d == die
    | _ => false

/-- Whether the slice that forwards a load holds an earlier write to its line that is not performed everywhere
(R225): on no die is an invalidation of it on its way. -/
def State.ownWritePending (s : State) (m sl : Nat) (gline : Nat) : Bool :=
  s.inFlight.any fun y => match y.body with
    | .inval _ g _ via => g == gline && via == sl
    | .acc b | .hostReq _ _ b | .bisnp _ _ (some b) =>
      decide (y.id < m) && b.k.writes && b.ga / 64 == gline && y.src == .slice sl
    | _ => false

/-- A read at the home by a core or a unit: dirty stash copies are written back, another core's ownership ends, and a visitor copy on
the reader's die, which may be older, is dropped: that die never reads the older value again (R152, R180, R224, R228). -/
def State.homeRead (s : State) (site : Nat) (a : Acc) (n : Nat) : State × List Byte :=
  let s := (glines a.ga n).foldl (fun s g =>
    let s := (s.recallStashes g none false).recallOwned g (some site)
    { s with lastBy := tset s.lastBy g site, visitors := tdel s.visitors (vkey g (dieOf site)) }) s
  (s, s.readPage a.w.part a.leaf a.ga n)

/-- A visitor copy of a line is left on the reader's die when the home lies on another, none is on its way out, no core owns the line,
it is no half of a context line, the page may be cached, and its set has an unpinned way (R14, R70, R137, R153, R168; DEDUCED, log entry 9). -/
def State.leaveVisitor (s : State) (sl : Nat) (a : Acc) : State :=
  let g := a.ga / 64
  let die := dieOf a.w.site
  if die = dieOfCl sl || !(s.cacheable a.w.part a.leaf a.ga) || a.leaf.cls = 1 || s.invalPending g die || s.owned g || s.inLine g then s
  else
    let cl := clusterOf a.w.site
    let s := s.sliceRoom cl g
    if s.allPinned cl g then s else { s with visitors := tset s.visitors (vkey g die) (cl, s.rd (g * 64) 64) }

/-- A reply of a home to a context. -/
def State.reply (s : State) (sl : Nat) (w : Who) (a : Answer) (sc : Bool := false) : State :=
  s.send (.slice sl) (.line w.key) vnReply (.reply w a sc false 0)

/-- The bytes of a load go back: as registers, or as the record of an instruction. -/
def State.loadReply (s : State) (sl : Nat) (a : Acc) (dst : LdDst) (data : List Byte) (sc : Bool) : State :=
  match dst with
  | .hdef _ | .hmap _ | .mcfg _ => s.send (.slice sl) (.line a.w.key) vnReply (.record a.w dst data)
  | .reg _ _ _ | .pair _ | .typed _ _ _ _ _ _ _ => s.reply sl a.w (loadResult dst data) sc

/-- A load (R137, R143, R144): from the visitor copy of the reader's die where that may answer, else from the home. -/
def State.performLoad (s : State) (m sl via : Nat) (a : Acc) (dst : LdDst) (n : Nat) (o : Order) (sc : Scope) : State :=
  let g := a.ga / 64
  let die := dieOf a.w.site
  let old := if plainLoad o sc && a.leaf.cls != 1 && a.leaf.cls != 3 && !(s.ownWritePending m via g) then tget s.visitors (vkey g die) else none
  match old with
  | some v => s.loadReply sl a dst ((v.2.drop (a.ga % 64)).take n) (acqWide o sc)
  | none =>
    let (s, data) := s.homeRead a.w.site a n
    (s.leaveVisitor sl a).loadReply sl a dst data (acqWide o sc)

/-- Whether an engine operation's scope is its issuer's die, so that its writes are performed once the copies there are gone; the other
dies' copies are invalidated all the same, and a drain waits for them (R164, R239). -/
def narrow (sc : Scope) : Bool := sc == .core || sc == .clu || sc == .die

/-- A write performed at its home (R138, R152, R180, R229): every stash copy and owned line is recalled, the home holds the
new value, and invalidations leave for the visitor copies it reaches; a line written through a DEVICE page goes to HBM, since the slices
never cache it (R142, R244).  The number answered groups the invalidations. -/
def State.performWrite (s : State) (sl via : Nat) (a : Acc) (data : List Byte) : State × Nat :=
  let g := a.ga / 64
  if a.leaf.cls = 3 && !a.leaf.peer && decide (gDev ≤ a.ga) then
    let t := s.devWrite a.w.part a.w.priv (a.ga % 2 ^ 52) data
    (({ t with lastBy := tset t.lastBy g a.w.site } : State), s.nextId)
  else
    let old := s.rd (g * 64) 64
    let (s, grp) := s.storeLine sl via a.ga data [0, 1, 2, 3]
    let s := if a.leaf.cls = 3 then { s with slices := tdel s.slices g } else s.noteSlice sl g old [a] a.leaf.durable
    let s := s.noteMirror sl g a.leaf.durable
    (({ s with lastBy := tset s.lastBy g a.w.site } : State).closeHeld sl a.w a.va a.ga, grp)

/-- An atomic at its home (R150–R152): the old value goes back at once, or with the acknowledgement its order waits for;
a comparison that fails writes nothing and is acknowledged with the old value (R138). -/
def State.performAmo (s : State) (sl via : Nat) (a : Acc) (op : AmoOp) (y : AmoType) (src cmp : Nat) (dst : Option Reg) (o : Order)
    (sc : Scope) : State :=
  let g := a.ga / 64
  let i := predIdx a.w.asid a.va
  let s := if tget s.lastBy g == some a.w.site then
      s.modCore a.w.site fun c => { c with pred := if 2 ≤ tgetD c.pred i 0 then tset c.pred i (tgetD c.pred i 0 - 1) else c.pred }
    else s
  let (s, data) := s.homeRead a.w.site a (amoBytes y)
  let old := leNat data
  let ans := amoAnswer y dst old
  if amoWrites op y old cmp then
    let (s, grp) := s.performWrite sl via a (leBytes (amoBytes y) (amoNew op y old src cmp))
    let waits := dst.isSome && (o == .rel || o == .sc)
    let s := if dst.isSome && !waits then s.reply sl a.w ans (acqWide o sc) else s
    s.ackWrite sl a.w a.tok grp a.leaf.durable (if waits then some ans else none) (scWide o sc) (sc == .recov)
  else
    let s := s.send (.slice sl) (.line a.w.key) vnReply (.reply a.w ans (acqWide o sc) true a.tok)
    if a.leaf.durable then s.send (.slice sl) (.line a.w.key) vnReply (.dack a.w 0 none true) else s

/-- A store at its home and its acknowledgements (R138, R147). -/
def State.performStore (s : State) (sl via : Nat) (a : Acc) (data : List Byte) (o : Order) (sc : Scope) : State :=
  let (s, grp) := s.performWrite sl via a data
  s.ackWrite sl a.w a.tok grp a.leaf.durable (if a.k.endsAtAck then some Answer.none else none) (scWide o sc) (sc == .recov)

/-- A write of an engine operation at its home; at scope rec on a page of the recovery discipline it is performed once the
mirror holds it too (R239, R241).  A packet for a peer's aperture ends as the peer answers: taken, busy or denied (R320).
DEDUCED, log entry 83. -/
def State.performEng (s₀ : State) (sl via : Nat) (a : Acc) (data : List Byte) (sc : Scope) : State :=
  let packet := a.leaf.peer && decide (hbmEnd ≤ a.ga % 2 ^ 52)
  let answer := if packet then Config.peerAnswer s₀.free % 3 else 0
  let s : State := if packet then { s₀ with free := s₀.free + 1 } else s₀
  if answer = 1 then s.accFault sl a (0x12, 0x21)
  else if answer = 2 then s.accFault sl a (0x12, 0x22)
  else
  let (s, grp) := if packet then (s, s.nextId) else s.performWrite sl via a data
  s.send (.slice sl) (.engine (clusterOf a.w.site)) vnReply
    (.eack a.w a.tok grp (narrow sc) (if sc = .recov && a.leaf.durable then some (partner (dieOfCl sl)) else none) (a.w.key == noKey))

/-- `cln` at the home (R165): the calling core's dirty copy of the line is written back and stays clean, and the context goes on once
that write is performed, with scope rec on a page of the recovery discipline once it is durable; with no dirty copy it goes on
at once, with scope rec when PDC = 0.  What a core owns dirty is in no other copy, so its write-back is performed at once. -/
def State.performCln (s : State) (sl : Nat) (a : Acc) (sc : Scope) : State :=
  let c := s.core a.w.site
  let g := a.ga / 64
  let grp := s.nextId
  let dirty := c.owned.filter fun o => o.ga == g && o.dirty
  let s := dirty.foldl (fun s o => s.noteSlice sl g o.saved o.accs false) s
  let s := s.modCore a.w.site fun c =>
    { c with owned := c.owned.map fun o => if o.ga = g then { o with dirty := false, saved := s.rd (g * 64) 64, writers := [] } else o }
  let until_ (s : State) (conds : List WaitFor) : State :=
    if conds.isEmpty then s.reply sl a.w Answer.none
    else s.modLine a.w.key fun l => { l with pend := some { who := a.w, conds := conds, act := .go } }
  match (c.stashLine a.w.asid a.va).filter fun x => x.dirty with
  | some x => until_ (s.recallStash a.w.site x true) (.group grp :: if sc = .recov && x.leaf.durable then [.durable g] else [])
  | none => until_ s (if sc = .recov && dirty.isEmpty then [.pdc] else [])

/-- `cinv` at the home: the calling core's copy is written back if dirty and dropped, and so is a visitor copy in its own
cluster's slice (R166). -/
def State.performCinv (s : State) (sl : Nat) (a : Acc) : State :=
  let c := s.core a.w.site
  let s := (c.owned.filter fun o => o.ga == a.ga / 64).foldl (fun s o => s.giveUp a.w.site o) s
  let s := match c.stashLine a.w.asid a.va with
    | some x => s.recallStash a.w.site x false
    | none => s
  let k := vkey (a.ga / 64) (dieOf a.w.site)
  let s := if ((tget s.visitors k).map (·.1)) == some (clusterOf a.w.site) then { s with visitors := tdel s.visitors k } else s
  s.reply sl a.w Answer.none

/-- Step VISITOR_INVALIDATE (R229): a visitor copy of a die is invalidated; a copy that waited for it alone is complete (R164). -/
def execVisitorInvalidate (m : Nat) (s : State) : Out :=
  match s.msg? m with
  | some { body := .inval _ g d _, .. } => .next ({ s.drop m with visitors := tdel s.visitors (vkey g d) } : State).settleOps
  | _ => .next s

/-! ## Ownership (R153) -/

/-- A core's buffers hold 16 owned lines; the oldest is written back and released for a 17th. -/
def State.addOwned (s : State) (site : Nat) (o : Owned) : State :=
  let l := (s.core site).owned.filter fun x => x.ga != o.ga
  let s := if l.length < 16 then s else (l.take 1).foldl (fun s x => s.giveUp site x) s
  s.modCore site fun c => { c with owned := (c.owned.filter fun x => x.ga != o.ga) ++ [o] }

/-- Whether an atomic on a page may be executed at a core: never on half of a context line, whose bytes change with its tag (R70,
R153). -/
def State.ownable (s : State) (a : Acc) : Bool :=
  a.leaf.cls == 0 && !a.leaf.peer && !(s.hostBias a.w.part a.ga) && !s.inLine (a.ga / 64)

/-- Step OWNERSHIP_REQUEST (R153): any other owner is recalled, every visitor and stash copy is invalidated, the core owns
the line and executes the atomic; its write counts no more. -/
def execOwnershipRequest (m : Nat) (s : State) : Out :=
  homeStep m s
    (fun a => match a.k with
      | .amo _ _ _ _ _ _ _ own => own && s.ownable a
      | _ => false)
    fun s _ a =>
      match a.k with
      | .amo op y src cmp dst ord sc _ =>
        let g := a.ga / 64
        let i := predIdx a.w.asid a.va
        let recalled := s.ownedByOther g a.w.site
        let s := ((s.recallStashes g none true).recallOwned g (some a.w.site)).dropVisitors g
        let o : Owned := { asid := a.w.asid, va := a.va / 64 * 64, leaf := a.leaf, ga := g, saved := s.rd (g * 64) 64, dirty := false,
                           writers := [] }
        let s := (s.addOwned a.w.site o).modCore a.w.site fun c =>
          { c with pred := if recalled then tset c.pred i (min 3 (tgetD c.pred i 0 + 1)) else c.pred }
        let s := { s with lastBy := tset s.lastBy g a.w.site }
        ((s.decPwc a.w.key).endOp a.tok).localAmo a.w o a.va op y src cmp dst (acqWide ord sc)
      | _ => s

/-- Step OWNER_RECALL (R153): a core writes back and drops a line it owns. -/
def execOwnerRecall (c l : Nat) (s : State) : Out :=
  .next (((s.core c).owned.filter fun o => o.ga == l).foldl (fun s o => s.giveUp c o) s)

/-! ## Stash steps (R179, R180) -/

/-- The scratch place of a stash line: OFFSET + (VA − SBASE) in the kernel slot's window (R179). -/
def KSlot.stashPlace (k : KSlot) (h : Handle) (va : Nat) : Nat := k.winBase + h.offset + (va / 64 * 64 - h.sbase)

/-- A stash line filled from its home: other cores' dirty copies are written back first, and the die's visitor copy, which may be older,
goes (R179, R180, R228). -/
def State.fillStash (s : State) (site ks : Nat) (h : Handle) (asid va ga : Nat) (l : Leaf) : State × StashLine :=
  let g := ga / 64
  let s := (s.recallStashes g (some site) false).recallOwned g none
  let s : State := { s with visitors := tdel s.visitors (vkey g (dieOf site)) }
  let x : StashLine :=
    { asid := asid, va := va / 64 * 64, ga := g, ks := ks, at_ := ((s.core site).ks.getD ks KSlot.reset).stashPlace h va,
      dirty := false, leaf := l, writers := [] }
  (s.modCore site fun c =>
    { c with
      scratch := memWrite c.scratch x.at_ (s.rd (g * 64) 64)
      stash := (c.stash.filter fun y => !(y.asid == asid && y.va == x.va)) ++ [x] }, x)

/-- A present stash line takes the translation of an access that has gone through its slice (R142, R250). -/
def State.retagStash (s : State) (site : Nat) (x : StashLine) (l : Leaf) : State × StashLine :=
  let y := { x with leaf := l }
  (s.modCore site fun c => { c with stash := c.stash.map fun z => if z = x then y else z }, y)

/-- PROT 0x13, host bias (R179). -/
def protBias : Nat × Nat := (0x05, 0x13)

/-- A touch that its line's fill refuses: the access has not committed (R140, R179). -/
def State.fillFault (s : State) (sl : Nat) (a : Acc) (f : Nat × Nat) : State :=
  let flt : Flt := { cls := f.1, sub := f.2, kind := a.k.kindSize.1, size := a.k.kindSize.2, faddr := W a.va }
  s.answerFault (.slice sl) a.w flt false a.k.counts a.tok none (a.k.counts && a.leaf.durable)

/-- An access that touches the stash and is performed at its home all the same: an `stt` commits, and a plain store's context goes on
(R139, R149, R179). -/
def State.pastStash (s : State) (m : Nat) (a : Acc) (k : ReqKind) : State :=
  let (s, k) := s.commitStt a.w k
  (s.rebody m (.acc { a with k := k })).acceptEnds a.w k

/-- Step STASH_FILL (R179): an absent line that an access touches is filled, and the access is performed on it.  A line of a
page in host bias is not filled: the access goes on at the home, and an `ldh` or `sth` faults.  One that no stash may keep is not
filled either. -/
def execStashFill (m : Nat) (s : State) : Out :=
  match s.accMsg? m with
  | some (sl, a) =>
    match a.k with
    | .stashFill k =>
      if (s.accUnreached sl a).isSome then homeStep m s (fun _ => true) fun s _ _ => s
      else if s.hostBias a.w.part a.ga then
        match k with
        | .ldh _ | .sth _ => .next ((s.drop m).fillFault sl a protBias)
        | _ => .next (s.pastStash m a k)
      else if !s.stashKeeps a.leaf a.ga then .next (s.pastStash m a k)
      else
        match (s.core a.w.site).stashHandle a.w.asid a.va with
        | none => .next (s.pastStash m a k)
        | some (ks, h) =>
          homeStep m s (fun _ => true) fun s _ a =>
            let (s, x) := match (s.core a.w.site).stashLine a.w.asid a.va with
              | some x => s.retagStash a.w.site x a.leaf
              | none => s.fillStash a.w.site ks h a.w.asid a.va a.ga a.leaf
            let s := if k.counts && a.leaf.durable then s.decPdc a.w.key else s
            s.stashHit a.w x a.va k (if k.counts then some a.tok else none)
    | _ => .next s
  | none => .next s

/-- Step STASH_RECALL (R180, R191): a core writes a stash line back if it is dirty, and drops it, unless a copy has it pinned. -/
def execStashRecall (c l : Nat) (s : State) : Out :=
  match (s.core c).stash.find? fun x => x.ga == l with
  | some x => if 0 < s.pinCount l then .next s else .next (s.recallStash c x false)
  | none => .next s

end Sys2Proof.Machine
end

