-- ==== Sys2Proof/Machine/System.lean ====
section
/-! DEFINITION. The context, register, trap and system instructions (R74–R80, R374–R379) and the register writes they
share with the steps of the device. -/

namespace Sys2Proof.Machine

/-! ## Slots and lines (R63–R65) -/

/-- A slot unbinds its line: a waiting or exited one, or by rotation or `yield`, when the ready stamp is renewed (R65).  The
count of the time it is READY without being bound begins here, and an EMULATE sequence is abandoned (R412). -/
def State.unbind (s : State) (site slot : Nat) (renew : Bool) : State :=
  let c := s.core site
  match tget c.bound slot with
  | none => s
  | some key =>
    match s.line? key with
    | none => s.setCore site { c with bound := tdel c.bound slot, streak := tdel c.streak slot, emu := tdel c.emu slot }
    | some l =>
      let ks := (c.slotOf l.part l.kid).getD 0
      (s.setCore site { c with
          bound := tdel c.bound slot, streak := tdel c.streak slot, emu := tdel c.emu slot, trace := c.trace.record s.gtime 7 slot ks l.cid }).moveLine key
        { l with bound := none, lastSlot := slot, stamp := if renew then s.gtime else l.stamp, agedFrom := s.gtime }

/-- A slot binds a line of its core's L1, whose tag changes by it (R63, R65, R394). -/
def State.bindLine (s : State) (site slot key : Nat) : State :=
  match s.line? key with
  | none => s
  | some l =>
    let c := s.core site
    let ks := (c.slotOf l.part l.kid).getD 0
    (s.setCore site { c with
        bound := tset c.bound slot key, streak := tset c.streak slot 0, trace := c.trace.record s.gtime 6 slot ks l.cid }).setLine key
      { l with bound := some slot, lastSlot := slot }

/-- `yield` (R75): the slot unbinds the line at once, and its ready stamp is renewed. -/
def execYield (g : Guard) (s : State) : Out :=
  guarded g s fun e => (s.put (e.adv 4)).unbind e.site e.slot true

/-- `park` (R75): a wake token is consumed, or the context parks with kind 7. -/
def execPark (g : Guard) (s : State) : Out :=
  guarded g s fun e =>
    if e.line.wk then s.put { (e.adv 4) with line := { (e.adv 4).line.setTsw 24 1 0 with acqTo := s.nextId } }
    else s.put ((e.adv 4).wait s.gtime 7 0)

/-- The check of a context ID in a register: bits [63:47] are zero (R76).  DESIGN CHOICE, log entry 31. -/
def cidFault (ra : Word) : Option Flt :=
  if wfld ra 47 17 = 0 then none else some (fltCanon kContext 0xF ra)

/-- `wake ra` (R76): a release at device scope that waits until its translation slice accepts it.
DESIGN CHOICE, log entry 31. -/
def execWake (g : Guard) (a : Reg) (s : State) : Out :=
  guarded g s fun e =>
    match cidFault (e.reg a) with
    | some f => s.raise e f
    | none => s.issueWait e 1 [.pwc] (.send ((e.reg a).toNat * 128) .wake)

/-- `exit` (R77): the context waits until its held stores are released and its writes and `wenq`s are performed; what then
happens stands with the groups (R304).  DEDUCED, log entry 28. -/
def execExit (g : Guard) (s : State) : Out :=
  guarded g s fun e =>
    s.issueWait e 1 [.unheld, .pwc, .ops (s.writesOf e.key)] .exit

/-- `migr [ra]` (R78): the context waits until its line has moved.  DEDUCED, log entry 28. -/
def execMigr (g : Guard) (a : Reg) (s : State) : Out :=
  guarded g s fun e =>
    match canonFault kContext 0xF (e.reg a) with
    | some f => s.raise e f
    | none => s.issueReq e (e.reg a).toNat .migr

/-- `wid.f rd, n` (R80). -/
def widField (widths : List Nat) (wid : Word) (n : Nat) : Word :=
  let total := widths.foldl (· + ·) 0
  let upTo := (widths.take n).foldl (· + ·) 0
  W (wfld wid (total - upTo) (widths.getD (n - 1) 0))

/-- `wid.f rd, n` (R80). -/
def execWidF (g : Guard) (k : Fin 8) (d : Reg) (s : State) : Out :=
  computeRd g s d fun e => widField e.kslot.widths e.line.wid k.val

/-! ## System registers (R20, R48, R79, R380, R383) -/

/-- The privilege a read of a system register needs; none for a number that names no register. -/
def sysRead (n : Nat) : Option Nat :=
  if n ≤ 0x007 then some 0
  else if n = 0x008 then some 1
  else if 0x010 ≤ n ∧ n ≤ 0x017 then some 1
  else if 0x020 ≤ n ∧ n ≤ 0x027 then some 0
  else if 0x100 ≤ n ∧ n ≤ 0x105 then some 2
  else if 0x108 ≤ n ∧ n ≤ 0x10B then some 2
  else if 0x110 ≤ n ∧ n ≤ 0x114 then some 1
  else if n = 0x118 ∨ n = 0x120 then some 1
  else if 0x121 ≤ n ∧ n ≤ 0x123 ∨ n = 0x125 then some 2
  else none

/-- The privilege a write needs; none for a register nobody writes. -/
def sysWrite (n : Nat) : Option Nat :=
  if n = 0x007 ∨ (0x020 ≤ n ∧ n ≤ 0x027) then some 0
  else if n = 0x008 ∨ (0x010 ≤ n ∧ n ≤ 0x017) then some 2
  else if 0x100 ≤ n ∧ n ≤ 0x105 ∨ (0x108 ≤ n ∧ n ≤ 0x10B) then some 2
  else if n = 0x110 ∨ n = 0x112 ∨ n = 0x118 then some 1
  else if 0x121 ≤ n ∧ n ≤ 0x123 then some 2
  else none

/-- `$coreid` (R20). -/
def State.coreId (s : State) (site : Nat) : Nat :=
  dieOf site * 2 ^ 30 + siteY site * 2 ^ 24 + siteX site * 2 ^ 16 + ((s.core site).pos.getD 0xFFF)

/-- The shadow copy of a table. -/
def Cluster.shadow (c : Cluster) (t : Nat) : List T3Entry := tgetD c.t3shadow t (List.replicate 16 { i := 0#8, f := 0#3 })

/-- A write of `$ctblT` in the cluster's table store: four entries of the shadow copy, and the quad selector (R94). -/
def Cluster.writeTable (c : Cluster) (t : Nat) (v : Word) : Cluster :=
  let q := wfld v 44 2
  let e (i : Nat) : T3Entry := { i := BitVec.ofNat 8 (wfld v (11 * i) 8), f := BitVec.ofNat 3 (wfld v (11 * i + 8) 3) }
  let tab := (List.range 16).map fun i => if i / 4 = q then e (i % 4) else (c.shadow t).getD i ⟨0#8, 0#3⟩
  { c with t3shadow := tset c.t3shadow t tab, t3sel := tset c.t3sel t q }

/-- A recovery stream's registers (R398): NEXT counts from 1.  DESIGN CHOICE, log entry 3. -/
def Part.stream (p : Part) (i : Nat) : Stream := tgetD p.streams i { rcp := 0#64, next := 1 }

/-- `$tsw` as it reads: the reserved bits [31:25] and [7:6], which the line preserves (R61), read zero (R5, R59). -/
def tswRead (x : Word) : Word := wput (wput x 25 7 0) 6 2 0

/-- The value `mfs` reads (R79, R380, R383). -/
def State.sysValue (s : State) (e : Env) (n : Nat) : Word :=
  let p := s.partOf e.site
  let x := s.part p
  let t := e.core.trace
  match n with
  | 0x000 => W (s.coreId e.site)
  | 0x001 => W (clusterOf e.site)
  | 0x002 => W (dieOf e.site)
  | 0x003 => W s.gtime
  | 0x004 => e.line.wid
  | 0x005 => e.line.link
  | 0x006 => W e.ks
  | 0x007 => W e.core.lfsr.toNat
  | 0x008 => x.svcq
  | 0x100 => x.xlbase
  | 0x101 => x.apdbase
  | 0x102 => x.biasbase
  | 0x103 => x.ctqbase
  | 0x104 => x.ilv
  | 0x105 => x.sasid
  | 0x110 => t.ctl
  | 0x111 => W (t.next + b2n t.wrapped * 1024)
  | 0x112 => t.sel
  | 0x113 => W ((tgetD t.recs (wfld t.sel 0 10) (0, 0)).1)
  | 0x114 => W ((tgetD t.recs (wfld t.sel 0 10) (0, 0)).2)
  | 0x118 => tswRead e.line.tsw
  | 0x120 => W (p * 2 ^ 16 + x.mask)
  | 0x121 => x.gswt
  | 0x122 => x.gsout
  | 0x123 => x.gsin
  | 0x125 => x.gsstat
  | _ =>
    if 0x010 ≤ n ∧ n ≤ 0x017 then (x.stream (n - 0x010)).rcp
    else if 0x020 ≤ n ∧ n ≤ 0x027 then
      let c := s.cl (clusterOf e.site)
      W (quadWord (c.shadow (n - 0x020)) (tgetD c.t3sel (n - 0x020) 0))
    else if 0x108 ≤ n ∧ n ≤ 0x10B then x.repl.getD (n - 0x108) 0#64
    else 0#64

/-- Whether a write of a type 3 table by a core is still on its way to the table store (R79, R94). -/
def State.tablePending (s : State) (site t : Nat) : Bool :=
  s.net.any fun y => match y.body with
    | .ctbl c u _ => c == site && u == t
    | _ => false

/-- `mfs rd, $name` (R79): an unlisted number raises ILL, a read above the context's privilege PRIV; a read of a table
follows the writes of its core.  DEDUCED, log entry 19. -/
def execMfs (g : Guard) (n : BitVec 12) (d : Reg) (s : State) : Out :=
  withEnv s fun e =>
    match sysRead n.toNat with
    | none => s.raise e (fltIll e.line.pc)
    | some p =>
      if e.line.priv < p then s.raise e (fltPrivReg e.line.pc)
      else if !e.line.guard g then s.put (e.adv 4)
      else if 0x020 ≤ n.toNat ∧ n.toNat ≤ 0x027 ∧ s.tablePending e.site (n.toNat - 0x020) then s
      else
        let e' := e.commit s.cycle 4 d (s.sysValue e n.toNat)
        s.put (if 0x010 ≤ n.toNat ∧ n.toNat ≤ 0x017 then { e' with line := { e'.line with acqTo := s.nextId } } else e')

/-- A write of `$srseed` (R79, R88): zero becomes 1. -/
def seedOf (v : Word) : BitVec 32 := if wfld v 0 32 = 0 then 1#32 else BitVec.ofNat 32 (wfld v 0 32)

/-- A write of `$tsw` changes COOKIE, DLX and SVC (R383). -/
def Line.writeTsw (l : Line) (v : Word) : Line :=
  ((l.setTsw 32 32 (wfld v 32 32)).setTsw 16 8 (wfld v 16 8)).setTsw 4 1 (wfld v 4 1)

/-- A write of `$trcctl` clears FRZ (R379). -/
def Trace.writeCtl (t : Trace) (v : Word) : Trace := { t with ctl := wput (wput (wput v 11 1 0) 46 18 0) 13 3 0, post := none }

/-- A write of `$gswt` arms a gang switch: while one runs it sets ERR, and without a save area it is refused with ERR
(R385). -/
def Part.writeGswt (p : Part) (v : Word) : Part :=
  if wfld p.gsstat 0 2 = 2 then { p with gsstat := wput p.gsstat 2 1 1 }
  else if p.gsout = 0#64 then { p with gsstat := wput p.gsstat 2 1 1 }
  else { p with gswt := v, gsstat := wput (wput p.gsstat 0 2 1) 2 1 0 }

/-- The write of a partition's register, with the bits that read zero cleared (R314, R383). -/
def Part.writeSys (p : Part) (n : Nat) (v : Word) : Part :=
  match n with
  | 0x008 => { p with svcq := wput v 0 11 0 }
  | 0x100 => { p with xlbase := W (wfld v 3 49 * 8), rom := false }
  | 0x101 => { p with apdbase := W (wfld v 4 48 * 16) }
  | 0x102 => { p with biasbase := W (wfld v 12 40 * 4096) }
  | 0x103 => { p with ctqbase := W (wfld v 12 42 * 4096 + wfld v 0 5) }
  | 0x104 => { p with ilv := W (wfld v 0 1) }
  | 0x105 => { p with sasid := W (wfld v 0 16) }
  | 0x121 => p.writeGswt v
  | 0x122 => { p with gsout := v }
  | 0x123 => { p with gsin := v }
  | _ => if 0x108 ≤ n ∧ n ≤ 0x10B then { p with repl := p.repl.set (n - 0x108) (W (wfld v 21 31 * 2 ^ 21 + wfld v 0 16)) } else p

/-- `mts $name, rd` (R79, R94, R383, R398): a write that R48 forbids raises PRIV, before the guard is read; with the guard true (R27, R52),
a write of a table without TSW.MX raises MX; a write of a table whose swap is pending waits (R214); a write of a recovery register waits for the recovery-point unit.
DEDUCED, log entry 19. -/
def execMts (g : Guard) (n : BitVec 12) (d : Reg) (s : State) : Out :=
  withEnv s fun e =>
    let n := n.toNat
    let v := e.reg d
    match sysRead n with
    | none => s.raise e (fltIll e.line.pc)
    | some _ =>
      match sysWrite n with
      | none => s.raise e (fltPrivReg e.line.pc)
      | some p =>
        if e.line.priv < p then s.raise e (fltPrivReg e.line.pc)
        else if !e.line.guard g then s.put (e.adv 4)
        else if 0x020 ≤ n ∧ n ≤ 0x027 ∧ e.line.mx = false then s.raiseOpen e 0x0B 0x01 0 0xF
        else
          let done := e.adv 4
          if n = 0x007 then s.put { done with core := { done.core with lfsr := seedOf v } }
          else if 0x020 ≤ n ∧ n ≤ 0x027 then
            if (s.cl (clusterOf e.site)).t3swap.contains (n - 0x020) then s.awaitSwap e (n - 0x020)
            else (s.put done).send (.core e.site) (.engine (clusterOf e.site)) regVn (.ctbl e.site (n - 0x020) v)
          else if 0x010 ≤ n ∧ n ≤ 0x017 then
            (s.leave e 1).send (.core e.site) .regulator vnService (.rcp (s.who e) (n - 0x010) v false)
          else if n = 0x110 then s.put { done with core := { done.core with trace := done.core.trace.writeCtl v } }
          else if n = 0x112 then s.put { done with core := { done.core with trace := { done.core.trace with sel := W (wfld v 0 10) } } }
          else if n = 0x118 then s.put { done with line := done.line.writeTsw v }
          else (s.put done).modPart (s.partOf e.site) fun x => x.writeSys n v

/-- Step SRSEED_WRITE (R79).  DESIGN CHOICE, log entry 34. -/
def execSrseedWrite (c : Nat) (v : Word) (s : State) : Out := .next (s.modCore c fun x => { x with lfsr := seedOf v })

/-- Step TSW_WRITE (R383).  DESIGN CHOICE, log entry 34. -/
def execTswWrite (l : Nat) (v : Word) (s : State) : Out := .next (s.modLine l fun x => x.writeTsw v)

/-- Step TRCCTL_WRITE (R379).  DESIGN CHOICE, log entry 34. -/
def execTrcctlWrite (c : Nat) (v : Word) (s : State) : Out :=
  .next (s.modCore c fun x => { x with trace := x.trace.writeCtl v })

/-- Step GSWT_WRITE (R385).  DESIGN CHOICE, log entry 34. -/
def execGswtWrite (p : Nat) (v : Word) (s : State) : Out := .next (s.modPart p fun x => x.writeGswt v)

/-- Step CTBL_WRITE (R94): a table write reaches the cluster's table store.  DESIGN CHOICE, log entry 34. -/
def execCtblWrite (m : Nat) (s : State) : Out :=
  match s.msg? m with
  | some { body := .ctbl site t v, .. } => .next ((s.drop m).modCl (clusterOf site) fun c => c.writeTable t v)
  | _ => .next s

/-- Whether a commit or a write of a stream that reached the recovery-point unit before a message is not complete: they are
served one at a time, in arrival order (R398, R401).  DEDUCED, log entry 71. -/
def State.committing (s : State) (part st m : Nat) : Bool :=
  s.net.any fun y => decide (y.id < m) && match y.body with
    | .commit w c => w.part == part && c.st == st
    | .rcp w n _ true => w.part == part && n == st
    | _ => false

/-- Step RCP_WRITE (R398): after every earlier commit of the stream, `$rcpS` and NEXT are set, and the writer goes on; one that must wait
keeps its place among what has arrived.  DESIGN CHOICE, log entry 34. -/
def execRcpWrite (m : Nat) (s : State) : Out :=
  match s.msg? m with
  | some { body := .rcp w st v here, .. } =>
    let pa := wfld v 5 47 * 32
    let ok := v.getLsbD 63 && decide (pa < hbmEnd)
    let next := if ok then s.rdNat pa 8 + 1 else 1
    let rcp := W (pa + b2n ok * 2 ^ 63)
    if s.committing w.part st (if here then m else s.nextId) then
      .next (if here then s else (s.drop m).send (.core w.site) .regulator vnService (.rcp w st v true))
    else .next (((s.drop m).modPart w.part fun p => { p with streams := tset p.streams st { rcp := rcp, next := next } }).decWait w.key)
  | _ => .next s

/-! ## Traps and system instructions (R375, R376) -/

/-- `trap imm12` (R376). -/
def execTrap (g : Guard) (i : BitVec 12) (s : State) : Out :=
  guarded g s fun e => s.raise e { cls := 0x0E, sub := 0x00, kind := 0, size := 0xF, faddr := W i.toNat }

/-- `ebrk` (R376). -/
def execEbrk (g : Guard) (s : State) : Out :=
  guarded g s fun e => s.raise e { cls := 0x0F, sub := 0x00, kind := 0, size := 0xF, faddr := e.line.pc }

/-- A guarded instruction that needs a privilege, checked before the guard (R51, R52).  DEDUCED, log entry 19. -/
def privileged (p : Nat) (g : Guard) (s : State) (f : Env → State) : Out :=
  withEnv s fun e =>
    if e.line.priv < p then s.raise e (fltPriv e.line.pc) else if e.line.guard g then f e else s.put (e.adv 4)

/-- `resume ra, mode, rb` (R375).  DEDUCED, log entry 19; DESIGN CHOICE, log entry 31. -/
def execResume (g : Guard) (m : ResumeMode) (a b : Reg) (s : State) : Out :=
  privileged 1 g s fun e =>
    let rb := e.reg b
    if m = .handler ∧ rb.getLsbD 0 then s.raise e { cls := 0x03, sub := 0x01, kind := 0, size := 0xF, faddr := rb }
    else if m = .handler ∧ canonical rb = false then s.raise e (fltCanon 0 0xF rb)
    else
      match cidFault (e.reg a) with
      | some f => s.raise e f
      | none => s.issueWait e 1 [.pwc] (.send ((e.reg a).toNat * 128) (.resume m rb))

/-- `trc imm12` (R376, R379): a record of kind 5, and perhaps the trigger. -/
def execTrc (g : Guard) (i : BitVec 12) (s : State) : Out :=
  guarded g s fun e =>
    let t := e.core.trace.record s.gtime 5 e.slot e.ks i.toNat
    let t := t.trigger (wfld t.ctl 8 3 == 2 && wfld t.ctl 24 12 == i.toNat)
    s.put { (e.adv 4) with core := { (e.adv 4).core with trace := t } }

/-! ## What arrives at a line: wakes, resumes, moves (R76, R78, R375) -/

/-- Step WAKE_APPLY (R76): a parked context becomes READY, any other live one keeps a token.  DEDUCED, log entry 10. -/
def execWakeApply (m : Nat) (s : State) : Out :=
  homeStep m s (fun a => a.k == .wake) fun s _ a =>
    let key := a.ga / 128
    match s.line? key with
    | none => s
    | some l =>
      if l.life != .live then s
      else if l.wtKind = 7 then (s.makeReady key).acquires key
      else s.setLine key (l.setTsw 24 1 1)

/-- A wake sent by a home to a context ID (R316): the live line of that ID (DEDUCED, log entry 10). -/
def State.wakeCid (s : State) (part cid : Nat) : State :=
  match s.lines.find? fun e => e.2.cid == cid && e.2.life == .live && e.2.part == part with
  | none => s
  | some (key, l) => if l.wtKind = 7 then (s.makeReady key).acquires key else s.setLine key (l.setTsw 24 1 1)

/-- Step RESUME_APPLY (R375): a line parked for a fault, of no higher privilege than the issuer, becomes READY.
DEDUCED, log entry 10; DEDUCED, log entry 30. -/
def execResumeApply (m : Nat) (s : State) : Out :=
  homeStep m s
    (fun a => match a.k with
      | .resume _ _ => true
      | _ => false)
    fun s _ a =>
      match a.k, s.line? (a.ga / 128) with
      | .resume mode pc, some l =>
        if l.life != .live || l.wtKind != 6 || decide (a.w.priv < l.priv) then s
        else (s.setLine (a.ga / 128) (l.resumed mode pc s.gtime).takeHeld).acquires (a.ga / 128)
      | _, _ => s

/-- Whether some core of a cluster hosts a kernel (R67, R78). -/
def State.clHosts (s : State) (cl part kid : Nat) : Bool :=
  (List.range 16).any fun i =>
    let c := s.core (siteOf cl i)
    c.life == .active && (c.slotOf part kid).isSome

end Sys2Proof.Machine
end

