-- ==== Sys2Proof/Machine/Handles.lean ====
section
/-! DEFINITION. Handles (R170–R183), `ldh` and `sth`, and the issue of `wenq` (R159, R160). -/

namespace Sys2Proof.Machine

/-! ## Descriptors (R173–R175) -/

/-- The size of an element format in bits (R174). -/
def eltBits (fmt : Nat) : Nat :=
  match fmt with
  | 0 | 4 => 64
  | 1 | 5 => 32
  | 2 | 6 | 7 => 16
  | 3 | 8 | 9 => 8
  | _ => 4

/-- The bytes of a row without padding (R173). -/
def rowBytesOf (cols fmt : Nat) : Nat := cols * eltBits fmt / 8
/-- The bytes of a handle's row. -/
def Handle.rowBytes (h : Handle) : Nat := rowBytesOf h.cols h.fmt

/-- A descriptor record against a window of `win` bytes; none when it breaks R173.  `map` says that `hmap` reads it. -/
def parseRecord (bs : List Byte) (win : Nat) (map : Bool) : Option Handle :=
  let f := leField bs
  let offset := f 0 4
  let rows := f 4 2
  let cols := f 6 2
  let fmt := f 8 1
  let ttab := f 9 1
  let pitch := f 12 4
  let sbase := f 16 8
  let scoff := f 24 4
  let rb := rowBytesOf cols fmt
  let ok :=
    offset % 32 == 0 && decide (1 ≤ rows) && decide (rows ≤ 4096) && decide (1 ≤ cols) && decide (cols ≤ 8192) &&
    decide (fmt ≤ 10) && (fmt != 10 || cols % 32 == 0) && decide (ttab < 8) && (fmt == 10 || ttab == 0) && f 10 2 == 0 &&
    pitch % 32 == 0 && decide ((rb + 31) / 32 * 32 ≤ pitch) && (!map || pitch % 64 == 0) &&
    (if map then sbase % 64 == 0 && decide (sbase < 2 ^ 54) else sbase == 0) &&
    scoff % 2 == 0 && (fmt == 10 || scoff == 0) && f 28 4 == 0 &&
    decide (offset + (rows - 1) * pitch + rb ≤ win) && (fmt != 10 || decide (scoff + rows * cols / 16 ≤ win))
  if ok then some { st := .open_, offset := offset, rows := rows, cols := cols, fmt := fmt, ttab := ttab, pitch := pitch,
                    sbase := sbase, scoff := scoff, refs := 0, asid := 0 }
  else none

/-- A handle of a kernel slot; one that nothing defines is UNDEF (R172). -/
def KSlot.handle (k : KSlot) (h : Nat) : Option Handle := tget k.handles h

/-- The scratch offset of a row (R175). -/
def KSlot.rowAt (k : KSlot) (h : Handle) (r : Nat) : Nat := k.winBase + h.offset + r * h.pitch

/-- The payload of a handle: its rows without padding (R160). -/
def Core.payload (c : Core) (ks : Nat) (h : Handle) : List Byte :=
  let k := c.ks.getD ks KSlot.reset
  (List.range h.rows).flatMap fun r => memRead c.scratch (k.rowAt h r) h.rowBytes

/-- The code of a handle state, as `hinfo` and the stack of R176 name it. -/
def HState.code (s : HState) : Nat :=
  match s with
  | .undef => 0
  | .open_ => 1
  | .sealed_ => 2
  | .stash => 3

/-- A handle entry changed in a kernel slot of a core. -/
def Core.setHandle (c : Core) (ks h : Nat) (x : Option Handle) : Core :=
  let k := c.ks.getD ks KSlot.reset
  c.setKs ks { k with handles := match x with
    | some v => tset k.handles h v
    | none => tdel k.handles h }

/-- HANDLE faults of the core's checks; their rules name no address.  DESIGN CHOICE, log entry 7. -/
def State.handleFault (s : State) (e : Env) (sub : Nat) (kind : Nat := 0) : State := s.raiseOpen e 0x08 sub kind 0xF

/-- The conditions of a handle that takes a new descriptor or goes: reference count 0 and no write into it pending (R176). -/
def State.handleConds (s : State) (e : Env) (h : Nat) : List WaitFor :=
  [.refs e.site e.ks h, .ops (s.opsWhere fun o => o.site == e.site && o.dest == some (e.ks, h))]

/-! ## Handle instructions (R176, R181, R182) -/

/-- `hdef h, [ra]` (R176, R181). -/
def execHdef (h : HNum) (a : Reg) (s : State) : Out :=
  withEnv s fun e =>
    let bad : Bool := match e.kslot.handle h.val with
      | none => false
      | some x => x.st == .sealed_ || x.st == .stash
    match eaFault kLoad 32 (e.reg a) with
    | some f => s.raise e f
    | none =>
      if bad then s.handleFault e 0x01
      else s.issueAccess (e.trace s.gtime 3 (e.reg a).toNat) (e.reg a).toNat (.load (.hdef h.val) 32 .rlx .core) []

/-- `hmap h, [ra]` (R176, R179, R181): only an UNDEF handle may be mapped (DEDUCED, log entry 11). -/
def execHmap (h : HNum) (a : Reg) (s : State) : Out :=
  withEnv s fun e =>
    match eaFault kLoad 32 (e.reg a) with
    | some f => s.raise e f
    | none =>
      if (e.kslot.handle h.val).isSome then s.handleFault e 0x01
      else s.issueAccess (e.trace s.gtime 3 (e.reg a).toNat) (e.reg a).toNat (.load (.hmap h.val) 32 .rlx .core) []

/-- `hinfo rd, h` (R182). -/
def handleInfo (x : Option Handle) : Word :=
  match x with
  | none => 0#64
  | some h => W (h.refs % 4096 * 2 ^ 44 + h.st.code * 2 ^ 40 + h.fmt * 2 ^ 32 + h.cols * 2 ^ 16 + h.rows)

/-- `hinfo rd, h` (R182). -/
def execHinfo (h : HNum) (d : Reg) (s : State) : Out :=
  computeRdU s d fun e => handleInfo (e.kslot.handle h.val)

/-- `hseal h` (R176). -/
def execHseal (h : HNum) (s : State) : Out :=
  withEnv s fun e =>
    match e.kslot.handle h.val with
    | none => s.handleFault e 0x01
    | some x =>
      match x.st with
      | .open_ => s.issueWait e 9 [.ops (s.opsWhere fun o => o.site == e.site && o.dest == some (e.ks, h.val))] (.handle h.val none 2)
      | .sealed_ => s.put (e.adv 4)
      | .undef | .stash => s.handleFault e 0x01

/-- `hopen h` (R176). -/
def execHopen (h : HNum) (s : State) : Out :=
  withEnv s fun e =>
    match e.kslot.handle h.val with
    | none => s.handleFault e 0x01
    | some x =>
      match x.st with
      | .open_ => s.put (e.adv 4)
      | .sealed_ => s.issueWait e 9 [.refs e.site e.ks h.val] (.handle h.val none 1)
      | .undef | .stash => s.handleFault e 0x01

/-- The stash lines of a STASH handle (R179). -/
def Core.linesOf (c : Core) (h : Handle) : List StashLine :=
  c.stash.filter fun x => x.asid == h.asid && decide (h.sbase ≤ x.va) && decide (x.va < h.sbase + h.rows * h.pitch)

/-- Every stash line of a handle written back if dirty and dropped (R172, R176, R180). -/
def State.dropStash (s : State) (site : Nat) (h : Handle) : State :=
  ((s.core site).linesOf h).foldl (fun s x => s.recallStash site x false) s

/-- A STASH handle's lines written back and dropped for an `hunmap`, with what it waits for: its writers' writes, and every invalidation
that a write-back has sent (R138, R176).  A line that a tile vector operation has written has no writer: the `hunmap` receives the NET
fault of its write-back, after commit (R140, R199). -/
def State.unmapStash (s : State) (w : Who) (h : Handle) : State × List WaitFor :=
  let lines := (s.core w.site).linesOf h
  lines.foldl (fun (r : State × List WaitFor) x =>
    let away := s.unreached (dieOf w.site) (s.homeAt (s.partOf w.site) x.ga)
    let t := r.1.recallStash w.site x false
    if !x.dirty then (t, r.2)
    else match away with
      | none => (t, r.2 ++ [.group r.1.nextId])
      | some sub =>
        if !x.writers.isEmpty then (t, r.2)
        else
          let k : ReqKind := .store ((s.core w.site).stashRead x x.va 64) .rlx .core
          (t.answerFault (.core w.site) w { cls := 0x12, sub := sub, kind := kStore, size := 6, faddr := W x.va } true false 0
            (some (deferredRecord t w k)) false, r.2)) (s, [.ops (lines.flatMap fun l => l.writers.map (·.tok))])

/-- `hunmap h` (R176): a STASH handle's dirty lines are written back and performed first. -/
def execHunmap (h : HNum) (s : State) : Out :=
  withEnv s fun e =>
    match e.kslot.handle h.val with
    | none => s.handleFault e 0x01
    | some x =>
      match x.st with
      | .stash =>
        let (t, conds) := (s.issueWait e 9 [] (.handle h.val none 0)).unmapStash (s.who e) x
        t.modLine e.key fun l => { l with pend := some { who := s.who e, conds := conds, act := .handle h.val none 0 } }
      | .open_ | .sealed_ | .undef => s.issueWait e 9 (s.handleConds e h.val) (.handle h.val none 0)

/-- The end of a handle instruction's wait: the new descriptor or the new state (R176). -/
def State.setHandleNow (s : State) (w : Who) (h : Nat) (rec_ : Option (List Byte)) (st : Nat) : State :=
  let k := (s.core w.site).ks.getD w.ks KSlot.reset
  let new : Option Handle := match rec_ with
    | some bs => parseRecord bs k.winSize false
    | none =>
      match k.handle h with
      | none => none
      | some x => if st = 1 then some { x with st := .open_ } else if st = 2 then some { x with st := .sealed_ } else none
  (s.modCore w.site fun c => c.setHandle w.ks h new).makeReady w.key

/-- The wait of a handle instruction is over (R176): an `hunmap` that finds stash lines written since it began writes them back and
waits for them too. -/
def State.finishHandle (s : State) (w : Who) (h : Nat) (rec_ : Option (List Byte)) (st : Nat) : State :=
  let c := s.core w.site
  match rec_, (c.ks.getD w.ks KSlot.reset).handle h with
  | none, some x =>
    if x.st = .stash then
      let (s, conds) := s.unmapStash w x
      if (c.linesOf x).all fun l => !l.dirty then s.setHandleNow w h rec_ st
      else s.modLine w.key fun l => { l with pend := some { who := w, conds := conds, act := .handle h none 0 } }
    else s.setHandleNow w h rec_ st
  | _, _ => s.setHandleNow w h rec_ st

/-- Whether two ranges of addresses meet. -/
def meets (a n b m : Nat) : Bool := decide (a < b + m) && decide (b < a + n)

/-- The record of a handle that has changed its state meanwhile is refused (R176). -/
def State.recordRefused (s : State) (w : Who) : State :=
  ({ s with free := s.free + 1 }).faultAt w { cls := 0x08, sub := 0x01, kind := 0, size := 0xF, faddr := Config.freeWord s.free }

/-- The record of `hdef` arrives (R173, R176): an UNDEF handle takes it; an OPEN one first waits with kind 9. -/
def State.recordHdef (s : State) (w : Who) (h : Nat) (bs : List Byte) : State :=
  let k := (s.core w.site).ks.getD w.ks KSlot.reset
  match parseRecord bs k.winSize false with
  | none =>
    ({ s with free := s.free + 1 }).faultAt w { cls := 0x08, sub := 0x03, kind := kLoad, size := 5, faddr := Config.freeWord s.free }
  | some x =>
    match k.handle h with
    | none => (s.modCore w.site fun c => c.setHandle w.ks h (some x)).makeReady w.key
    | some y =>
      if y.st = .sealed_ ∨ y.st = .stash then s.recordRefused w
      else
      let conds := [WaitFor.refs w.site w.ks h, .ops (s.opsWhere fun o => o.site == w.site && o.dest == some (w.ks, h))]
      s.modLine w.key fun l => { l with
        wt := mkWt 9 1, waitFrom := s.gtime, pend := some { who := w, conds := conds, act := .handle h (some bs) 1 } }

/-- The record of `hmap` arrives (R176, R179): a handle defined meanwhile raises HANDLE 0x01; a range that meets another STASH handle's on
the core, of whatever address space, raises HANDLE 0x03.  DEDUCED, log entry 100. -/
def State.recordHmap (s : State) (w : Who) (h : Nat) (bs : List Byte) : State :=
  let c := s.core w.site
  let k := c.ks.getD w.ks KSlot.reset
  let clash (x : Handle) : Bool :=
    c.ks.any fun k => k.handles.any fun y =>
      y.2.st == .stash && meets x.sbase (x.rows * x.pitch) y.2.sbase (y.2.rows * y.2.pitch)
  let bad : State :=
    ({ s with free := s.free + 1 }).faultAt w { cls := 0x08, sub := 0x03, kind := kLoad, size := 5, faddr := Config.freeWord s.free }
  match parseRecord bs k.winSize true with
  | none => bad
  | some x =>
    if (k.handle h).isSome then s.recordRefused w
    else if clash x then bad
    else (s.modCore w.site fun c => c.setHandle w.ks h (some { x with st := .stash, asid := w.asid })).makeReady w.key

/-! ## `ldh` and `sth` (R183, R216) -/

/-- The scratch address of the element that an index register names, or the fault of R183: HANDLE 0x04 or ALIGN 0x03. -/
def elementAddr (k : KSlot) (h : Handle) (ra : Word) : Except (Nat × Nat) (Nat × Nat) :=
  let r := wfld ra 16 16
  let c := wfld ra 0 16
  if wfld ra 32 32 != 0 || decide (h.rows ≤ r) || decide (h.cols ≤ c) then .error (0x08, 0x04)
  else if h.fmt = 10 ∧ c % 16 ≠ 0 then .error (0x03, 0x03)
  else
    let a := k.rowAt h r + c * eltBits h.fmt / 8
    if a % 8 ≠ 0 then .error (0x03, 0x03) else .ok (a, r)

/-- The unchecked rows that an access to a handle's row depends on (R216). -/
def Cluster.uncheckedRow (c : Cluster) (site ks h row : Nat) : List (Nat × Nat) :=
  (c.unchecked.filter fun u => u.site == site && u.ks == ks && (u.h == h || u.epiH == some h) && u.row == row).map fun u =>
    (u.opId, u.row)

/-- `ldh rd, h, ra` (R183): a stash line is filled first where absent; reading an unchecked row sets TSW.HELD (R216). -/
def execLdh (h : HNum) (d a : Reg) (s : State) : Out :=
  withEnv s fun e =>
    match e.kslot.handle h.val with
    | none => s.handleFault e 0x01
    | some x =>
      match elementAddr e.kslot x (e.reg a) with
      | .error f => s.raiseOpen e f.1 f.2 kLoad 3
      | .ok (at_, row) =>
        if x.st = .stash then
          let va := x.sbase + (at_ - (e.kslot.winBase + x.offset))
          let e := e.trace s.gtime 3 va
          match s.stashReady { s.who e with asid := x.asid } va (.ldh d) with
          | some l => s.put (e.commit s.cycle 4 d (W (leNat (e.core.stashRead l va 8))))
          | none => s.issueReq e va (.stashFill (.ldh d))
        else
          let deps := (s.cl (clusterOf e.site)).uncheckedRow e.site e.ks h.val row
          let e' := e.commit s.cycle 4 d (W (leNat (memRead e.core.scratch at_ 8)))
          if deps.isEmpty then s.put e'
          else s.put { e' with
            line := e'.line.setTsw 5 1 1
            core := { e'.core with holders := tset e'.core.holders e.key (tgetD e'.core.holders e.key [] ++ deps) } }

/-- `sth h, ra, rb` (R183). -/
def execSth (h : HNum) (a b : Reg) (s : State) : Out :=
  withEnv s fun e =>
    match e.kslot.handle h.val with
    | none => s.handleFault e 0x01
    | some x =>
      if x.st = .sealed_ then s.handleFault e 0x02
      else
        match elementAddr e.kslot x (e.reg a) with
        | .error f => s.raiseOpen e f.1 f.2 kStore 3
        | .ok (at_, _) =>
          if x.st = .stash then
            let va := x.sbase + (at_ - (e.kslot.winBase + x.offset))
            let e := e.trace s.gtime 3 va
            match s.stashReady { s.who e with asid := x.asid } va (.sth (e.reg b)) with
            | some l => (s.put (e.adv 4)).stashStore (s.who e) l va (.sth (e.reg b)) (leBytes 8 (e.reg b).toNat) false none
            | none => s.issueReq e va (.stashFill (.sth (e.reg b)))
          else
            let e' := e.adv 4
            s.put { e' with core := { e'.core with scratch := memWrite e'.core.scratch at_ (leBytes 8 (e.reg b).toNat) } }

/-! ## `wenq` at its core (R159, R160) -/

/-- `wenq h, [ra], rb` (R160): the payload is copied at issue; an UNDEF or STASH handle and a size that is no multiple of 8
from 8 to 256 are refused. -/
def execWenq (sc : Scope) (h : HNum) (a b : Reg) (s : State) : Out :=
  withEnv s fun e =>
    match e.kslot.handle h.val with
    | none => s.handleFault e 0x01
    | some x =>
      let n := x.rows * x.rowBytes
      if x.st = .stash then s.handleFault e 0x01
      else if n % 8 ≠ 0 ∨ n < 8 ∨ 256 < n then s.handleFault e 0x05
      else
        let ea := e.reg a
        let flt := if canonical ea then
            (if ea.toNat % 8 = 0 then none else some { cls := 0x03, sub := 0x02, kind := kStore, size := log2Size n, faddr := ea })
          else some (fltCanon kStore (log2Size n) ea)
        match flt with
        | some f => s.raise e f
        | none =>
          s.issueAccess (e.trace s.gtime 3 ea.toNat) ea.toNat (.wenq (e.core.payload e.ks x) sc (e.reg b).toNat) []

end Sys2Proof.Machine
end

