-- ==== Sys2Proof/Machine/Replies.lean ====
section
/-! DEFINITION. Answers that reach a context line (R68, R71, R72, R138, R372, R396): load replies, long-operation
completions, acknowledgements and fault answers. -/

namespace Sys2Proof.Machine

/-- The message of a number that may be delivered: none sent before it has its end points and network, and every edge on its way
carries traffic (R226, R345, R350). -/
def State.find? (s : State) (m : Nat) : Option Body :=
  (s.msg? m).map (·.body)

/-- Whether an answer of an operation that acquires, or is sc, at dev or wider must wait: an invalidation for the issuing die that left
before it is not applied yet (R163, R232, R236).  DEDUCED, log entry 29; DEDUCED, log entry 95. -/
def State.scBlocked (s : State) (m die : Nat) (sc : Bool) : Bool :=
  sc && s.invalsBefore die m

/-- Whether an answer writes an s register. -/
def Answer.toS (a : Answer) : Bool := a.regs.any fun r => decide (8 ≤ r.1.val)


/-- The newest reply that a line has received (R163). -/
def State.noteReply (s : State) (key m : Nat) : State := s.modLine key fun l => { l with lastReply := max l.lastReply m }

/-- A NET reply to the access a line waits for (R365, R393).  DEDUCED, log entry 88. -/
def State.netAnswer (s : State) (w : Who) (sub kind size : Nat) : State :=
  s.faultLine w.key w.site true false false w.enc w.len (some w.pc)
    { cls := 0x12, sub := sub, kind := kind, size := size, faddr := ((s.line? w.key).map (·.waitAddr)).getD 0#64 } none

/-- Whether the s bank that an answer names is gone: its core does not serve, or its kernel slot hosts another kernel (R392,
R393). -/
def State.bankGone (s : State) (w : Who) : Bool :=
  let c := s.core w.site
  !c.serves || c.slotOf w.part (((s.line? w.key).map (·.kid)).getD 0) != some w.ks

/-- The data of a sequence's load reach the registers that it names, and the slot goes on (R412, R413). -/
def State.emuAnswer (s : State) (m : Nat) (w : Who) (a : Answer) : State :=
  match s.emuOf? w with
  | none => s
  | some r =>
    let put (r : EmuRun) (x : Reg × Word) : EmuRun :=
      if x.1.val < 8 then { r with v := r.v.set x.1.val x.2 } else { r with x := r.x.set (x.1.val - 8) x.2 }
    (s.modCore w.site fun c => { c with emu := tset c.emu w.slot { a.regs.foldl put r with loading := false } }).noteReply w.key m

/-- KIND and SIZE of the access that a line waits for (R365, R366). -/
def State.waitsFor (s : State) (w : Who) : Nat × Nat := ((s.line? w.key).map (·.waitKs)).getD (kLoad, 0xF)

/-- A reply is applied to its line: registers, flags, the counts it ends, and the wait; the data of an EMULATE sequence's load stay with the
sequence (R68, R138, R412). -/
def State.applyReply (s : State) (m : Nat) (w : Who) (a : Answer) (counted : Bool) (tok : Nat) : State :=
  let s := if counted then (s.decPwc w.key).endOp tok else s
  if w.emu ≠ 0 then s.emuAnswer m w a
  else if a.toS && s.bankGone w then s.netAnswer w 0x01 (s.waitsFor w).1 (s.waitsFor w).2
  else ((s.answer w a true).noteReply w.key m).decWait w.key

/-- A configuration record (R202). -/
structure MCfg where
  afmt : Nat
  bfmt : Nat
  kk : Nat
  n : Nat
  mode : Nat
  spn : Nat
  acc : Nat
  qt : Nat
  ofmt : Nat
  epi : Nat
  sch : Nat
  bih : Nat
  rsvd : Nat
  clo : Nat
  chi : Nat
  rsvd2 : Nat
  deriving DecidableEq, Repr

/-- The fields of a configuration record. -/
def mcfgOf (bs : List Byte) : MCfg :=
  let f := leField bs
  { afmt := f 0 1, bfmt := f 1 1, kk := f 2 2, n := f 4 2, mode := f 6 1, spn := f 7 1, acc := f 8 1, qt := f 9 1, ofmt := f 10 1,
    epi := f 11 1, sch := f 12 1, bih := f 13 1, rsvd := f 14 2, clo := f 16 4, chi := f 20 4, rsvd2 := f 24 8 }

/-- Whether a record breaks R203.  DEDUCED, log entry 51. -/
def MCfg.bad (c : MCfg) : Bool :=
  let lo := fmtF32.value c.clo
  let hi := fmtF32.value c.chi
  decide (7 < c.afmt) || decide (7 < c.bfmt) || decide (1 < c.mode) || decide (1 < c.acc) || decide (32 ≤ c.qt) ||
    !([1, 3, 5, 6, 7, 8, 9, 10].contains c.ofmt) || decide (128 ≤ c.epi) || c.epi % 4 == 3 || decide (64 ≤ c.sch) ||
    decide (64 ≤ c.bih) || c.rsvd != 0 || c.rsvd2 != 0 || c.n == 0 || decide ((if c.bfmt = 7 then 128 else 256) < c.n) ||
    (if c.mode = 0 then
      c.spn != 0 || c.kk == 0 || decide (2048 < c.kk) || (c.kk % 32 != 0 && (decide (c.afmt ≤ 3) || decide (c.bfmt ≤ 3)))
    else
      !([8, 12, 16, 24].contains c.spn) || c.kk == 0 || c.kk % 96 != 0 || decide (2048 < c.kk * c.spn / 48) ||
        [3, 5, 6, 7].contains c.bfmt || (decide (c.bfmt ≤ 2) && (c.spn == 12 || c.spn == 24))) ||
    (c.acc == 1 && !((c.afmt == 0 || c.afmt == 4) && (c.bfmt == 0 || c.bfmt == 4))) ||
    (c.epi / 16 % 2 == 1 && (c.epi / 4 % 4 != 0 || !([6, 8, 9, 10].contains c.ofmt))) ||
    (c.epi % 4 == 2 && (lo.isNan || hi.isNan || lo.cmp hi == .gt))

/-- The record of `mcfg` arrives (R203, R205, R209): a bad one raises MX 0x02; else the context waits with kind 9 until the
unit accepts the operation. -/
def State.recordMcfg (s : State) (w : Who) (slot : Nat) (bs : List Byte) : State :=
  if (mcfgOf bs).bad then
    ({ s with free := s.free + 1 }).faultAt w { cls := 0x0B, sub := 0x02, kind := kLoad, size := 5, faddr := Config.freeWord s.free }
  else
    let cl := clusterOf w.site
    let kid := ((s.line? w.key).map (·.kid)).getD 0
    let (id, s) := s.newOp { cls := .mx, copy := false, wenq := false, site := w.site, key := w.key, kid := kid, dest := none, cl := cl }
    (s.modLine w.key fun l => { l with wt := mkWt 9 1, waitFrom := s.gtime }).send (.core w.site) (.engine cl) regVn
      (.matReq { id := id, who := w, k := .mcfg slot bs, tab := [], tabNo := none, prev := none, after := [], seen := (none, none) })

/-- The record that an instruction reads arrives (R173, R179, R202). -/
def State.applyRecord (s : State) (w : Who) (dst : LdDst) (data : List Byte) : State :=
  match dst with
  | .hdef h => s.recordHdef w h data
  | .hmap h => s.recordHmap w h data
  | .mcfg slot => s.recordMcfg w slot data
  | .reg _ _ _ | .pair _ | .typed _ _ _ _ _ _ _ => s

/-- Step LOAD_REPLY (R68): a reply to v registers, or to none, or the record an instruction reads. -/
def execLoadReply (m : Nat) (s : State) : Out :=
  match s.find? m with
  | some (.reply w a sc counted tok) =>
    if (a.toS && w.emu == 0) || s.scBlocked m (dieOf w.site) sc then .next s
    else if s.answers w then .next ((s.drop m).applyReply m w a counted tok)
    else .next ((s.drop m).endOp tok)
  | some (.record w dst data) =>
    if s.answers w then .next (((s.drop m).noteReply w.key m).applyRecord w dst data) else .next (s.drop m)
  | _ => .next s

/-- Step S_REGISTER_REPLY (R71, R72): a reply to s registers goes to the bank of the core and kernel slot that issued the
access; a register takes one memory reply in an issue cycle.  DEDUCED, log entry 88. -/
def execSRegisterReply (m : Nat) (s : State) : Out :=
  match s.find? m with
  | some (.reply w a sc counted tok) =>
    if !a.toS || w.emu != 0 || s.scBlocked m (dieOf w.site) sc || s.sBusy w a true then .next s
    else if s.answers w then .next ((s.drop m).applyReply m w a counted tok)
    else .next ((s.drop m).endOp tok)
  | _ => .next s

/-- Whether the line of an operation's issuer still takes its flags: the same context, live or exited, whose PW stands in its bytes (R77,
R100, R205). -/
def State.holdsFlags (s : State) (w : Who) : Bool :=
  match s.line? w.key with
  | some l => l.life != .lost && l.gen == w.gen
  | none => false

/-- Step LONG_OPERATION_COMPLETION (R68, R100, R106): the result of a divide or square root, or the completion of an engine operation,
with its flags; what observes the completion of a matrix operation follows its flags. -/
def execLongOperationCompletion (m : Nat) (s : State) : Out :=
  match s.find? m with
  | some (.longDone w d v f) =>
    let a : Answer := { regs := [(d, v)], flags := f, p15 := none }
    if s.sBusy w a false then .next s
    else
      let s := s.drop m
      if s.answers w then .next ((s.answer w a false).decWait w.key) else .next s
  | some (.opDone w f) =>
    let s := s.drop m
    if s.answers w then .next ((s.modLine w.key fun l => l.orFlags f).decWait w.key) else .next s
  | some (.opFlags w f op post) =>
    let s := s.drop m
    let s := if s.holdsFlags w then s.modLine w.key fun l => l.orFlags f else s
    .next (match post with
      | some (cl, n) => s.send (.engine cl) (.engine cl) vnControl (.semPost cl n op)
      | none => s.endOp op)
  | _ => .next s

/-- Whether an invalidation of a group is on its way, to one die or to any. -/
def State.openOn (s : State) (die : Option Nat) (grp : Nat) : Bool :=
  s.net.any fun y => match y.body with
    | .inval g _ d _ => g == grp && die.all (· == d)
    | _ => false

/-- Step WRITE_ACKNOWLEDGEMENT (R138, R147, R239): a write is performed once every invalidation it sent is applied, and one of an engine
operation of a narrow scope once those on the issuing die are.
DEDUCED, log entry 39. -/
def execWriteAcknowledgement (m : Nat) (s : State) : Out :=
  match s.find? m with
  | some (.ack w tok grp ends sc) =>
    if s.openGroup grp || s.scBlocked m (dieOf w.site) sc || ends.any fun a => s.sBusy w a true then .next s
    else
      let s := (s.drop m).endOp tok
      if s.answers w then
        let s := s.decPwc w.key
        match ends with
        | some a => .next (s.applyReply m w a false 0)
        | none => .next s
      else .next s
  | some (.eack w tok grp narrow mirror ends) =>
    if s.openOn (if narrow then some (dieOf w.site) else none) grp || mirror.any s.mirrorDieAway then .next s
    else
      let s := s.drop m
      let s := if s.openGroup grp then s.lateOp tok grp else s
      .next (if ends then s.doneOp tok else s)
  | _ => .next s

/-- Whether a message is the acknowledgement of a write of a context. -/
def Body.isAck (b : Body) (w : Who) (tok : Nat) : Bool :=
  match b with
  | .ack v t _ _ _ => v.key == w.key && t == tok && tok != 0
  | _ => false

/-- Whether a write of a context has not been acknowledged as performed. -/
def State.unperformed (s : State) (w : Who) (tok : Nat) : Bool := s.inFlight.any fun y => y.body.isAck w tok

/-- The answer that a waiting context receives comes with the acknowledgement that is still on its way.
DEDUCED, log entry 39. -/
def State.giveEnds (s : State) (w : Who) (tok : Nat) (a : Answer) : State :=
  let turn (y : Msg) : Msg := if y.body.isAck w tok then
      match y.body with
      | .ack v t grp _ sc => { y with body := .ack v t grp (some a) sc }
      | _ => y
    else y
  { s with
    net := s.net.map turn
    parts := s.parts.map fun p => (p.1, { p.2 with reinject := p.2.reinject.map turn }) }

/-- The mirror has acknowledged a write: it survives a die reset, and so does every earlier one to its line (R242). -/
def State.settleSlice (s : State) (w : Who) (tok : Nat) : State :=
  let turn (e : Nat × SliceLine) : Option (Nat × SliceLine) :=
    match e.2.writers.findIdx? fun x => x.1.w.key == w.key && x.1.tok == tok && x.1.leaf.durable with
    | none => some e
    | some i =>
      let rest := e.2.writers.drop (i + 1)
      if rest.isEmpty then none else some (e.1, { e.2 with hbm := (e.2.writers[i]?.map (·.2)).getD e.2.hbm, writers := rest })
  { s with slices := s.slices.filterMap turn }

/-- Step DURABLE_ACKNOWLEDGEMENT (R138, R147, R241): the mirror holds a write; a context that waits for it goes on once the
write is performed too.  DEDUCED, log entry 39. -/
def execDurableAcknowledgement (m : Nat) (s : State) : Out :=
  match s.find? m with
  | some (.dack w tok ends counted) =>
    if ends.any fun a => s.sBusy w a true then .next s
    else
    let s := (s.drop m).settleSlice w tok
    if s.answers w then
      let s := if counted then s.decPdc w.key else s
      match ends with
      | some a => if s.unperformed w tok then .next (s.giveEnds w tok a) else .next (s.applyReply m w a false 0)
      | none => .next s
    else .next s
  | _ => .next s

/-- Step FAULT_ANSWER (R140, R190, R372): a slice or an engine refuses what a context asked, or reports an error after commit; that of a
copy's completion word comes after the copy's other signals. -/
def execFaultAnswer (m : Nat) (s : State) : Out :=
  match s.find? m with
  | some (.fault w f async counted tok record dur) =>
    if s.signalsOpen tok then .next s
    else
    let s := (s.drop m).doneOp tok
    if s.answers w then
      let s := if counted then s.decPwc w.key else s
      let s := if dur then s.decPdc w.key else s
      .next (s.faultLine w.key w.site (!async) false async w.enc w.len (if async then none else some w.pc) f record)
    else .next s
  | _ => .next s

/-- Step MIRROR_RETRY (R396): once a die is ACTIVE again the homes repeat the mirror writes they keep for it. -/
def execMirrorRetry (d : Nat) (s : State) : Out :=
  if s.mirrorDieAway d then .next s
  else
    let pends (x : Msg) : Bool := match x.body with
      | .mirrorPend _ die => die == d
      | _ => false
    let retry (x : Msg) : Msg := match x.body with
      | .mirror w tok die ends counted => if die = d then { x with body := .dack w tok ends counted } else x
      | _ => x
    .next { s with net := (s.net.filter fun x => !pends x).map retry }

end Sys2Proof.Machine
end

