-- ==== Sys2Proof/Machine/Resv.lean ====
section
/-! DEFINITION. Reservation queues at the homes (R155–R158): enqueue, grant, conditional store, cancellation, time-out. -/

namespace Sys2Proof.Machine

/-- A home slice keeps queues for 64 lines, of 16 entries each (R156). -/
def resvLines : Nat := 64
/-- Entries of a queue, the head included. -/
def resvEntries : Nat := 16
/-- Issue cycles after which a head that neither stored nor cancelled is removed (R158). -/
def resvTime : Nat := 2 ^ 20

/-- The head of a queue. -/
def ResvQ.head? (q : ResvQ) : Option ResvEntry := q.entries.head?

/-- A queue kept, or freed when it is empty. -/
def State.setResv (s : State) (g : Nat) (q : ResvQ) : State :=
  if q.entries.isEmpty then { s with resv := tdel s.resv g } else { s with resv := tset s.resv g q }

/-- The queue without its head: the next entry is to be granted (R157). -/
def ResvQ.pass (q : ResvQ) : ResvQ := { q with entries := q.entries.drop 1, granted := false }

/-- A context's entry in the queue of one line is removed (R158). -/
def State.unreserveAt (s : State) (g key : Nat) : State :=
  match tget s.resv g with
  | none => s
  | some q =>
    match q.head? with
    | none => s
    | some h =>
      let rest := q.entries.filter fun x => x.who.key != key
      s.setResv g (if h.who.key = key then { q with entries := rest, granted := false } else { q with entries := rest })

/-- Whether a context heads the queue of a line. -/
def State.heads (s : State) (g key : Nat) : Bool :=
  match tget s.resv g with
  | none => false
  | some q => (q.head?.map (·.who.key)) == some key

/-- What refuses a reservation on an APPEND page at its home: the page's descriptor is bad or RECLAIMING (R259, R260). -/
def State.resvRefused (s : State) (a : Acc) : Option (Nat × Nat) :=
  if a.leaf.cls = 1 then
    let d := s.adesc a.w.part (a.ga / 4096 * 4096)
    if d.bad then some (0x06, 0x03) else if d.state = 2 then some (0x06, 0x04) else none
  else none

/-- A head receives its grant, an acquire at device scope: Mem[EA, 8] goes to its register and its wait of kind 3 ends (R68, R156,
R235). -/
def State.grantResv (s : State) (sl : Nat) (a : Acc) (dst : Reg) : State :=
  let g := a.ga / 64
  let (s, data) := s.homeRead a.w.site a 8
  let s := match tget s.resv g with
    | some q => s.setResv g { q with granted := true, since := s.cycle }
    | none => s
  let s := s.leaveVisitor sl a
  match s.line? a.w.key with
  | none => s
  | some l =>
    if s.answers a.w && l.wtKind == 3 then
      let ans := loadResult (.reg dst 8 false) data
      if ans.toS && s.bankGone a.w then s.netAnswer a.w 0x01 kResv 3
      else (((s.answer a.w ans true).noteReply a.w.key s.nextId).makeReady a.w.key).acquires a.w.key
    else s

/-- Whether a context heads a line's queue and still waits for its grant. -/
def State.headWaits (s : State) (g key : Nat) : Bool :=
  s.heads g key && (tget s.resv g).any fun q => !q.granted

/-- Step RESERVATION_ENQUEUE (R156): the context leaves any queue it is in, this line's included, and joins the line's at its
tail, or faults for capacity.  An access that comes back from the host for a head that still waits is that head's read. -/
def execReservationEnqueue (m : Nat) (s : State) : Out :=
  match s.accMsg? m with
  | none => .next s
  | some (sl, a) =>
    match a.k with
    | .ldrw dst =>
      let g := a.ga / 64
      if s.accWaits sl a then .next s
      else if (s.accUnreached sl a).isSome then homeStep m s (fun _ => true) fun s _ _ => s
      else if (s.resvRefused a).isSome then homeStep m s (fun _ => true) fun s sl a => s.accFault sl a ((s.resvRefused a).getD (0, 0))
      else if s.headWaits g a.w.key then
        if s.sBusy a.w { Answer.none with regs := [(dst, 0#64)] } true then .next s
        else homeStep m s (fun _ => true) fun s sl a => s.grantResv sl a dst
      else
        let s := (s.drop m).unreserve a.w.key
        let e : ResvEntry := { who := a.w, dst := dst, acc := a }
        match tget s.resv g with
        | some q =>
          if q.entries.length < resvEntries then .next (s.setResv g { q with entries := q.entries ++ [e] })
          else .next (s.accFault sl a (0x0A, 0x01))
        | none =>
          if (s.resv.filter fun x => s.homeAt a.w.part x.1 == sl).length < resvLines then
            .next (s.setResv g { entries := [e], granted := false, since := s.cycle })
          else .next (s.accFault sl a (0x0A, 0x01))
    | _ => .next s

/-- Step RESERVATION_GRANT (R156, R157): the head of a line's queue reads the line, after the store before it is performed;
a line that the host holds is asked for first. -/
def execReservationGrant (g : Nat) (s : State) : Out :=
  match tget s.resv g with
  | none => .next s
  | some q =>
    match q.head? with
    | none => .next s
    | some h =>
      let sl := s.homeAt h.who.part g
      let storing := s.net.any fun y => match y.body with
        | .inval _ x _ _ => x == g
        | _ => false
      let asked := s.net.any fun y => match y.body with
        | .hostReq _ _ b | .bisnp _ _ (some b) | .acc b => b.w == h.who && b.k == h.acc.k
        | _ => false
      if q.granted || storing || asked || s.slDown sl || s.sBusy h.who { Answer.none with regs := [(h.dst, 0#64)] } true then .next s
      else
        match s.resvRefused h.acc with
        | some f => .next ((s.setResv g q.pass).accFault sl h.acc f)
        | none =>
        match s.gate s.nextId h.acc with
        | .pass => .next (s.grantResv sl h.acc h.dst)
        | .wait | .recall _ => .next s
        | .host x own => if s.hostFull then .next s else .next (s.send (.slice sl) (.slice sl) regVn (.hostReq x own h.acc))
        | .snoop inv => .next (s.send (.slice sl) (.slice sl) regVn (.bisnp g inv (some h.acc)))

/-- Step RESERVATION_TIMEOUT (R158): a head that has held its grant for 2^20 issue cycles is removed. -/
def execReservationTimeout (g : Nat) (s : State) : Out :=
  match tget s.resv g with
  | some q => if q.granted && decide (q.since + resvTime ≤ s.cycle) then .next (s.setResv g q.pass) else .next s
  | none => .next s

/-- p15 alone. -/
def Answer.p (b : Bool) : Answer := { Answer.none with p15 := some b }

/-- The translation slice that forwarded an access (R225, R253). -/
def State.via (s : State) (a : Acc) : Nat := (s.part a.w.part).tslice a.w.asid a.va

/-- Step CONDITIONAL_STORE (R157): the head's store is performed and p15 set; any other context's is refused. -/
def execConditionalStore (m : Nat) (s : State) : Out :=
  homeStep m s
    (fun a => match a.k with
      | .stc _ => true
      | _ => false)
    fun s sl a =>
      match a.k with
      | .stc v =>
        let g := a.ga / 64
        if s.heads g a.w.key then
          let (s, grp) := s.performWrite sl (s.via a) a (leBytes 8 v.toNat)
          let s := match tget s.resv g with
            | some q => s.setResv g q.pass
            | none => s
          (s.reply sl a.w (Answer.p true)).ackWrite sl a.w a.tok grp a.leaf.durable none false false
        else
          let s := s.send (.slice sl) (.line a.w.key) vnReply (.reply a.w (Answer.p false) false true a.tok)
          if a.leaf.durable then s.send (.slice sl) (.line a.w.key) vnReply (.dack a.w 0 none true) else s
      | _ => s

end Sys2Proof.Machine
end

