-- ==== Sys2Proof/Machine/Append.lean ====
section
/-! DEFINITION. APPEND pages, replicas and shoot-down (R256–R267). -/

namespace Sys2Proof.Machine

/-! ## Instructions (R257, R258, R262–R264) -/

/-- The core's check of a page instruction: only the canonical form (R258). -/
def State.pageOp (s : State) (g : Guard) (a : Reg) (size : Nat) (go : Env → Word → State) : Out :=
  guarded g s fun e =>
    match canonFault kAppend size (e.reg a) with
    | some f => s.raise e f
    | none => go (e.trace s.gtime 3 (e.reg a).toNat) (e.reg a)

/-- `apnd rd, [ra], rb` (R262). -/
def execApnd (g : Guard) (d a b : Reg) (s : State) : Out :=
  s.pageOp g a 3 fun e ea => s.issueReq e ea.toNat (.apnd (leBytes 8 (e.reg b).toNat) d)

/-- `ldtail rd, [ra]` (R263). -/
def execLdtail (g : Guard) (d a : Reg) (s : State) : Out :=
  s.pageOp g a 0xF fun e ea => s.issueReq e ea.toNat (.ldtail d)

/-- `seal [ra]` (R264): a release at sys scope. -/
def execSeal (g : Guard) (a : Reg) (s : State) : Out :=
  s.pageOp g a 0xF fun e ea => s.issueWait (e.at ea.toNat .seal) 1 [.pwc] (.send ea.toNat .seal)

/-- The range of an `xinv`: its size, or none for every page (R257). -/
def xinvSize (sz : Nat) : Nat := if sz = 0 then 2 ^ 12 else if sz = 1 then 2 ^ 21 else if sz = 2 then 2 ^ 30 else 2 ^ 54

/-- The checks of `xinv` in their order (R257).  Bad options have no address, so `free` is their FADDR.  DESIGN CHOICE, log entry 7. -/
def xinvFault (free ra rb : Word) : Option Flt :=
  let sz := wfld rb 18 2
  if wfld rb 20 44 ≠ 0 ∨ (rb.getLsbD 16 ∧ wfld rb 0 16 ≠ 0) ∨ (rb.getLsbD 17 ∧ sz = 3) then
    some { cls := 0x04, sub := 0x05, kind := 0, size := 0xF, faddr := free }
  else if sz = 3 then none
  else if !canonical ra then some (fltCanon 0 0xF ra)
  else if ra.toNat % xinvSize sz ≠ 0 then some { cls := 0x03, sub := 0x05, kind := 0, size := 0xF, faddr := ra }
  else none

/-- The cores of a partition that a shoot-down reaches. -/
def State.xinvCores (s : State) (part : Nat) : List Nat := (s.part part).sites.filter fun c => s.enabled c

/-- `xinv [ra], rb` (R256, R257): the invalidation goes to every translation slice and every core of the partition, and the
context waits for all of them.  DEDUCED, log entry 19. -/
def execXinv (g : Guard) (a b : Reg) (s : State) : Out :=
  privileged 2 g s fun e =>
    let rb := e.reg b
    match xinvFault (Config.freeWord s.free) (e.reg a) rb with
    | some f => ({ s with free := s.free + 1 } : State).raise e f
    | none =>
      let sz := wfld rb 18 2
      let lo := if sz = 3 then 0 else (e.reg a).toNat
      let w := s.who e
      let b : Body := .xinv w (wfld rb 0 16) (rb.getLsbD 16) (rb.getLsbD 17) lo (lo + xinvSize sz)
      let slices := (s.part w.part).clusters
      let cores := s.xinvCores w.part
      let s := (s.leave e 1).modLine e.key fun l => { l with wt := mkWt 1 (slices.length + cores.length) }
      let s := slices.foldl (fun s c => s.send (.core w.site) (.slice c) vnControl b) s
      cores.foldl (fun s c => s.send (.core w.site) (.core c) vnControl b) s

/-! ## Append homes (R259–R264) -/

/-- A descriptor written through to HBM, and for MIR = 1 to the mirror, at its home (R259): no copy of its line stays elsewhere, and
a die reset loses nothing of it. -/
def State.setAdesc (s : State) (part pa : Nat) (d : ADesc) (mir : Bool) : State :=
  let ga := (s.part part).descAddr pa
  let home := (s.part part).home ga
  let old := s.rd (ga / 64 * 64) 64
  let s := (s.storeLine home home ga
    (leBytes 2 d.tail ++ leBytes 1 d.state ++ leBytes 1 d.repl ++ leBytes 1 d.rref ++ List.replicate 11 0#8) [0, 1, 2, 3]).1
  let s := s.noteSlice home (ga / 64) old [] true
  if mir then s.noteMirror home (ga / 64) true else s

/-- The append home's state of a frame; NX starts at the published tail (R260, R267). -/
def State.app (s : State) (part f : Nat) : Append :=
  tgetD s.appends f
    { nx := (s.adesc part (f * 4096)).tail, segs := [], seals := [], replicas := [], reclaims := [], part := part, mir := false }

/-- The state with an append home's state of a frame replaced. -/
def State.setApp (s : State) (f : Nat) (a : Append) : State := { s with appends := tset s.appends f a }

/-- Data split at the boundaries of 64-byte lines. -/
def splitLines (fuel ga : Nat) (data : List Byte) : List (Nat × List Byte) :=
  match fuel with
  | 0 => []
  | fuel + 1 =>
    if data.isEmpty then []
    else
      let n := 64 - ga % 64
      (ga, data.take n) :: splitLines fuel (ga + n) (data.drop n)

/-- A write of several lines performed at its home, line by line, with the groups of the invalidations it sends. -/
def State.performLines (s : State) (sl : Nat) (a : Acc) (ga : Nat) (data : List Byte) : State × List Nat :=
  (splitLines (data.length + 1) ga data).foldl (fun r x =>
    let y := r.1.performWrite sl (r.1.via a) { a with ga := x.1 } x.2
    (y.1, r.2 ++ [y.2])) (s, [])

/-- Step APPEND_ARRIVAL (R260, R262): the append reserves its bytes and writes them, or is refused. -/
def execAppendArrival (m : Nat) (s : State) : Out :=
  homeStep m s
    (fun a => match a.k with
      | .apnd _ _ => true
      | _ => false)
    fun s sl a =>
      match a.k with
      | .apnd data dst =>
        let f := a.ga / 4096
        let d := s.adesc a.w.part (f * 4096)
        let x := s.app a.w.part f
        match d.refuses with
        | some flt => s.accFault sl a flt
        | none =>
          if d.state = 1 ∨ !x.seals.isEmpty ∨ 4096 < x.nx + data.length then
            s.reply sl a.w { regs := [(dst, W (2 ^ 64 - 1))], flags := Flags.none, p15 := some false }
          else
            let (s, grps) := s.performLines sl a (f * 4096 + x.nx) data
            s.setApp f { x with
              nx := x.nx + data.length
              mir := a.leaf.mir
              segs := x.segs ++ [{ off := x.nx, len := data.length, who := a.w, dst := dst, grps := grps }] }
      | _ => s

/-- Whether a page with MIR = 1 cannot write the mirror of its bytes or of its descriptor now, so that nothing is published, sealed or
answered (R259, R396). -/
def State.mirrorDown (s : State) (mir : Bool) (part f : Nat) : Bool :=
  mir && (s.mirrorAway (s.homeAt part (f * 64)) || s.mirrorAway ((s.part part).home ((s.part part).descAddr (f * 4096))))

/-- Step TAIL_PUBLISH (R262): the oldest reserved append is published and answered, once its bytes are performed at sys scope. -/
def execTailPublish (f : Nat) (s : State) : Out :=
  match tget s.appends f with
  | none => .next s
  | some x =>
    match x.segs with
    | [] => .next s
    | g :: rest =>
      let sl := s.homeAt x.part (f * 64)
      if s.slDown sl || s.mirrorDown x.mir x.part f || g.grps.any s.openGroup then .next s
      else
        let d := s.adesc x.part (f * 4096)
        let s := s.setAdesc x.part (f * 4096) { d with tail := g.off + g.len } x.mir
        let s := s.setApp f { x with segs := rest }
        .next (s.reply sl g.who { regs := [(g.dst, W g.off)], flags := Flags.none, p15 := some true })

/-- Step SEAL_ARRIVAL (R260, R264): answered at once when the page is SEALED, else pending; on a mirrored page the release
waits for PDC = 0.  DEDUCED, log entry 56. -/
def execSealArrival (m : Nat) (s : State) : Out :=
  match s.accMsg? m with
  | none => .next s
  | some (_, a) =>
    if a.leaf.mir && ((s.line? a.w.key).map (·.pdc)).getD 0 != 0 then .next s
    else
      homeStep m s (fun a => a.k == .seal) fun s sl a =>
        let f := a.ga / 4096
        let d := s.adesc a.w.part (f * 4096)
        match d.refuses with
        | some flt => s.accFault sl a flt
        | none =>
          if d.state = 1 then s.reply sl a.w Answer.none
          else
            let x := s.app a.w.part f
            s.setApp f { x with seals := x.seals ++ [a.w], mir := a.leaf.mir }

/-- The access that reads a whole frame at its append home. -/
def pageAcc (part f : Nat) : Acc :=
  { w := { key := noKey, gen := 0, site := 0, slot := 0, ks := 0, part := part, asid := 0, priv := 2, pc := 0#64, enc := 0#32, len := 0 },
    va := 0, ga := f * 4096, leaf := { leafOf 0 0 0 with pa := f * 4096 }, k := .pref, tok := 0, snooped := false }

/-- The translation caches record that a frame is sealed (R252, R265). -/
def State.noteSealed (s : State) (f : Nat) : State :=
  { s with clusters := s.clusters.map fun c => (c.1, { c.2 with
      tcache := c.2.tcache.map fun e => if e.2.leaf.cls = 1 ∧ e.2.leaf.pa = f * 4096 then (e.1, { e.2 with sealed_ := true }) else e }) }

/-- Step SEAL_COMPLETE (R260): every append before the seal is published, so the page is SEALED and the seals are answered.
DEDUCED, log entry 56. -/
def execSealComplete (f : Nat) (s : State) : Out :=
  match tget s.appends f with
  | none => .next s
  | some x =>
    let sl := s.homeAt x.part (f * 64)
    if x.seals.isEmpty || !x.segs.isEmpty || s.slDown sl || s.mirrorDown x.mir x.part f then .next s
    else
      let d := s.adesc x.part (f * 4096)
      let s := (s.setAdesc x.part (f * 4096) { d with state := 1 } x.mir).setApp f { x with seals := [] }
      .next (x.seals.foldl (fun s w => s.reply sl w Answer.none) s)

/-! ## Replicas (R265) -/

/-- The replica area of a die: its first frame and its count of frames (R383). -/
def Part.replicaArea (p : Part) (die : Nat) : Nat × Nat :=
  let r := p.repl.getD die 0#64
  (wfld r 21 31 * 2 ^ 21 / 4096, wfld r 0 16 * 512)

/-- The replica frames in use in a partition's area on a die: the frame replicated, the replica's frame, its last use. -/
def State.replicasOn (s : State) (part die : Nat) : List (Nat × Nat × Nat) :=
  (s.appends.filter fun e => e.2.part == part).flatMap fun e =>
    (e.2.replicas.filter fun r => r.1 == die).map fun r => (e.1, r.2.1, r.2.2)

/-- A replica dropped: its append home clears REPL[d] and decrements RREF (R265). -/
def State.dropReplica (s : State) (f die : Nat) : State :=
  match tget s.appends f with
  | none => s
  | some x =>
    if (tget x.replicas die).isNone then s
    else
      let d := s.adesc x.part (f * 4096)
      let repl := if d.repl.testBit die then d.repl - 2 ^ die else d.repl
      (s.setAdesc x.part (f * 4096) { d with repl := repl, rref := d.rref - 1 } x.mir).setApp f { x with replicas := tdel x.replicas die }

/-- Every replica of a frame dropped: its directory goes, and its descriptor names none (R260, R267).  DEDUCED, log entry 98. -/
def State.dropReplicas (s : State) (f : Nat) : State :=
  match tget s.appends f with
  | none => s
  | some x =>
    let d := s.adesc x.part (f * 4096)
    let s := if d.bad || d.state = 0 || (d.repl = 0 && d.rref = 0) then s
      else s.setAdesc x.part (f * 4096) { d with repl := 0, rref := 0 } x.mir
    s.setApp f { x with replicas := [] }

/-- The pages of an address space that a copy's global ranges touch; an indexed copy may touch any. -/
def Copy.touches (x : Copy) (va n : Nat) : Bool :=
  let len := x.opt.toNat % 2 ^ 26
  let row := rowBytesOf x.cols x.fmt
  let rows := (x.rows - 1) * (if len = 0 then row else len) + row
  let meets (a m : Nat) : Bool := decide (a < va + n) && decide (va < a + m)
  match x.op with
  | .g2t => meets x.src rows
  | .t2g => meets x.src rows
  | .g2g => meets x.src len || meets x.dst len
  | .g2q => meets x.src len
  | .gat | .sca => true
  | .apnd => meets (x.src / 4096 * 4096) 4096
  | .t2t => false

/-- Whether a running copy has pinned a frame: it has its source in a page of it (R191).  DEDUCED, log entry 5. -/
def State.pinned (s : State) (f : Nat) : Bool :=
  s.clusters.any fun c => c.2.tcache.any fun t =>
    t.2.leaf.cls == 1 && t.2.leaf.pa / 4096 == f &&
      s.clusters.any fun d => d.2.copies.any fun x =>
        x.started && !x.srcRead && x.who.asid == t.1 / 2 ^ 42 && x.touches (t.1 % 2 ^ 42 * 4096) 4096

/-- The replica longest unused, among those that no copy pins and whose descriptor can be written (R259, R265). -/
def State.oldestReplica (s : State) (part die : Nat) : Option (Nat × Nat × Nat) :=
  (s.replicasOn part die).foldl (fun b x =>
    if s.pinned x.1 || s.mirrorDown (s.app part x.1).mir part x.1 then b
    else match b with
      | none => some x
      | some y => if x.2.2 < y.2.2 then some x else b) none

/-- A frame of a die's replica area for a new replica, and the state with a replica dropped for it if the area is full. -/
def State.replicaFrame (s : State) (part die : Nat) : Option (State × Nat) :=
  let (base, n) := (s.part part).replicaArea die
  let used := (s.replicasOn part die).map (·.2.1)
  match (List.range (min n (used.length + 1))).find? fun i => !used.contains (base + i) with
  | some i => some (s, base + i)
  | none =>
    match s.oldestReplica part die with
    | some (f, frame, _) => if n = 0 then none else some (s.dropReplica f die, frame)
    | none => none

/-- The replica of a SEALED page for a reader on a die, made from the append home where the die holds none and its area has room; a
use renews it (R265). -/
def State.useReplica (s : State) (part die f : Nat) (mir : Bool) : State :=
  let x := { s.app part f with mir := mir }
  match tget x.replicas die with
  | some (frame, _) => s.setApp f { x with replicas := tset x.replicas die (frame, s.cycle) }
  | none =>
    match (s.setApp f x).replicaFrame part die with
    | none => s
    | some (s, frame) =>
      let s := (s.homeRead (siteNo die 0 0) (pageAcc part f) 4096).1
      let s := s.wr (frame * 4096) (s.rd (f * 4096) 4096)
      let d := s.adesc part (f * 4096)
      let x := s.app part f
      let s := s.setAdesc part (f * 4096) { d with repl := d.repl ||| 2 ^ die, rref := min 3 (d.rref + 1) } x.mir
      (s.setApp f { x with replicas := tset x.replicas die (frame, s.cycle) }).noteSealed f

/-- Whether a die holds a replica of a page (R265). -/
def State.hasReplica (s : State) (part die f : Nat) : Bool := (tget (s.app part f).replicas die).isSome

/-- Whether a reader on a die gets a replica of a SEALED page: the die is not the append home's, and it holds one or can (R265). -/
def State.replicates (s : State) (part die f : Nat) : Bool :=
  let d := s.adesc part (f * 4096)
  let x := s.app part f
  !d.bad && d.state == 1 && die != dieOfCl (s.homeAt part (f * 64)) &&
    ((tget x.replicas die).isSome || ((s.setApp f x).replicaFrame part die).isSome)

/-- The bytes of a page at its home, or of a SEALED page from the replica on the reader's die: zeros above the tail (R261, R265). -/
def State.readSealed (s : State) (part die : Nat) (l : Leaf) (ga n : Nat) : List Byte :=
  match if l.cls = 1 then tget (s.app part (ga / 4096)).replicas die else none with
  | none => s.readPage part l ga n
  | some (frame, _) =>
    let tail := (s.adesc part (ga / 4096 * 4096)).tail
    (List.range n).map fun i => if ga % 4096 + i < tail then s.rdByte (frame * 4096 + ga % 4096 + i) else 0#8

/-- The answer to a load or `ldtail` of a SEALED page, from the replica on the reader's die or from the home: it never changes (R230,
R263). -/
def State.answerSealed (s : State) (sl : Nat) (a : Acc) : State :=
  match a.k with
  | .load dst n o sc => s.loadReply sl a dst (s.readSealed a.w.part (dieOf a.w.site) a.leaf a.ga n) (acqWide o sc)
  | .ldtail dst =>
    s.reply sl a.w { Answer.none with regs := [(dst, W (s.adesc a.w.part (a.ga / 4096 * 4096)).tail)] } true
  | _ => s

/-- Whether an access reads a SEALED page through a replica (R265). -/
def State.readsReplica (s : State) (a : Acc) : Bool :=
  let kind := match a.k with
    | .load _ _ _ _ | .ldtail _ => true
    | _ => false
  a.leaf.cls == 1 && kind && s.replicates a.w.part (dieOf a.w.site) (a.ga / 4096)

/-- Step REPLICA_MAKE (R265): a load or `ldtail` from a die without a replica copies the SEALED page there from the append
home, which must be reached and writes its descriptor through, and is answered from it; a later one uses the replica (R259, R350, R351). -/
def execReplicaMake (m : Nat) (s : State) : Out :=
  match s.accMsg? m with
  | none => .next s
  | some (sl, a) =>
    if !s.readsReplica a || s.slDown sl then .next s
    else
      let f := a.ga / 4096
      let die := dieOf a.w.site
      let answer : Out := .next (((s.drop m).useReplica a.w.part die f a.leaf.mir).answerSealed sl a)
      if s.hasReplica a.w.part die f then answer
      else if s.accWaits sl a || s.mirrorDown a.leaf.mir a.w.part f then .next s
      else match s.accUnreached sl a with
        | some sub => .next ((s.drop m).accFault sl a (0x12, sub))
        | none => answer

/-! ## Reclaim (R260, R266) -/

/-- Step RECLAIM (R260): the frame leaves OPEN or SEALED; a seal that still waits there is refused, and every replica that nothing pins is
dropped.  A frame with a bad descriptor has nothing to reclaim.  DEDUCED, log entry 98. -/
def execReclaim (f : Nat) (s : State) : Out :=
  match tget s.appends f with
  | none => .next s
  | some x =>
    let d := s.adesc x.part (f * 4096)
    let sl := s.homeAt x.part (f * 64)
    if x.reclaims.isEmpty || s.slDown sl || s.mirrorDown x.mir x.part f then .next s
    else if d.bad then .next (s.setApp f { x with reclaims := [] })
    else
      let s := (s.setAdesc x.part (f * 4096) { d with state := 2 } x.mir).setApp f { x with seals := [] }
      let s := x.seals.foldl (fun s w => s.answerFault (.slice sl) w
        { cls := 0x06, sub := 0x04, kind := kAppend, size := 0xF, faddr := ((s.line? w.key).map (·.waitAddr)).getD 0#64 }
        false false 0 none false) s
      .next (if s.pinned f then s else (x.replicas.map (·.1)).foldl (fun s die => s.dropReplica f die) s)

/-- Step RECLAIM_COMPLETE (R260): no replica is left and no reserved append unanswered, and the frame is OPEN with TAIL = NX = 0. -/
def execReclaimComplete (f : Nat) (s : State) : Out :=
  match tget s.appends f with
  | none => .next s
  | some x =>
    let d := s.adesc x.part (f * 4096)
    if d.bad || d.state != 2 || d.rref != 0 || !x.segs.isEmpty || s.mirrorDown x.mir x.part f then .next s
    else .next ((s.setAdesc x.part (f * 4096) { tail := 0, state := 0, repl := 0, rref := 0, bad := false } x.mir).setApp f
      { x with nx := 0, segs := [], seals := [], replicas := [], reclaims := [] })

/-! ## Shoot-down (R256) -/

/-- The APPEND frame behind a page, by the slice's entry for it or by the tables (R250, R257); what the boot ROM maps has none (R435).
DEDUCED, log entry 57. -/
def State.frameOf (s : State) (part asid va : Nat) : Option Nat :=
  let leaf := match s.tlookup part asid va with
    | some t => some t.leaf
    | none =>
      if (s.part part).rom && asid == 0 then none
      else match s.walkTables part ((s.part part).tslice asid va) asid va with
        | .ok (_, x, level, _) => some (leafOf x level va)
        | .error _ => none
  match leaf with
  | some l => if l.cls = 1 then some (l.pa / 4096) else none
  | none => none

/-- The frames that RECL reaches through one slice.  DEDUCED, log entry 57. -/
def State.reclFrames (s : State) (sl part asid : Nat) (all : Bool) (lo hi : Nat) : List Nat :=
  (if all then List.range 65536 else [asid]).flatMap fun a =>
    (List.range ((hi - lo) / 4096)).filterMap fun i =>
      let va := lo + 4096 * i
      if (s.part part).tslice a va = sl then s.frameOf part a va else none

/-- Step XINV_INVALIDATE (R256, R257): a slice drops its translations of the range, after it has looked up the frames to
reclaim; a core drops its instruction-cache lines of the address space, and its stash and owned lines of the range go with the
translation that their hits were checked against. -/
def execXinvInvalidate (m : Nat) (s : State) : Out :=
  match s.msg? m with
  | some { dst := .slice sl, body := .xinv w asid all recl lo hi, .. } =>
    let frames := if recl then s.reclFrames sl w.part asid all lo hi else []
    let s := s.drop m
    let s : State := frames.foldl (fun s f =>
      let x := s.app w.part f
      s.setApp f { x with reclaims := x.reclaims ++ [w.key] }) s
    let s := s.modCl sl fun c =>
      { c with tcache := c.tcache.filter fun e =>
          let va := e.1 % 2 ^ 42 * 4096
          !((all || e.1 / 2 ^ 42 == asid) && decide (lo ≤ va) && decide (va < hi)) }
    .next (s.send (.slice sl) (.line w.key) vnControl (.xinvAck w asid all lo hi))
  | some { dst := .core c, body := .xinv w asid all _ lo hi, .. } =>
    let s := (s.drop m).modCore c fun x => x.dropCode fun k => all || k / 2 ^ 48 == asid
    let stale := (s.core c).stash.filter fun x => (all || x.asid == asid) && decide (lo ≤ x.va) && decide (x.va < hi)
    let s := stale.foldl (fun s x => s.recallStash c x false) s
    let owned := (s.core c).owned.filter fun o => (all || o.asid == asid) && decide (lo ≤ o.va) && decide (o.va < hi)
    let s := owned.foldl (fun s o => s.giveUp c o) s
    .next (s.send (.core c) (.line w.key) vnControl (.xinvAck w asid all lo hi))
  | _ => .next s

/-- Whether an address space and address belong to an invalidated range. -/
def inRange (asid : Nat) (all : Bool) (lo hi a va : Nat) : Bool :=
  (all || a == asid) && decide (lo ≤ va) && decide (va < hi)

/-- Whether an access that a slice accepted before a message, under a translation of the range, is still on its way: it is
not performed, it waits in a reservation queue, at an append home, at a mailbox, at a full queue or for its entry's push, or its fault
is not delivered (R256). -/
def State.underOld (s : State) (m : Nat) (unit : Node) (asid : Nat) (all : Bool) (lo hi : Nat) : Bool :=
  let mine (w : Who) (va : Nat) : Bool := inRange asid all lo hi w.asid va && unit == .slice ((s.part w.part).tslice w.asid va)
  (s.inFlight.any fun y => decide (y.id < m) && match y.body with
    | .acc b | .hostReq _ _ b | .bisnp _ _ (some b) => y.src == unit && inRange asid all lo hi b.w.asid b.va
    | .inval _ _ _ via => unit == .slice via
    | .fault w f _ _ _ _ _ => inRange asid all lo hi w.asid f.faddr.toNat
    | .wenqPush w va q _ _ _ => mine w va || mine w q
    | _ => false) ||
  let waits (w : Who) : Bool := ((s.line? w.key).map fun l => mine w l.waitAddr.toNat).getD false
  (s.resv.any fun q => (q.2.entries.drop (b2n q.2.granted)).any fun e => mine e.who e.acc.va) ||
  (s.appends.any fun e => (e.2.segs.any fun g => waits g.who) || e.2.seals.any waits) ||
  (s.lines.any fun e => e.2.popWait.any fun p => mine p.who p.desc) ||
  s.heldQ.any fun q => q.2.any fun h => h.msg.isNone && mine h.who h.va

/-- Step XINV_ACK (R256): one unit's part is done, every access it had accepted under the old translation is performed, no
pinned line of the range is left, and the frames to reclaim are OPEN. -/
def execXinvAck (m : Nat) (s : State) : Out :=
  match s.find? m, (s.net.find? fun x => x.id == m).map (·.src) with
  | some (.xinvAck w asid all lo hi), some unit =>
    let pinned := s.clusters.any fun c => c.2.copies.any fun x =>
      x.started && (all || x.who.asid == asid) && x.touches lo (hi - lo)
    let busy := match unit with
      | .slice _ => s.underOld m unit asid all lo hi || pinned || s.appends.any fun e => e.2.reclaims.contains w.key
      | _ => false
    if busy then .next s
    else if s.answers w then .next ((s.drop m).decWait w.key)
    else .next (s.drop m)
  | _, _ => .next s

end Sys2Proof.Machine
end

