-- ==== Sys2Proof/Machine/Control.lean ====
section
/-! DEFINITION. Control transfers (R131–R133). -/

namespace Sys2Proof.Machine

/-- A taken transfer: PC := T, recorded in the trace (R133, R378). -/
def Env.jump (e : Env) (now : Nat) (t : Word) : Env :=
  { (e.trace now 1 t.toNat) with line := { e.line with pc := t } }

/-- The offset of a relative transfer, in bytes (R131). -/
def branchOff {n : Nat} (off : BitVec n) : Word := simm off * 2#64

/-- The checks of a register-target transfer: ALIGN 0x01, then XLAT 0x01 (R132).  DEDUCED, log entry 24. -/
def targetFault (t : Word) : Option Flt :=
  if t.getLsbD 0 then some { cls := 0x03, sub := 0x01, kind := 0, size := 0xF, faddr := t }
  else if canonical t then none else some (fltCanon 0 0xF t)

/-- A register-target transfer with an optional link register (R132). -/
def jumpTo (g : Guard) (s : State) (link : Option Reg) (target : Env → Word) : Out :=
  guarded g s fun e =>
    let t := target e
    match targetFault t with
    | some f => s.raise e f
    | none =>
      match link with
      | some d => s.put ((e.setReg s.cycle d (e.line.pc + 4#64)).jump s.gtime t)
      | none => s.put (e.jump s.gtime t)

/-- `br label` (R131). -/
def execBr (g : Guard) (off : BitVec 20) (s : State) : Out :=
  guarded g s fun e =>
    let t := e.line.pc + branchOff off
    if canonical t then s.put (e.jump s.gtime t) else s.raise e (fltCanon 0 0xF t)

/-- `call rd, label` (R131). -/
def execCall (g : Guard) (d : Reg) (off : BitVec 16) (s : State) : Out :=
  guarded g s fun e =>
    let t := e.line.pc + branchOff off
    if canonical t then s.put ((e.setReg s.cycle d (e.line.pc + 4#64)).jump s.gtime t) else s.raise e (fltCanon 0 0xF t)

/-- `dbnz rd, label` (R131): a count that reaches 0 falls through. -/
def execDbnz (g : Guard) (d : Reg) (off : BitVec 16) (s : State) : Out :=
  guarded g s fun e =>
    let n := e.reg d - 1#64
    if n = 0#64 then
      if canonical (e.line.pc + 4#64) then s.put ((e.setReg s.cycle d n).adv 4) else s.raise e (fltCanon 0 0xF (e.line.pc + 4#64))
    else
      let t := e.line.pc + branchOff off
      if canonical t then s.put ((e.setReg s.cycle d n).jump s.gtime t) else s.raise e (fltCanon 0 0xF t)

/-- `jmp ra` (R132). -/
def execJmp (g : Guard) (a : Reg) (s : State) : Out := jumpTo g s none fun e => e.reg a

/-- `jal rd, ra` (R132). -/
def execJal (g : Guard) (d a : Reg) (s : State) : Out := jumpTo g s (some d) fun e => e.reg a

/-- `ret ra` (R132). -/
def execRet (g : Guard) (a : Reg) (s : State) : Out := jumpTo g s none fun e => e.reg a

/-- `brx ra, rb` (R132). -/
def execBrx (g : Guard) (a b : Reg) (s : State) : Out := jumpTo g s none fun e => e.reg a + (e.reg b <<< 1)

end Sys2Proof.Machine
end

