-- ==== Sys2Proof/Machine/Engine.lean ====
section
/-! DEFINITION. How the device itself reads and writes global memory for an instruction or a unit: translated accesses that
span lines and pages, the host's lines fetched first (R142, R250, R361–R363), and reports that belong to no context. -/

namespace Sys2Proof.Machine

/-- The requester of an access that a unit makes for a kernel, with the KID in place of a generation. -/
def unitWho (site part asid priv kid : Nat) : Who :=
  { key := noKey, gen := kid, site := site, slot := 0, ks := 0, part := part, asid := asid, priv := priv, pc := 0#64,
    enc := 0#32, len := 0 }

/-- What a unit's access to memory comes to: a fault with its class, subclass and byte address; a wait, with the requests
that it sends; or a result. -/
inductive Probe (α : Type) where
  | fault (cls sub va : Nat)
  | wait (s : State)
  | ok (a : α)

/-- An access of a unit that the gates of a home see. -/
def unitAcc (w : Who) (va ga : Nat) (l : Leaf) (data : List Byte) (n : Nat) (write : Bool) : Acc :=
  { w := w, va := va, ga := ga, leaf := l, k := if write then .eng data .sys else .load (.reg 0 n false) n .rlx .core,
    tok := 0, snooped := false }

/-- One line of a unit's access: the state in which it may be performed, or a wait for the host or for a context line. -/
def State.readyLine (s : State) (a : Acc) (write : Bool) : Probe State :=
  let g := a.ga / 64
  let home := (s.part a.w.part).home a.ga
  let fetch : Acc := { a with k := .pref }
  let fetched := s.net.any fun y => match y.body with
    | .acc b => b.snooped && b.ga / 64 == g && b.w == a.w
    | _ => false
  let asked := s.net.any fun y => match y.body with
    | .hostReq x _ _ => x == g
    | .bisnp x _ _ => x == g
    | _ => false
  match s.gate s.nextId a with
  | .pass => .ok s
  | .wait => .wait s
  | .host x own => .wait (if asked || s.hostFull then s else s.send (.slice home) (.slice home) regVn (.hostReq x own fetch))
  | .snoop inv =>
    if fetched then .ok s
    else .wait (if asked then s else s.send (.slice home) (.slice home) regVn (.bisnp g inv (some fetch)))
  | .recall x => if write && !asked then .wait (s.send (.slice home) (.port 0) vnService (.bisnp x true none)) else .wait s

/-- A step that cannot go on yet keeps what it was about and sends what it waits for. -/
def State.keepMsgs (s₀ s : State) : State :=
  { s₀ with net := s₀.net ++ s.net.filter (fun y => decide (s₀.nextId ≤ y.id)), nextId := s.nextId }

/-- The lines of an access: their virtual addresses and sizes. -/
def vaLines (fuel va n : Nat) : List (Nat × Nat) :=
  match fuel with
  | 0 => []
  | fuel + 1 =>
    if n = 0 then []
    else
      let k := min n (64 - va % 64)
      (va, k) :: vaLines fuel (va + k) (n - k)

/-- The lines of an access from a virtual address on. -/
def linesOf (va n : Nat) : List (Nat × Nat) := vaLines (n / 64 + 2) va n

/-- The slice that performs a unit's access: the home of the line, or of an APPEND page's first line; an engine's read of a SEALED page
that its die holds a replica of stays on the die (R253, R259, R265). -/
def State.unitHome (s : State) (w : Who) (c : Cat) (l : Leaf) (ga : Nat) : Nat :=
  let p := s.part w.part
  if l.cls ≠ 1 then p.home ga
  else if c = .engRead ∧ s.hasReplica w.part (dieOf w.site) (ga / 4096) then
    ({ p with mask := p.mask &&& (15 * 2 ^ (4 * dieOf w.site)) } : Part).home ga
  else p.home (ga / 4096 * 4096)

/-- Whether a unit's access waits: an edge or a peer's port on its way carries nothing, or a replica that it makes cannot be noted
(R259, R350). -/
def State.unitWaits (s : State) (w : Who) (c : Cat) (l : Leaf) (ga : Nat) : Bool :=
  let die := dieOf w.site
  s.pathWaits die (dieOfCl (s.unitHome w c l ga)) || (l.peer && s.peerWaits l.peerId) ||
    (l.cls == 1 && c == .engRead && !s.hasReplica w.part die (ga / 4096) && s.replicates w.part die (ga / 4096) &&
      s.mirrorDown l.mir w.part (ga / 4096))

/-- A unit's access is translated and each of its lines made ready, in address order; a home that its die cannot reach answers NET, and
while an edge on the way carries nothing the unit waits (R350, R351, R395). -/
def State.probeLines (s : State) (w : Who) (c : Cat) (ls : List (Nat × Nat)) (write : Bool) : Probe State :=
  match ls with
  | [] => .ok s
  | (va, n) :: rest =>
    if 2 ^ 54 ≤ va then .fault 0x04 0x01 va
    else
      match s.xlate w.part w.asid w.priv va c with
      | .error f => .fault f.1 f.2 va
      | .ok (s, l) =>
        match s.placeVerdict w (.eng [] .sys) l (l.ga va) with
        | some f => .fault f.1 f.2 va
        | none =>
          if s.unitWaits w c l (l.ga va) then .wait s
          else
          match s.unreached (dieOf w.site) (s.unitHome w c l (l.ga va)) with
          | some sub => .fault 0x12 sub va
          | none =>
            match s.readyLine (unitAcc w va (l.ga va) l [] n write) write with
            | .ok s => s.probeLines w c rest write
            | .wait s => .wait s
            | .fault a b c => .fault a b c

/-- A unit's access made ready; nothing is read or written yet. -/
def State.probe (s : State) (w : Who) (c : Cat) (va n : Nat) (write : Bool) : Probe State :=
  s.probeLines w c (linesOf va n) write

/-- The global address and leaf of an access that has been made ready. -/
def State.leafAt (s : State) (w : Who) (c : Cat) (va : Nat) : State × Leaf :=
  match s.xlate w.part w.asid w.priv va c with
  | .ok (s, l) => (s, l)
  | .error _ => (s, leafOf 0 0 va)

/-- The bytes of one line read at its home, or of a SEALED page that an engine reads from the replica on its die (R265). -/
def State.readLine (s : State) (w : Who) (c : Cat) (va n : Nat) : State × List Byte :=
  let (s, l) := s.leafAt w c va
  let die := dieOf w.site
  let f := l.ga va / 4096
  if l.cls = 1 ∧ c = .engRead ∧ s.replicates w.part die f then
    let s := s.useReplica w.part die f l.mir
    (s, s.readSealed w.part die l (l.ga va) n)
  else s.homeRead w.site (unitAcc w va (l.ga va) l [] n false) n

/-- The bytes of an access that has been made ready. -/
def State.readLines (s : State) (w : Who) (c : Cat) (ls : List (Nat × Nat)) : State × List Byte :=
  ls.foldl (fun r x =>
    let (s, bs) := r.1.readLine w c x.1 x.2
    (s, r.2 ++ bs)) (s, [])

/-- A unit's read of memory (R142, R250).  DESIGN CHOICE, log entry 26. -/
def State.pull (s : State) (w : Who) (c : Cat) (va n : Nat) : Probe (State × List Byte) :=
  match s.probe w c va n false with
  | .ok s => .ok (s.readLines w c (linesOf va n))
  | .wait s => .wait s
  | .fault a b x => .fault a b x

/-- A unit's write of memory that has been made ready, performed at its home. -/
def State.poke (s : State) (w : Who) (c : Cat) (va : Nat) (data : List Byte) : State :=
  (linesOf va data.length).foldl (fun s x =>
    let (s, l) := s.leafAt w c x.1
    let bs := (data.drop (x.1 - va)).take x.2
    let ga := l.ga x.1
    let home := (s.part w.part).home ga
    let a := unitAcc w x.1 ga l bs x.2 true
    (s.performWrite home (s.via a) a bs).1) s

/-- A write of one line of local HBM by a unit, at its home: every copy of the line is invalidated. -/
def State.pokeGa (s : State) (part site ga : Nat) (data : List Byte) : State :=
  let l : Leaf := { leafOf 0 0 0 with pa := ga / 4096 * 4096 }
  let w := unitWho site part 0 2 0
  (s.performWrite ((s.part part).home ga) 0 (unitAcc w ga ga l data data.length true) data).1

/-- A mismatch in the Regulator log and in the core's count of the last second (R390, R423).  DEDUCED, log entry 55. -/
def State.noteMismatch (s : State) (site : Nat) (x : Mismatch) : State :=
  (s.logEvent (.core site) 0x0C x.unit_ x.detail).modCore site fun c =>
    { c with mism := (c.mism.filter fun t => decide (s.gtime < t + 1000000000)) ++ [s.gtime] }

/-- A core stops issue: its containment starts (R392). -/
def State.stopCore (s : State) (site : Nat) : State :=
  s.modCore site fun c => { c with life := if c.life = .active ∨ c.life = .halted then .containing else c.life }

/-- A 64-bit word that a unit reads. -/
def State.pullWord (s : State) (w : Who) (c : Cat) (va : Nat) : Probe (State × Nat) :=
  match s.pull w c va 8 with
  | .ok (s, bs) => .ok (s, leNat bs)
  | .wait s => .wait s
  | .fault a b x => .fault a b x

/-- Lists of numbers in increasing order of a key, insertion by insertion; equal ones keep their order. -/
def insertBy (key : Nat → Nat) (x : Nat) (l : List Nat) : List Nat :=
  match l with
  | [] => [x]
  | y :: rest => if key x < key y then x :: y :: rest else y :: insertBy key x rest

/-- A list of numbers sorted by a key. -/
def sortBy (key : Nat → Nat) (l : List Nat) : List Nat := l.foldl (fun r x => insertBy key x r) []

end Sys2Proof.Machine
end

