-- ==== Sys2Proof/Machine/Patch.lean ====
section
/-! DEFINITION. The slot records of the Pallet fabric and which of them acts (R408–R411, R414). -/

namespace Sys2Proof.Machine

/-- Whether a slot record is valid. -/
def slotV (r : List Byte) : Bool := (leField r 16 1).testBit 7
/-- PCLS. -/
def slotPcls (r : List Byte) : Nat := fld (leField r 16 1) 5 2
/-- Whether PRIVF admits a privilege. -/
def slotAdmits (r : List Byte) (priv : Nat) : Bool := decide (priv < 3) && (leField r 16 1).testBit (2 + priv)
/-- LEN: the slot matches 16-bit instructions. -/
def slotShort (r : List Byte) : Bool := (leField r 16 1).testBit 1
/-- WB. -/
def slotWb (r : List Byte) : Bool := (leField r 16 1).testBit 0
/-- ACT. -/
def slotAct (r : List Byte) : Nat := leField r 17 1

/-- The slots of a partition's image with their numbers. -/
def Part.slots (p : Part) : List (Nat × List Byte) := (List.range 32).map fun i => (i, p.patchRecord i)

/-- Of the slots that match, the one of the highest PCLS, and of those the lowest number (R410). -/
def chooseSlot (l : List (Nat × List Byte)) : Option (Nat × List Byte) :=
  l.foldl (fun b x =>
    match b with
    | none => some x
    | some y => if slotPcls y.2 < slotPcls x.2 then some x else b) none

/-- The encoding slot that acts on a fetched encoding (R409, R410). -/
def Part.encSlot (p : Part) (enc : BitVec 32) (len priv : Nat) : Option (Nat × List Byte) :=
  chooseSlot (p.slots.filter fun x =>
    let r := x.2
    let w := if len = 2 then 16 else 32
    slotV r && decide (slotAct r ≤ 2) && slotAdmits r priv && slotShort r == decide (len = 2) &&
      (enc.toNat &&& leField r 4 4) % 2 ^ w == leField r 0 4 % 2 ^ w)

/-- The FAULTPATH slot that matches a fault message: never a message that no context raised, a double fault, a fault of class LOST, CHECK
or REC, or one of a service thread (R414). -/
def Part.faultSlot (p : Part) (m : FaultMsg) : Option (Nat × List Byte) :=
  let cls := wfld m.cause 0 8
  if m.key.isNone ∨ cls = 0x11 ∨ cls = 0x0C ∨ cls = 0x10 ∨ m.svc then none
  else
    chooseSlot (p.slots.filter fun x =>
      let r := x.2
      slotV r && slotAct r == 3 && slotAdmits r m.priv &&
        (wfld m.cause 0 16 &&& leField r 4 2) == (leField r 0 2 &&& leField r 4 2))

end Sys2Proof.Machine
end

