-- ==== Sys2Proof/Machine/Queue.lean ====
section
/-! DEFINITION. Descriptor queues, mailboxes and service queues (R311–R316, R323–R328), `wenq` at its target (R161), and
fault messages (R314, R315, R369, R414). -/

namespace Sys2Proof.Machine

/-! ## Descriptors (R312) -/

/-- A queue descriptor. -/
structure Desc where
  base : Nat
  log2n : Nat
  kind : Nat
  flags : Nat
  widx : Nat
  ridx : Nat
  len : List Byte
  waiter : Nat
  rsv : Bool
  deriving DecidableEq, Repr

/-- A descriptor read from its 64 bytes. -/
def parseDesc (bs : List Byte) : Desc :=
  { base := leField bs 0 8, log2n := leField bs 8 1, kind := leField bs 9 1, flags := leField bs 10 1,
    widx := leField bs 16 4, ridx := leField bs 20 4, len := (bs.drop 24).take 16, waiter := leField bs 40 8,
    rsv := leField bs 11 5 != 0 || leField bs 48 16 != 0 }

/-- The number of entries present. -/
def Desc.c (d : Desc) : Nat := (d.widx + 2 ^ 32 - d.ridx) % 2 ^ 32
/-- The number of entries a queue holds. -/
def Desc.cap (d : Desc) : Nat := 2 ^ d.log2n
/-- Bytes of an entry. -/
def Desc.size (d : Desc) : Nat := if d.kind = 0 then 16 else 32
/-- CLOSED. -/
def Desc.closed (d : Desc) : Bool := d.flags.testBit 0
/-- OVERRUN (R316). -/
def Desc.overrun (d : Desc) : Bool := decide (d.cap < d.c)
/-- The address of entry i. -/
def Desc.entry (d : Desc) (i : Nat) : Nat := d.base + i % d.cap * d.size

/-- A bad descriptor, at its own address (R312). -/
def Desc.bad (d : Desc) (va : Nat) : Bool :=
  d.rsv || decide (2 < d.kind) || decide (1 < d.flags) || d.log2n == 0 || decide (20 < d.log2n) || decide (2 ^ 47 ≤ d.waiter) ||
  d.base % d.size != 0 || (d.kind == 1 && (d.base != va + 128 || d.log2n != 4)) || (d.kind != 1 && leNat d.len != 0)

/-- A descriptor's 64 bytes with the indices, lengths and the waiter as given. -/
def Desc.patch (d : Desc) (bs : List Byte) : List Byte :=
  patchBytes (patchBytes bs 16 (leBytes 4 (d.widx % 2 ^ 32) ++ leBytes 4 (d.ridx % 2 ^ 32) ++ d.len)) 40 (leBytes 8 d.waiter)

/-- The line of a descriptor at its home: a dirty stash copy of it is written back and an owner gives it up, before a queue operation
reads it (R180, R312). -/
def State.descAt (s : State) (ga : Nat) : State := (s.recallStashes (ga / 64) none false).recallOwned (ga / 64) none

/-- The descriptor at a global address, with its address rounded to its line. -/
def State.desc (s : State) (ga : Nat) : Desc := parseDesc (s.rd (ga / 64 * 64) 64)

/-- A descriptor written back at its home. -/
def State.setDesc (s : State) (sl : Nat) (a : Acc) (d : Desc) : State :=
  let ga := a.ga / 64 * 64
  (s.performWrite sl (s.via a) { a with ga := ga } (d.patch (s.rd ga 64))).1

/-- The checks of R316 in their order: bad, kind, OVERRUN, CLOSED for a push. -/
def Desc.check (d : Desc) (va : Nat) (kinds : Nat → Bool) (push : Bool) : Option Nat :=
  if d.bad va then some 0x04
  else if !kinds d.kind then some 0x05
  else if d.overrun then some 0x03
  else if push && d.closed then some 0x03
  else none

/-- An entry pushed by a requester, with its waiter woken (R316); the descriptor has room. -/
def State.pushEntry (s : State) (sl : Nat) (a : Acc) (w : Who) (d : Desc) (data : List Byte) (len : Option Nat) : State :=
  let s := s.poke w .entryPush (d.entry d.widx) data
  let d' := { d with
    widx := d.widx + 1
    len := match len with
      | some n => d.len.set (d.widx % 16) (BitVec.ofNat 8 n)
      | none => d.len
    waiter := 0 }
  let s := s.setDesc sl a d'
  if d.waiter = 0 then s else s.wakeCid a.w.part (d.waiter % 2 ^ 47)

/-- The entry of `qpush` and `wenq` (R161, R325). -/
def userEntry (s : State) (w : Who) (v n : Nat) : List Byte :=
  leBytes 8 v ++ leBytes 2 n ++ leBytes 2 (s.logical w.site) ++ leBytes 2 (((s.line? w.key).map (·.kid)).getD 0) ++ leBytes 2 0

/-! ## Holding requests at a full queue (R316) -/

/-- Requests held at a queue, and at a slice. -/
def holdPerQueue : Nat := 16
/-- Requests held at a slice. -/
def holdPerSlice : Nat := 256

/-- Whether a queue's home may hold one more request. -/
def State.mayHold (s : State) (part sl g : Nat) : Bool :=
  decide ((tgetD s.heldQ g []).length < holdPerQueue) &&
    decide ((s.heldQ.foldl (fun n e => if s.homeAt ((e.2.head?.map (·.who.part)).getD part) e.1 = sl then n + e.2.length else n) 0) < holdPerSlice)

/-- A request joins those held at a queue. -/
def State.holdReq (s : State) (g : Nat) (h : HeldReq) : State :=
  { s with heldQ := tset s.heldQ g (tgetD s.heldQ g [] ++ [h]) }

/-- The entries of a queue that accepted `wenq`s of its held requests have taken (R316). -/
def State.reserved (s : State) (g : Nat) : Nat :=
  (s.inFlight.filter fun y => match y.body with
    | .wenqPush _ _ _ _ _ res => res == some g
    | _ => false).length

/-- Whether a queue has room for `n` more entries; one that a held request has taken is no room for a later push (R316). -/
def State.room (s : State) (g : Nat) (d : Desc) (n : Nat) : Bool := decide (d.c + s.reserved g + n ≤ d.cap)

/-- The requests that join a queue and leave it behind a full one keep their order. -/
def State.unhold (s : State) (g : Nat) : State :=
  match tgetD s.heldQ g [] with
  | [] | [_] => { s with heldQ := tdel s.heldQ g }
  | _ :: rest => { s with heldQ := tset s.heldQ g rest }

/-- The entries a fault message takes: itself, and its record (R314). -/
def FaultMsg.entries (m : FaultMsg) : List (List Byte) :=
  let head := leBytes 8 m.cid ++ leBytes 8 m.cause.toNat ++ leBytes 8 m.faddr.toNat ++ leBytes 2 m.core ++
    leBytes 1 (b2n m.record.isSome) ++ leBytes 1 0 ++ leBytes 4 m.cookie
  match m.record with
  | none => [head]
  | some r => [head, fitBytes 32 r]

/-- The requester that a service table's home acts for: the supervisor in `$sasid` (R384). -/
def State.svcWho (s : State) (p site : Nat) : Who := unitWho site p (wfld (s.part p).sasid 0 16) 2 0

/-- Several entries pushed one after the other in one step (R314). -/
def State.pushAll (s : State) (sl : Nat) (a : Acc) (w : Who) (es : List (List Byte)) : State :=
  es.foldl (fun s x => s.pushEntry sl a w (s.desc a.ga) x none) s

/-! ## `wenq` at its target (R161) -/

/-- A payload's accesses leave for their homes, line by line, at the instruction's scope. -/
def State.sendWrites (s : State) (w : Who) (c : Cat) (va : Nat) (data : List Byte) (sc : Scope) (tok : Nat) : State :=
  (linesOf va data.length).foldl (fun s x =>
    let (s, l) := s.leafAt w c x.1
    let ga := l.ga x.1
    s.send (.slice ((s.part w.part).tslice w.asid x.1)) (.slice (s.homeOfAcc w x.1 (.eng [] sc) l ga)) regVn
      (.acc { w := w, va := x.1, ga := ga, leaf := l, k := .eng ((data.drop (x.1 - va)).take x.2) sc, tok := tok, snooped := false })) s

/-- A `wenq` is accepted: its context goes on, its data leaves for memory, and its entry follows once the data is performed.
DEDUCED, log entry 58. -/
def State.acceptWenq (s : State) (sl : Nat) (w : Who) (va : Nat) (payload : List Byte) (sc : Scope) (queue tok : Nat)
    (res : Option Nat) : State :=
  let s := if s.answers w then s.decWait w.key else s
  let s := s.sendWrites w (.wenq (sc == .recov)) va payload sc tok
  s.send (.slice sl) (.slice sl) vnService (.wenqPush w va queue (userEntry s w va payload.length) tok res)

/-- The pages of an access translated in order; the first that fails is named by its first byte (R161). -/
def State.xlateAll (s : State) (w : Who) (c : Cat) (ls : List (Nat × Nat)) : Except (Nat × Nat × Nat) State :=
  match ls with
  | [] => .ok s
  | (va, _) :: rest =>
    if 2 ^ 54 ≤ va then .error (0x04, 0x01, va / 4096 * 4096)
    else
      match s.xlate w.part w.asid w.priv va c with
      | .ok (s, l) =>
        match s.placeVerdict w (.eng [] .sys) l (l.ga va) with
        | some f => .error (f.1, f.2, va / 4096 * 4096)
        | none => s.xlateAll w c rest
      | .error f => .error (f.1, f.2, va / 4096 * 4096)

/-- A unit's access to a descriptor's line, for its home.  DEDUCED, log entry 40. -/
def descAcc (w : Who) (va ga : Nat) (l : Leaf) : Acc := unitAcc w va ga l [] 8 true

/-- A push that names a descriptor of one kind, made ready: its line may be performed, and, where the checks of R316 let it push, its
entry's too. -/
def State.probeDesc (s : State) (w : Who) (va kind : Nat) : Probe (State × Acc × Desc) :=
  if va % 64 ≠ 0 then .fault 0x0A 0x04 va
  else
    match s.probe w .descPush va 8 true with
    | .wait s => .wait s
    | .fault a b c => .fault a b c
    | .ok s =>
      let (s, l) := s.leafAt w .descPush va
      let a := descAcc w va (l.ga va) l
      let s := s.descAt a.ga
      let d := s.desc a.ga
      if (d.check va (fun k => k == kind) true).isNone && decide (d.c < d.cap) then
        match s.probe w .entryPush (d.entry d.widx) d.size true with
        | .wait s => .wait s
        | .fault a b c => .fault a b c
        | .ok s => .ok (s, a, d)
      else .ok (s, a, d)

/-! ## The held requests of a queue that has room again (R316) -/

/-- The oldest held request takes a freed entry, before any later push; it stays while the queue has no room for it. -/
def State.serveHeld (s : State) (sl : Nat) (a : Acc) : State :=
  let g := a.ga / 64
  match tgetD s.heldQ g [] with
  | [] => s
  | h :: _ =>
    let d := s.desc a.ga
    if (d.check a.va (fun _ => true) true).isSome then s
    else
      match h.k, h.msg, h.entry with
      | _, _, some x => if s.room g d 1 then ((s.unhold g).pushEntry sl a h.who d x none).endOp h.tok else s
      | .wenq payload sc queue, _, none =>
        if s.room g d 1 then
          (s.unhold g).acceptWenq ((s.part h.who.part).tslice h.who.asid h.va) h.who h.va payload sc queue h.tok (some g)
        else s
      | .send data, _, none =>
        if s.room g d 1 then
          let s := (s.unhold g).pushEntry sl a h.who d data (some data.length)
          if s.answers h.who then s.reply sl h.who Answer.none else s
        else s
      | _, some x, none =>
        let es := x.entries
        if s.room g d es.length then (s.unhold g).pushAll sl a (s.svcWho x.part h.who.site) es else s
      | _, none, none => s.unhold g

/-- Every held request of a queue that finds room takes its entry, oldest first: before a later push, and after a store to the
descriptor has made room (R161, R316). -/
def State.serveAll (s : State) (sl : Nat) (a : Acc) : State :=
  (tgetD s.heldQ (a.ga / 64) []).foldl (fun s _ => s.serveHeld sl { a with k := .eng [] .sys }) s

/-- The issuer's stores that an engine operation, or an accepted `wenq`, must follow: those that it issued before and that are not
performed (R227, R238). -/
def State.forkOpen (s : State) (w : Who) (tok : Nat) : Bool := (s.forkEdge w.key).any fun t => decide (t < tok)

/-- Step WENQ_ACCEPT (R161): the translation slice checks every page and the queue; a full queue holds the request.  The
issuer's earlier stores are performed first, since its data follows them (R227, R238).  DEDUCED, log entry 58. -/
def execWenqAccept (m : Nat) (s : State) : Out :=
  match s.reqMsg? m with
  | some x =>
    match x.dst, x.body with
    | .slice sl, .req w va (.wenq payload sc queue) tok _ =>
      let k := ReqKind.wenq payload sc queue
      let fail (s : State) (cls sub at_ : Nat) : Out := .next ((s.drop m).refuse sl w at_ k tok (cls, sub))
      if s.forkOpen w tok || s.pathWaits (dieOf w.site) (dieOfCl sl) then .next s
      else
      match s.unreached (dieOf w.site) sl with
      | some sub => fail s 0x12 sub va
      | none =>
        match s.xlateAll w (.wenq (sc == .recov)) (linesOf va payload.length) with
        | .error f => fail s f.1 f.2.1 f.2.2
        | .ok s =>
          match s.probeDesc w queue 0 with
          | .fault a b c => fail s a b c
          | .wait s => .next s
          | .ok (s, a, d) =>
            match d.check queue (fun k => k == 0) true with
            | some sub => fail s 0x0A sub queue
            | none =>
              let home := s.homeAt w.part (a.ga / 64)
              let g := a.ga / 64
              let s := s.serveAll home a
              if s.room g (s.desc a.ga) 1 && (tgetD s.heldQ g []).isEmpty then
                .next ((s.drop m).acceptWenq sl w va payload sc queue tok none)
              else if s.mayHold w.part home g then
                .next ((s.drop m).holdReq g { who := w, k := k, va := va, msg := none, tok := tok, entry := none })
              else fail s 0x0A 0x07 queue
    | _, _ => .next s
  | none => .next s

/-- Step WENQ_PUSH (R161): once the data is performed at the scope, the target pushes the entry; where the queue has filled meanwhile
it is held there as any push of a `wenq` is (R316).  DEDUCED, log entry 58. -/
def execWenqPush (m : Nat) (s : State) : Out :=
  match s.find? m with
  | some (.wenqPush w va queue entry tok res) =>
    let writing := s.inFlight.any fun y => match y.body with
      | .acc b | .hostReq _ _ b | .bisnp _ _ (some b) => b.tok == tok && match b.k with
          | .eng _ _ => true
          | _ => false
      | .eack _ t _ _ _ _ => t == tok
      | _ => false
    if writing then .next s
    else
      let k := ReqKind.wenq entry .sys queue
      let fail (s : State) (cls sub : Nat) : Out :=
        .next ((s.drop m).answerFault (.slice (clusterOf w.site)) w
          { cls := cls, sub := sub, kind := kStore, size := 0xF, faddr := W va } true false tok (some (deferredRecord s w k)) false)
      match s.probeDesc w queue 0 with
      | .fault a b _ => fail s a b
      | .wait s => .next s
      | .ok (s, a, d) =>
        match d.check queue (fun k => k == 0) true with
        | some sub => fail s 0x0A sub
        | none =>
          let home := s.homeAt w.part (a.ga / 64)
          let g := a.ga / 64
          let s := s.drop m
          let s := if res == some g then s else s.serveAll home a
          let d := s.desc a.ga
          if res == some g && decide (d.c < d.cap) || s.room g d 1 && (tgetD s.heldQ g []).isEmpty then
            .next ((s.pushEntry home a w d entry none).endOp tok)
          else if s.mayHold w.part home g then
            .next (s.holdReq g { who := w, k := k, va := va, msg := none, tok := tok, entry := some entry })
          else fail s 0x0A 0x07
  | _ => .next s

/-! ## `qpush`, `qpop`, `qstat` at the home (R325–R327) -/

/-- A refusal of a queue instruction (R316). -/
def State.queueFault (s : State) (sl : Nat) (a : Acc) (sub : Nat) : State := s.accFault sl a (0x0A, sub)

/-- An entry's line that must be ready before the step: a wait keeps the request where it is. -/
def withEntry (s₀ : State) (w : Who) (va n : Nat) (write : Bool) (fault : Nat → Nat → Nat → State) (go : State → State) : State :=
  match s₀.probe w (if write then .entryPush else .descRead) va n write with
  | .ok s => go s
  | .wait s => s
  | .fault a b c => fault a b c

/-- `qpush` at the home (R325). -/
def State.homeQpush (s₀ : State) (m sl : Nat) (a : Acc) (v : Word) : State :=
  let s₀ := s₀.descAt a.ga
  let s := s₀.drop m
  let d := s.desc a.ga
  match d.check a.va (fun k => k == 0) true with
  | some sub => s.queueFault sl a sub
  | none =>
    let g := a.ga / 64
    let t := s₀.serveAll sl a
    let d := t.desc a.ga
    let s := t.drop m
    if t.room g d 1 && (tgetD t.heldQ g []).isEmpty then
      withEntry t a.w (d.entry d.widx) 16 true
        (fun x y z => s.answerFault (.slice sl) a.w { cls := x, sub := y, kind := kQueue, size := 4, faddr := W z } false false 0 none false)
        fun s =>
          let s := s.drop m
          (s.pushEntry sl a a.w d (userEntry s a.w v.toNat 0) none).reply sl a.w (Answer.p true)
    else s.reply sl a.w (Answer.p false)

/-- `qpop` at the home (R326). -/
def State.homeQpop (s₀ : State) (m sl : Nat) (a : Acc) (dst : Reg) : State :=
  let s₀ := s₀.descAt a.ga
  let s := s₀.drop m
  let d := s.desc a.ga
  match d.check a.va (fun _ => true) false with
  | some sub => s.queueFault sl a sub
  | none =>
    if d.kind ≠ 0 ∧ dst.val % 8 ≠ 0 ∧ dst.val % 8 ≠ 4 then s.queueFault sl a 0x06
    else if d.c = 0 then
      let cid := ((s.line? a.w.key).map (·.cid)).getD 0
      let own := d.kind = 1 ∧ a.va = cid * 128 + 128
      if own ∧ !d.closed then
        -- the home holds the `qpop`, and the context waits with kind 4
        if s.answers a.w then
          s.modLine a.w.key fun l =>
            { l with wt := mkWt 4 0, waitFrom := s.gtime, pend := none, popWait := some { desc := a.va, who := a.w, dst := dst } }
        else s
      else
        let s := if !d.closed && d.waiter == 0 then s.setDesc sl a { d with waiter := cid } else s
        s.reply sl a.w (Answer.p false)
    else
      withEntry s₀ a.w (d.entry d.ridx) d.size false
        (fun x y z => s.answerFault (.slice sl) a.w { cls := x, sub := y, kind := kQueue, size := 5, faddr := W z } false false 0 none false)
        fun s =>
          let s := s.drop m
          let (s, bs) := s.readLines a.w .descRead (linesOf (d.entry d.ridx) d.size)
          let bs := if d.kind = 1 then fitBytes 32 (bs.take ((d.len.getD (d.ridx % 16) 0#8).toNat)) else bs
          let regs := (List.range (d.size / 8)).map fun i => (dst + Fin.ofNat 16 i, W (leField bs (8 * i) 8))
          let s := s.setDesc sl a { d with ridx := d.ridx + 1 }
          (s.serveAll sl a).reply sl a.w { regs := regs, flags := Flags.none, p15 := some true } true

/-- `qstat` at the home (R327). -/
def State.homeQstat (s₀ : State) (m sl : Nat) (a : Acc) (dst : Reg) : State :=
  let s := (s₀.drop m).descAt a.ga
  let d := s.desc a.ga
  if d.bad a.va then s.queueFault sl a 0x04
  else
    let st := if d.overrun then 3 else if d.closed then 4 else if d.c = 0 then 0 else if d.c = d.cap then 2 else 1
    s.reply sl a.w { Answer.none with regs := [(dst, W (d.c * 2 ^ 32 + d.log2n * 2 ^ 24 + d.kind * 2 ^ 16 + st))] }

/-! ## `send` (R324) -/

/-- A message completes the target's own held `qpop` (R324, R326).  DEDUCED, log entry 10. -/
def State.completePop (s : State) (sl : Nat) (a : Acc) (d : Desc) (key : Nat) (p : PopWait) (data : List Byte) : State :=
  let bs := fitBytes 32 data
  let regs := (List.range 4).map fun i => (p.dst + Fin.ofNat 16 i, W (leField bs (8 * i) 8))
  let s := s.setDesc sl a { d with widx := d.widx + 1, ridx := d.ridx + 1 }
  ((s.answer p.who { regs := regs, flags := Flags.none, p15 := some true } true).makeReady key).acquires key

/-- Step SEND_DELIVERY (R324): the mailbox's home acts on the target's state. -/
def execSendDelivery (m : Nat) (s : State) : Out :=
  homeArrival m s
    (fun a => match a.k with
      | .send _ => true
      | _ => false)
    fun s₀ sl a =>
      match a.k with
      | .send data =>
        let s₀ := s₀.descAt a.ga
        let s := s₀.drop m
        match s.mailboxLine a.w a.va a.ga with
        | none => s.reply sl a.w Answer.none
        | some (key, l) =>
          let d := s.desc a.ga
          match d.check a.va (fun k => k == 1) true with
          | some sub => s.queueFault sl a sub
          | none =>
            match l.popWait with
            | some p => (s.completePop sl a d key p data).reply sl a.w Answer.none
            | none =>
              let g := a.ga / 64
              let t := s₀.serveAll sl a
              let d := t.desc a.ga
              let s := t.drop m
              if t.room g d 1 && (tgetD t.heldQ g []).isEmpty then
                withEntry t a.w (d.entry d.widx) 32 true
                  (fun x y z => s.answerFault (.slice sl) a.w { cls := x, sub := y, kind := kContext, size := 5, faddr := W z } false false 0 none false)
                  fun s => ((s.drop m).pushEntry sl a a.w d data (some data.length)).reply sl a.w Answer.none
              else if s.mayHold a.w.part sl g then
                s.holdReq g { who := a.w, k := a.k, va := a.va, msg := none, tok := 0, entry := none }
              else s.queueFault sl a 0x07
      | _ => s₀

/-! ## Fault messages (R314, R315, R369, R414) -/

/-- The Regulator takes a message that no descriptor can take: 256 per partition are held, later ones counted (R315). -/
def State.regulatorTakes (s : State) (m : FaultMsg) : State :=
  let kept := tgetD s.reg.kept m.part []
  let s := s.logEvent (.core ((s.siteOfLogical m.core).getD m.core)) (wfld m.cause 0 8) (wfld m.cause 8 8) m.cid
  let s : State := { s with reg :=
    if kept.length < 256 then { s.reg with kept := tset s.reg.kept m.part (kept ++ [m]) }
    else { s.reg with dropped := tset s.reg.dropped m.part (tgetD s.reg.dropped m.part 0 + 1) } }
  s.causeBit m.part 17

/-- What a service descriptor does with a message.  DEDUCED, log entry 59. -/
inductive MsgFate where
  | taken (s : State)
  | cannot
  | wait (s : State)

/-- A descriptor of the service table tries a message (R315).  DEDUCED, log entry 59. -/
def State.tryDesc (s₀ : State) (mid : Nat) (m : FaultMsg) (desc : Nat) : MsgFate :=
  let base := wfld (s₀.part m.part).svcq 11 43 * 2048
  let site := (s₀.siteOfLogical m.core).getD 0
  let w := s₀.svcWho m.part site
  let va := base + 64 * desc
  if base = 0 then .cannot
  else
    match s₀.probeDesc w va 2 with
    | .fault _ _ _ => .cannot
    | .wait s => .wait s
    | .ok (s, a, d) =>
      let es := m.entries
      match d.check va (fun k => k == 2) true with
      | some _ => .cannot
      | none =>
        let sl := s.homeAt m.part (a.ga / 64)
        let s := s.serveAll sl a
        let d := s.desc a.ga
        if s.room (a.ga / 64) d es.length && (tgetD s.heldQ (a.ga / 64) []).isEmpty then
          match s.probe w .entryPush (d.entry (d.widx + es.length - 1)) 32 true with
          | .fault _ _ _ => .cannot
          | .wait s => .wait s
          | .ok s => .taken ((s.drop mid).pushAll sl a w es)
        else if s.mayHold m.part sl (a.ga / 64) then
          .taken ((s.drop mid).holdReq (a.ga / 64) { who := w, k := .pref, va := va, msg := some m, tok := 0, entry := none })
        else .wait s

/-- A message that a FAULTPATH slot suppresses: a line parked for the fault is resumed at once as by `resume` mode 1, one that holds the
answer in its tag will be when it parks, and a report is dropped (R414). -/
def State.suppressFault (s : State) (m : FaultMsg) : State :=
  match m.key.bind fun k => (s.line? k).map fun l => (k, l) with
  | some (k, l) =>
    if l.life != .live then s
    else if l.wtKind == 6 && l.cause == m.cause then s.setLine k (l.resumed .skip 0#64 s.gtime).takeHeld
    else
      s.setLine k { l with heldFaults := l.heldFaults.map fun h =>
        if h.cause = m.cause ∧ h.faddr = m.faddr then { h with quiet := true } else h }
  | none => s

/-- A fault message goes its way: a FAULTPATH slot may redirect or suppress it; then its descriptor takes it, or descriptor 0 with ESC set,
or the Regulator.  `path` says that the home slice of the descriptor, which checks the slot's decision, agrees with it (R369, R414,
R415).  DEDUCED, log entry 59. -/
def State.routeFault (s : State) (mid : Nat) (path : Bool) : Out :=
  match s.find? mid with
  | some (.msg m) =>
    let slot := if path then (s.part m.part).faultSlot m else none
    let suppress := (slot.map fun x => leField x.2 8 1 == 0xFF).getD false
    if suppress then .next ((s.drop mid).suppressFault m)
    else
      let desc := (slot.map fun x => leField x.2 8 1 % 32).getD m.desc
      match s.tryDesc mid m desc with
      | .taken s => .next s
      | .wait s => .next s
      | .cannot =>
        let m' := { m with desc := 0, cause := m.cause ||| W (2 ^ 30) }
        match s.tryDesc mid m' 0 with
        | .taken s => .next s
        | .wait s => .next s
        | .cannot => .next ((s.drop mid).regulatorTakes m')
  | _ => .next s

/-- Step FAULT_MESSAGE (R369, R414). -/
def execFaultMessage (mid : Nat) (s : State) : Out := s.routeFault mid true

/-- A FAULTPATH decision that the home slice of the descriptor finds wrong by its own copy of the slots is logged, and the message takes
the route of R370 (R415).  DESIGN CHOICE, log entry 18. -/
def State.pathMismatch (s : State) (mid : Nat) : Out :=
  match s.find? mid with
  | some (.msg m) => (s.logEvent (.cluster (s.homeAt m.part (wfld (s.part m.part).svcq 11 43 * 2048 / 64 + m.desc))) 0x0C 0 m.cid).routeFault mid false
  | _ => .next s

/-! ## Instructions at the core (R323) -/

/-- `send ra, rb, len` (R324): the target is checked as by `wake`, on the mailbox's page.  DESIGN CHOICE, log entry 31. -/
def execSend (g : Guard) (k : Fin 4) (a b : Reg) (s : State) : Out :=
  guarded g s fun e =>
    match cidFault (e.reg a) with
    | some f => s.raise e f
    | none =>
      let data := (List.range (k.val + 1)).flatMap fun i => leBytes 8 (e.reg (b + Fin.ofNat 16 i)).toNat
      let va := (e.reg a).toNat * 128 + 128
      s.issueWait (e.at va (.send data)) 1 [.pwc] (.send va (.send data))

/-- The check of a descriptor's address (R323). -/
def State.queueOp (s : State) (g : Guard) (a : Reg) (go : Env → Nat → State) : Out :=
  guarded g s fun e =>
    match eaFault kQueue 64 (e.reg a) with
    | some f => s.raise e f
    | none => go (e.trace s.gtime 3 (e.reg a).toNat) (e.reg a).toNat

/-- `qpush [ra], rb` (R325): a release at device scope. -/
def execQpush (g : Guard) (a b : Reg) (s : State) : Out :=
  s.queueOp g a fun e va => s.issueWait (e.at va (.qpush (e.reg b))) 1 [.pwc] (.send va (.qpush (e.reg b)))

/-- `qpop rd, [ra]` (R326). -/
def execQpop (g : Guard) (a d : Reg) (s : State) : Out := s.queueOp g a fun e va => s.issueReq e va (.qpop d)

/-- `qstat rd, [ra]` (R327). -/
def execQstat (g : Guard) (a d : Reg) (s : State) : Out := s.queueOp g a fun e va => s.issueReq e va (.qstat d)

end Sys2Proof.Machine
end

