-- ==== Sys2Proof/Machine/Kernel.lean ====
section
/-! DEFINITION. Kernels (R269–R292): the launch header, acceptance, placement, seeding, the completion tree and the end of a
kernel. -/

namespace Sys2Proof.Machine

/-! ## The launch header (R269, R270) -/

/-- The extents of the fields, EXTn + 1. -/
def Header.extents (h : Header) : List Nat := h.ext.map (· + 1)
/-- The number of contexts T (R271). -/
def Header.count (h : Header) : Nat := h.extents.foldl (· * ·) 1
/-- The sum of the field widths. -/
def Header.width (h : Header) : Nat := h.w.foldl (· + ·) 0

/-- The fields of a 256-byte header. -/
def parseHeader (bs : List Byte) : Header :=
  let f := leField bs
  let flags := f 0x0F 1
  { entry := f 0 8, kid := f 8 2, graph := f 0x0A 2, prio := f 0x0C 1, l1share := f 0x0D 1, bshare := f 0x0E 1,
    rs := flags / 32, rse := flags.testBit 4, priv := flags / 4 % 4, seed := flags.testBit 1, mx := flags.testBit 0,
    w := (List.range 6).map fun i => f (0x10 + i) 1, pl := (List.range 6).map fun i => f (0x16 + i) 1, dlx := f 0x1C 1,
    asid := f 0x1E 2, ext := (List.range 6).map fun i => f (0x20 + 8 * i) 8, ctxbase := f 0x50 8, ctxlim := f 0x58 4,
    swin := f 0x5C 4, framebase := f 0x60 8, framesize := f 0x68 8, htpl := f 0x70 8, hmask := f 0x78 8,
    s := (List.range 8).map fun i => W (f (0x80 + 8 * i) 8), compl := f 0xC0 8,
    preds := (List.range 4).map fun i => (f (0xC8 + 4 * i) 4 / 2 ^ 16, f (0xC8 + 4 * i) 4 % 2 ^ 16), hostmax := f 0xD8 2 }

/-- Whether an address is canonical (R245). -/
def canonNat (a : Nat) : Bool := decide (a < 2 ^ 54)

/-- Whether a header obeys the rules of R269 and R270 that concern the header alone. -/
def headerOk (bs : List Byte) : Bool :=
  let h := parseHeader bs
  decide (h.entry < 2 ^ 54) && h.entry % 2 == 0 && decide (1 ≤ h.kid) && decide (h.prio < 16) &&
  decide (1 ≤ h.l1share) && decide (h.l1share ≤ 64) && decide (h.bshare ≤ 64) && (h.rse || h.rs == 0) && decide (h.priv ≤ 2) &&
  (h.w.all fun x => decide (x ≤ 64)) && decide (h.width ≤ 64) && (h.pl.all fun x => decide (x ≤ 4)) && leField bs 0x1D 1 == 0 &&
  ((h.ext.zip h.w).all fun x => decide (x.1 < 2 ^ x.2)) &&
  canonNat h.ctxbase && h.ctxbase % 128 == 0 && decide (1 ≤ h.ctxlim) && decide (h.ctxbase + 768 * h.ctxlim ≤ 2 ^ 54) &&
  decide (h.swin ≤ 256) && canonNat h.framebase && h.framebase % 64 == 0 && h.framesize % 64 == 0 &&
  canonNat h.htpl && (h.hmask == 0 || h.htpl % 32 == 0) && canonNat h.compl && h.compl % 32 == 0 &&
  (h.preds.all fun p => decide (p.1 < 3) && (if p.1 = 0 then p.2 == 0 else p.2 != 0 && p.2 != h.kid)) &&
  leNat (bs.drop 0xDA) == 0 && decide (h.count ≤ h.ctxlim)

/-! ## Work identifiers (R271, R275, R293) -/

/-- The field values of an ordinal, field 1 first. -/
def tupleOf (ext : List Nat) (ordinal : Nat) : List Nat :=
  match ext with
  | [] => []
  | _ :: rest =>
    let d := rest.foldl (· * ·) 1
    ordinal / d :: tupleOf rest (ordinal % d)

/-- The work identifier of a tuple (R271). -/
def widOf (w : List Nat) (fields : List Nat) : Nat := (w.zip fields).foldl (fun x p => x * 2 ^ p.1 + p.2) 0

/-- The group index of a tuple at a level (R293). -/
def groupIndex (ext fields : List Nat) (n : Nat) : Nat := ((ext.zip fields).take n).foldl (fun x p => x * p.1 + p.2) 0

/-- The number of the unit of a placement code that holds a core (R272). -/
def unitOf (code site : Nat) : Nat :=
  match code with
  | 2 => dieOf site
  | 3 => clusterOf site
  | 4 => site
  | _ => 0

/-- The units of a code that hold cores of a list, in increasing number; cores keep their order in the host set (R275). -/
def unitsOf (code : Nat) (cores : List Nat) : List Nat :=
  let us := cores.foldl (fun l c => if l.contains (unitOf code c) then l else l ++ [unitOf code c]) []
  if code = 4 then us else sortBy id us

/-- The anchor of a context and its binding, level by level (R275). -/
def placeLevels (levels : List (Nat × Nat)) (cores : List Nat) (code unit_ ordinal : Nat) : Nat × Nat × Nat :=
  match levels with
  | [] => (cores.getD (ordinal % cores.length) 0, code, unit_)
  | (pl, g) :: rest =>
    if code < pl then
      let us := unitsOf pl cores
      let u := us.getD (g % us.length) 0
      placeLevels rest (cores.filter fun c => unitOf pl c == u) pl u ordinal
    else placeLevels rest cores code unit_ ordinal

/-- The anchor core of an ordinal and the binding of its line: code and unit (R272, R275, R309). -/
def Kernel.anchorOf (k : Kernel) (ordinal : Nat) : Nat × Nat × Nat :=
  let ext := k.hdr.extents
  let t := tupleOf ext ordinal
  match k.gang with
  | some g =>
    let i := (g.gidx.findIdx? fun x => x == groupIndex ext t g.level).getD 0
    let site := k.hosts.getD i 0
    (site, 4, site)
  | none => placeLevels ((List.range 6).map fun i => (k.hdr.pl.getD i 0, groupIndex ext t (i + 1))) k.hosts 0 0 ordinal

/-- The next ordinal to seed at or after one: every ordinal of the kernel, or those of a gang's groups (R276, R308). -/
def Kernel.nextOrdinal (k : Kernel) : Option Nat :=
  match k.gang with
  | none => if k.nextSeed < k.hdr.count then some k.nextSeed else none
  | some g =>
    let d := (k.hdr.extents.drop g.level).foldl (· * ·) 1
    if g.gidx.contains (k.nextSeed / d) ∧ k.nextSeed < k.hdr.count then some k.nextSeed
    else
      (sortBy id (g.gidx.filter fun x => decide (k.nextSeed / d < x))).head?.map (· * d)

/-- Whether every context of a kernel has been seeded. -/
def Kernel.seeded (k : Kernel) : Bool := k.nextOrdinal.isNone

/-! ## Kernels of a partition -/

/-- A kernel of a partition by its KID. -/
def Part.kernel? (p : Part) (kid : Nat) : Option Kernel := p.kernels.find? fun k => k.hdr.kid == kid

/-- A kernel changed in place. -/
def State.modKernel (s : State) (p kid : Nat) (f : Kernel → Kernel) : State :=
  s.modPart p fun x => { x with kernels := x.kernels.map fun k => if k.hdr.kid = kid then f k else k }

/-- A node of a kernel's tree changed in place. -/
def State.modNode (s : State) (p kid site : Nat) (f : TreeNode → TreeNode) : State :=
  s.modKernel p kid fun k => { k with nodes := k.nodes.map fun n => if n.site = site then f n else n }

/-- The requester for a kernel's own accesses: its address space at its contexts' privilege. -/
def Kernel.who (k : Kernel) (site : Nat) : Who := unitWho site k.part k.asid k.hdr.priv k.hdr.kid

/-- Predecessors after a kernel's change: MODE 2 entries that it satisfies become 3, entries of an ended kernel go (R279). -/
def Kernel.notice (k : Kernel) (kid : Nat) (done : Bool) : Kernel :=
  let preds := if done then k.hdr.preds.filter fun p => p.2 != kid || p.1 == 0
    else k.hdr.preds.map fun p => if p.1 = 2 ∧ p.2 = kid then (3, kid) else p
  { k with hdr := { k.hdr with preds := preds } }

/-- Whether every predecessor of a kernel is resolved (R279). -/
def Kernel.resolved (k : Kernel) : Bool := k.hdr.preds.all fun p => p.1 == 0 || p.1 == 3

/-- A kernel's state as R284 codes it. -/
def KState.final (ok : Bool) : Nat := if ok then 6 else 7

/-! ## The completion object (R284) -/

/-- The status word (R282). -/
def statusWord (maxcls err exits : Nat) : Nat := maxcls * 2 ^ 56 + err * 2 ^ 40 + exits % 2 ^ 40

/-- The completion object is written by the root: 24 bytes and, once they are performed, an add of 1: its release at dev (R235).  A
fault is reported with context ID 0 and the KID.  The numbers answered are those of the two writes. -/
def State.writeCompletion (s : State) (k : Kernel) (root status : Nat) (ok : Bool) : State × List Nat :=
  let w := k.who root
  let va := k.hdr.compl
  let data := leBytes 8 status ++ leBytes 2 k.hdr.kid ++ leBytes 1 (KState.final ok) ++ leBytes 5 0 ++ leBytes 8 s.gtime
  let verdict := match (if canonNat va then s.xlate w.part w.asid w.priv va (.store false false) else .error (0x04, 0x01)) with
    | .error f => Except.error f
    | .ok (s, l) => if (l.cls = 0 ∧ !l.peer) ∨ l.cls = 2 ∨ l.cls = 4 then .ok (s, l) else .error (0x05, 0x12)
  match verdict with
  | .error f => (s.report root k.part f.1 k.hdr.kid { cls := f.1, sub := f.2, kind := kStore, size := 5, faddr := W va }, [])
  | .ok (s, l) =>
    let ga := l.ga va
    let via := (s.part w.part).tslice w.asid va
    let home := s.homeOfAcc w va (.eng [] .dev) l ga
    let info : OpInfo := { cls := .other, copy := false, wenq := false, site := root, key := noKey, kid := 0, dest := none, cl := clusterOf root }
    let (t1, s) := s.newOp info
    let (t2, s) := s.newOp info
    let acc (at_ tok : Nat) (k : ReqKind) : Acc := { w := w, va := va + at_, ga := ga + at_, leaf := l, k := k, tok := tok, snooped := false }
    let s := s.send (.slice via) (.slice home) regVn (.acc (acc 0 t1 (.eng data .dev)))
    (s.send (.slice via) (.slice home) regVn (.acc (acc 24 t2 (.engAdd .dev t1))), [t1, t2])

/-! ## Slots of cores (R172, R274) -/

/-- The first free scratch window of a size in KiB on a core (R170, R274).  DEDUCED, log entry 64. -/
def Core.freeWindow (c : Core) (kib : Nat) : Option Nat :=
  let used := (c.ks.filter fun k => k.kid.isSome).map fun k => (k.winBase, k.winSize)
  let size := kib * 1024
  ((0 :: used.map fun u => u.1 + u.2).filter fun b =>
      decide (b + size ≤ 262144) && used.all fun u => decide (b + size ≤ u.1) || decide (u.1 + u.2 ≤ b) || size == 0).foldl
    (fun b x => match b with
      | none => some x
      | some y => some (min x y)) none

/-- The first run of free barriers on a core (R274).  DEDUCED, log entry 64. -/
def Core.freeBars (c : Core) (n : Nat) : Option Nat :=
  let used := (c.ks.filter fun k => k.kid.isSome).map fun k => (k.barBase, k.barShare)
  ((0 :: used.map fun u => u.1 + u.2).filter fun b =>
      decide (b + n ≤ 64) && used.all fun u => decide (b + n ≤ u.1) || decide (u.1 + u.2 ≤ b) || n == 0).foldl
    (fun b x => match b with
      | none => some x
      | some y => some (min x y)) none

/-- The lowest free kernel slot of a core.  DEDUCED, log entry 64. -/
def Core.freeSlot (c : Core) : Option Nat := c.ks.findIdx? fun k => k.kid.isNone

/-- Whether a core is eligible for a kernel (R274).  DEDUCED, log entry 64. -/
def State.eligibleCore (s : State) (p : Nat) (k : Kernel) (site : Nat) : Bool :=
  let c := s.core site
  s.enabled site && c.pos.isSome && c.life == .active && s.inPart p site && c.freeSlot.isSome &&
    (c.freeWindow k.hdr.swin).isSome && (c.freeBars k.hdr.bshare).isSome

/-- A barrier that nothing has initialised (R329). -/
def Bar.uninit : Bar :=
  { state := 0, group := false, thr := false, blk := false, loc := false, phase := 0, expa := 0, arra := 0, expb := 0, expbc := 0,
    arrb := 0, ncons := 0, lp := 0, ack0 := 0, ack1 := 0, gn := 0, gi := 0, gtab := 0, rcv0 := 0, rcv1 := 0, members := [],
    round := 0, sent := false }

/-- A host core's slot is reserved and loaded (R172, R274). -/
def State.reserveSlot (s : State) (k : Kernel) (site : Nat) : State :=
  s.modCore site fun c =>
    match c.freeSlot, c.freeWindow k.hdr.swin, c.freeBars k.hdr.bshare with
    | some i, some wb, some bb =>
      let x : KSlot :=
        { kid := some k.hdr.kid, part := k.part, s := k.hdr.s, stamps := List.replicate 8 (0, 0), answered := List.replicate 8 (0, 0), winBase := wb,
          winSize := k.hdr.swin * 1024, barBase := bb, barShare := k.hdr.bshare, widths := k.hdr.w, l1share := k.hdr.l1share,
          handles := k.templates.map fun h => (h.1, { h.2 with asid := k.asid }) }
      let bars := c.bars.filter fun b => !(decide (bb ≤ b.1) && decide (b.1 < bb + k.hdr.bshare))
      { c.setKs i x with bars := bars }
    | _, _, _ => c

/-- A kernel slot released: its stash is written back, its handles are UNDEF, its barriers and waiters are gone (R172, R280). -/
def State.releaseSlot (s : State) (part kid site : Nat) : State :=
  match (s.core site).slotOf part kid with
  | none => s
  | some i =>
    let k := (s.core site).ks.getD i KSlot.reset
    let s := k.handles.foldl (fun s h => if h.2.st = .stash then s.dropStash site h.2 else s) s
    s.modCore site fun c =>
      let mine (b : Nat) : Bool := decide (k.barBase ≤ b) && decide (b < k.barBase + k.barShare)
      { c.setKs i KSlot.reset with
        bars := c.bars.filter fun b => !mine b.1
        waiters := c.waiters.filter fun w => !mine w.b
        stash := c.stash.filter fun x => x.ks != i }

/-! ## The end of a kernel (R280–R285) -/

/-- The replay of a graph kernel that ends remembers the writes of its completion object (R289, R291). -/
def State.noteReplayEnd (s : State) (p : Nat) (k : Kernel) (toks : List Nat) : State :=
  s.modPart p fun x => { x with
    replays := x.replays.map fun r => if k.replay = some (r.obj, r.seq) then { r with pending := r.pending ++ toks } else r }

/-- A replay whose last kernel has ended: every header is launched, no kernel of it is left, and every completion object it wrote is
performed, since DONE is a release (R289, R291). -/
def State.replayOver (s : State) (p : Nat) (r : Replay) : Bool :=
  r.next == r.nk && !((s.part p).kernels.any fun k => k.replay == some (r.obj, r.seq)) &&
    !(r.pending.any fun t => (tget s.ops t).isSome)

/-- The end of a replay at its graph object: BUSY of its bank clears and DONE counts one more, once the object's line may be written
(R289, R291). -/
def State.endReplay (s : State) (p : Nat) (r : Replay) : State :=
  let site := (s.part p).sites.headD 0
  match s.readyLine (unitAcc (unitWho site p 0 2 0) r.obj r.obj (leafOf 0 0 r.obj) [] 64 true) true with
  | .wait t => t
  | .fault _ _ _ => s
  | .ok s =>
    let s := s.modPart p fun x => { x with replays := x.replays.filter fun q => !(q.obj == r.obj && q.seq == r.seq) }
    let busy := s.rdNat (r.obj + 0x30) 1
    let s := s.pokeGa p site (r.obj + 0x30) (leBytes 1 (if busy.testBit r.bank then busy - 2 ^ r.bank else busy))
    s.pokeGa p site (r.obj + 0x28) (leBytes 8 (s.rdNat (r.obj + 0x28) 8 + 1))

/-- Kernels that wait for one that has ended FAULTED end FAULTED with PF themselves, and a reservation priority goes with its holder
(R279, R280, R310); `fuel` bounds the chain.  The issuer of a gang that goes so still waits, with kind 10, until its deadline.
DESIGN CHOICE, log entry 116. -/
def State.faultDependants (fuel : Nat) (s : State) (p kid : Nat) : State :=
  match fuel with
  | 0 => s
  | fuel + 1 =>
    let hit (k : Kernel) : Bool := k.state == .queued && k.hdr.preds.any fun q => q.1 != 0 && q.2 == kid
    ((s.part p).kernels.filter hit).foldl (fun s k =>
      let s := s.modPart p fun x => { x with
        kernels := x.kernels.filter fun y => y.hdr.kid != k.hdr.kid
        reserve := if x.reserve = some k.hdr.kid then none else x.reserve }
      let (s, toks) := s.writeCompletion k (k.hosts.headD 0) (statusWord 0 4 0) false
      (s.noteReplayEnd p k toks).faultDependants fuel p k.hdr.kid) s

/-- The EXITED lines of a kernel become FREE, and so does anything of it in the continuation queues; a LOST line stays LOST
until a context is materialised in it, since R63 gives it no other end (DEDUCED, log entry 90). -/
def State.freeLines (s : State) (p kid : Nat) : State :=
  let mine (l : Line) : Bool := l.part == p && l.kid == kid && !l.away && l.life == .exited
  let mem := (s.lines.filter fun e => mine e.2).foldl (fun m e => memWrite m (e.1 * 128) e.2.bytes) s.mem
  let purge (q : Nat × List Cont) : Nat × List Cont := (q.1, q.2.filter fun r => !(r.part == p && r.kid == kid))
  let clean (c : Nat × Cluster) : Nat × Cluster := (c.1, { c.2 with conts := c.2.conts.map purge })
  { s with
    mem := mem
    lines := s.lines.filter fun e => !(mine e.2)
    clusters := s.clusters.map clean }

/-- A kernel leaves the placer, DONE or FAULTED (R280, R284): the completion object is written, host slots are released,
lines are freed, dependants are told. -/
def State.finishKernel (s : State) (p : Nat) (k : Kernel) (maxcls err exits : Nat) : State :=
  let ok := err = 0
  let kid := k.hdr.kid
  let (s, toks) := s.writeCompletion k (k.hosts.headD 0) (statusWord maxcls err exits) ok
  let s : State := k.nodes.foldl (fun s n => if n.standIn then s else s.releaseSlot p kid n.site) s
  let s := s.freeLines p kid
  let s := s.modPart p fun x => { x with
    kernels := (x.kernels.filter fun y => y.hdr.kid != kid).map fun y => if ok then y.notice kid true else y
    reserve := if x.reserve = some kid then none else x.reserve }
  let s := s.noteReplayEnd p k toks
  if ok then s else s.faultDependants 256 p kid

/-- The children of a node in the 4-ary tree (R285). -/
def childrenOf (j n : Nat) : List Nat := (List.range 4).filterMap fun i => if 4 * j + 1 + i < n then some (4 * j + 1 + i) else none

/-- A kernel that RUNS or is TRIGGERED with no live context left is DRAINING; MODE 2 dependants are resolved (R279, R280). -/
def State.drainKernels (s : State) (p : Nat) : State :=
  let x := s.part p
  let ends (k : Kernel) : Bool :=
    (k.state == .running || k.state == .triggered) && k.seeded && k.nodes.all fun n => n.live == 0
  let kids := (x.kernels.filter ends).map (·.hdr.kid)
  if kids.isEmpty then s
  else
    let turn (k : Kernel) : Kernel :=
      kids.foldl (fun k kid => k.notice kid false) (if ends k then { k with state := .draining } else k)
    s.setPart p { x with kernels := x.kernels.map turn }

/-- Step TRIGGER_MESSAGE (R281): a node whose UNTRIG is 0 and whose children have all sent one sends its trigger message; the
root makes the kernel TRIGGERED. -/
def execTriggerMessage (p kid j : Nat) (s : State) : Out :=
  match (s.part p).kernel? kid with
  | none => .next s
  | some k =>
    match k.nodes[j]? with
    | none => .next s
    | some n =>
      let ready := k.seeded && k.state != .queued && n.untrig == 0 && !n.trigSent &&
        (childrenOf j k.nodes.length).all fun i => ((k.nodes[i]?).map (·.trigSent)).getD false
      if !ready then .next s
      else
        let s := s.modNode p kid n.site fun n => { n with trigSent := true }
        if j = 0 then
          let turn (k : Kernel) : Kernel :=
            (if k.hdr.kid = kid ∧ k.state = .running then { k with state := .triggered } else k).notice kid false
          .next (s.modPart p fun x => { x with kernels := x.kernels.map turn })
        else .next s

/-- Whether everything that contexts of a kernel issued on a core is complete: its engine operations, its `wenq`s and its held
stores (R281). -/
def State.coreDone (s : State) (p kid site : Nat) : Bool :=
  !(s.ops.any fun o => o.2.site == site && o.2.kid == kid) &&
  !((s.core site).hold.any fun h => match s.line? h.who.key with
    | some l => l.part == p && l.kid == kid
    | none => false) &&
  !((s.cl (clusterOf site)).copies.any fun c => c.who.site == site && ((s.line? c.who.key).map (·.kid)) == some kid)

/-- Step DONE_MESSAGE (R281–R285): a node that has ended, with its children, sends its combined status word to its parent;
the root's ends the kernel.  Where the node's core is contained, the placer stands in for it (R283). -/
def execDoneMessage (p kid j : Nat) (s : State) : Out :=
  match (s.part p).kernel? kid with
  | none => .next s
  | some k =>
    match k.nodes[j]? with
    | none => .next s
    | some n =>
      let ended := if n.standIn then (s.core n.site).life != .containing else s.coreDone p kid n.site
      let ready := k.seeded && k.state != .queued && n.live == 0 && !n.doneSent && ended &&
        (childrenOf j k.nodes.length).all fun i => ((k.nodes[i]?).map (·.doneSent)).getD false
      if !ready then .next s
      else if j = 0 then .next (s.finishKernel p k n.maxcls n.err n.exits)
      else
        let s := s.modNode p kid n.site fun n => { n with doneSent := true }
        match k.nodes[(j - 1) / 4]? with
        | some parent =>
          .next (s.modNode p kid parent.site fun q =>
            { q with maxcls := max q.maxcls n.maxcls, err := q.err ||| n.err, exits := q.exits + n.exits })
        | none => .next s

/-- Step TRIGGER_EVENT (R281, R288): a context's trigger reaches its anchor, and counts for the kernel it ran for. -/
def execTriggerEvent (m : Nat) (s : State) : Out :=
  match s.find? m with
  | some (.trigEvent site kid part no) =>
    let s := s.drop m
    if ((s.part part).kernel? kid).map (·.no) = some no then .next (s.modNode part kid site fun n => { n with untrig := n.untrig - 1 })
    else .next s
  | _ => .next s

/-- `trig` (R288): a release at device scope; the first of a context is an event at its anchor. -/
def execTrig (g : Guard) (s : State) : Out :=
  guarded g s fun e => s.issueWait e 1 [.pwc] .trig

/-! ## Acceptance (R286, R287, R307, R308) -/

/-- Who launches: an instruction's context, or a ring or a replay for its partition. -/
structure Launcher where
  who : Who
  priv : Nat
  deriving DecidableEq, Repr

/-- What acceptance comes to: a fault with its address and KIND and SIZE, a wait, or a kernel QUEUED. -/
inductive Accepted where
  | fault (cls sub : Nat) (faddr : Word) (kind size : Nat)
  | wait (s : State)
  | queued (s : State)

/-- A permission that a header needs, tried without an access (R287). -/
structure Need where
  va : Nat
  cat : Cat
  kind : Nat

/-- The permissions of R287, in order. -/
def Header.needs (h : Header) : List Need :=
  [{ va := h.entry, cat := .fetch, kind := 1 }, { va := h.ctxbase, cat := .context, kind := kContext },
    { va := h.compl, cat := .store false false, kind := kStore }] ++
    (if h.hmask = 0 then [] else [{ va := h.htpl, cat := .record, kind := kLoad }])

/-- The permissions tried one after the other. -/
def State.tryNeeds (s : State) (part asid priv : Nat) (l : List Need) : Except (Nat × Nat × Need) State :=
  match l with
  | [] => .ok s
  | x :: rest =>
    match s.xlate part asid priv x.va x.cat with
    | .ok (s, _) => s.tryNeeds part asid priv rest
    | .error f => .error (f.1, f.2, x)

/-- The template records that HMASK names, read one after the other (R172, R270). -/
def State.templates (s : State) (w : Who) (h : Header) (ns : List Nat) : Probe (State × Option (Table Handle)) :=
  match ns with
  | [] => .ok (s, some [])
  | n :: rest =>
    match s.pull w .record (h.htpl + 32 * n) 32 with
    | .fault a b c => .fault a b c
    | .wait s => .wait s
    | .ok (s, bs) =>
      match parseRecord bs (h.swin * 1024) false with
      | none => .ok (s, none)
      | some x =>
        match s.templates w h rest with
        | .ok (s, some t) => .ok (s, some (tset t n x))
        | r => r

/-- A header is accepted or refused, in the order of R287; `at_` is the header's address.  The permissions of row 4 are tried at the
header's PRIV, and the template records are read here, once.  DEDUCED, log entry 65; DESIGN CHOICE, log entry 115; DESIGN CHOICE,
log entry 117. -/
def State.acceptHeader (s : State) (by_ : Launcher) (at_ : Word) (bs : List Byte) (gang : Option Gang) (replay : Option (Nat × Nat)) :
    Accepted :=
  let h := parseHeader bs
  let p := by_.who.part
  let x := s.part p
  let asid := if h.asid = 0 then by_.who.asid else h.asid
  if !headerOk bs then .fault 0x0A 0x10 at_ kLoad 8
  else if (x.kernel? h.kid).isSome then .fault 0x0A 0x11 at_ kLoad 8
  else if by_.priv < h.priv ∨ (asid ≠ by_.who.asid ∧ by_.priv < 2) then .fault 0x02 0x00 by_.who.pc 0 0xF
  else
    match s.tryNeeds p asid h.priv h.needs with
    | .error (c, b, n) => .fault c b (W n.va) n.kind 0xF
    | .ok s =>
      let w := unitWho by_.who.site p asid h.priv h.kid
      match s.templates w h ((List.range 64).filter fun n => h.hmask.testBit n) with
      | .fault a b c => .fault a b (W c) kLoad 5
      | .wait s => .wait s
      | .ok (_, none) => .fault 0x0A 0x10 at_ kLoad 8
      | .ok (s, some t) =>
        if 256 ≤ (s.part p).kernels.length then .wait s
        else
          let live (kid : Nat) : Option Kernel := (s.part p).kernel? kid
          let preds := h.preds.filterMap fun q =>
            if q.1 = 0 then none
            else match live q.2 with
              | none => none
              | some k => if q.1 = 2 ∧ (k.state = .triggered ∨ k.state = .draining) then some (3, q.2) else some q
          let k : Kernel :=
            { hdr := { h with preds := preds, asid := asid }, no := s.nextId, state := .queued, part := p, asid := asid, since := s.gtime, templates := t,
              hosts := [], nodes := [], nextSeed := 0, gang := gang, replay := replay, ending := false }
          .queued (({ s with nextId := s.nextId + 1 } : State).modPart p fun x => { x with kernels := x.kernels ++ [k] })

/-- Whether a list names no number twice. -/
def distinct (l : List Nat) : Bool :=
  match l with
  | [] => true
  | x :: rest => !rest.contains x && distinct rest

/-- The rectangles of a shape on the dies, in the order in which the placer tries them (R309). -/
def rectangles (shw shh : Nat) : List (List Nat) :=
  (List.range 4).flatMap fun die => (List.range (33 - shh)).flatMap fun y0 => (List.range (33 - shw)).map fun x0 =>
    (List.range (shw * shh)).map fun i => siteNo die (x0 + i % shw) (y0 + i / shw)

/-- A gang record parsed and checked (R307, R308): the header's address and the gang.  DEDUCED, log entry 65. -/
def parseGang (bs : List Byte) : Option (Nat × Gang) :=
  let f := leField bs
  let ng := f 0x0B 1
  let idx := (List.range 16).map fun i => f (0x10 + 2 * i) 2
  let ok := f 0 8 % 256 == 0 && decide (1 ≤ f 8 1) && decide (f 8 1 ≤ 6) && decide (1 ≤ f 9 1) && decide (f 9 1 ≤ 16) &&
    decide (1 ≤ f 0x0A 1) && decide (f 0x0A 1 ≤ 16) && decide (1 ≤ ng) && decide (ng ≤ 16) && ng == f 9 1 * f 0x0A 1 &&
    f 0x0C 4 == 0 && leNat (bs.drop 0x30) == 0 && (idx.drop ng).all (· == 0) && distinct (idx.take ng)
  if ok then some (f 0 8, { level := f 8 1, shw := f 9 1, shh := f 0x0A 1, gidx := idx.take ng, who := none, passed := false }) else none

/-- A gang record is accepted or refused: its own checks, then those of its header (R308).  DEDUCED, log entry 65. -/
def State.acceptGang (s : State) (by_ : Launcher) (at_ : Word) (rec_ : List Byte) (who : Option Who) : Accepted :=
  match parseGang rec_ with
  | none => .fault 0x0A 0x22 at_ kLoad 6
  | some (hdr, g) =>
    match s.pull by_.who .record hdr 256 with
    | .fault a b c => .fault a b (W c) kLoad 8
    | .wait s => .wait s
    | .ok (s, bs) =>
      let h := parseHeader bs
      let groups := (h.extents.take g.level).foldl (· * ·) 1
      if !headerOk bs then .fault 0x0A 0x10 (W hdr) kLoad 8
      else if g.gidx.any fun i => decide (groups ≤ i) then .fault 0x0A 0x22 at_ kLoad 6
      else if !((rectangles g.shw g.shh).any fun r => r.all fun c => s.enabled c && s.inPart by_.who.part c) then
        .fault 0x0A 0x23 at_ kLoad 6
      else s.acceptHeader by_ (W hdr) bs (some { g with who := who }) none

/-- Step LAUNCH_ACCEPT (R287, R308): the placer reads a header or a gang record and accepts or refuses it; a full table keeps
the context waiting. -/
def execLaunchAccept (m : Nat) (s : State) : Out :=
  homeArrival m s
    (fun a => a.k == .launch || a.k == .gang)
    fun s₀ sl a =>
      let by_ : Launcher := { who := a.w, priv := a.w.priv }
      let gang := a.k == .gang
      let (s, bs) := (s₀.drop m).homeRead a.w.site a a.k.span
      match (if gang then s.acceptGang by_ (W a.va) bs (some a.w) else s.acceptHeader by_ (W a.va) bs none none) with
      | .fault c b f kind size =>
        (s₀.drop m).answerFault (.slice sl) a.w { cls := c, sub := b, kind := kind, size := size, faddr := f } false false 0 none false
      | .wait s => { s with net := s₀.net ++ s.net.filter fun y => decide (s₀.nextId ≤ y.id) }
      | .queued s =>
        if gang then
          if s.answers a.w then
            s.modLine a.w.key fun l => { l with wt := mkWt 10 0, waitFrom := s.gtime, pend := none }
          else s
        else s.reply sl a.w Answer.none

/-- `launch [ra]` (R287). -/
def execLaunch (g : Guard) (a : Reg) (s : State) : Out :=
  guarded g s fun e =>
    match eaFault kLoad 256 (e.reg a) with
    | some f => s.raise e f
    | none =>
      let e := e.trace s.gtime 3 (e.reg a).toNat
      s.issueWait (e.at (e.reg a).toNat .launch) 1 [.pwc] (.send (e.reg a).toNat .launch)

/-- `gang [ra]` (R308). -/
def execGang (g : Guard) (a : Reg) (s : State) : Out :=
  guarded g s fun e =>
    match eaFault kLoad 64 (e.reg a) with
    | some f => s.raise e f
    | none =>
      let e := e.trace s.gtime 3 (e.reg a).toNat
      s.issueWait (e.at (e.reg a).toNat .gang) 1 [.pwc] (.send (e.reg a).toNat .gang)

end Sys2Proof.Machine
end

