-- ==== Sys2Proof/Machine/Place.lean ====
section
/-! DEFINITION. The placer (R273–R276, R294, R307–R310), continuation queues as places for records (R297, R321), graphs and
launch rings (R289–R291, R317–R320). -/

namespace Sys2Proof.Machine

/-! ## Materialising a line (R63, R278, R313) -/

/-- A context L2 holds 8,192 lines (R14). -/
def l2Size : Nat := 8192
/-- A context L1 holds 64 lines (R66). -/
def l1Size : Nat := 64

/-- The lines that live in a place. -/
def State.linesIn (s : State) (p : Place) : List (Nat × Line) := s.lines.filter fun e => e.2.place == p && e.2.life != .lost

/-- The address of a record of the context arena (R278). -/
def Header.record (h : Header) (i : Nat) : Nat := h.ctxbase + 768 * i

/-- The initial thread status word (R276, R298). -/
def Header.tsw (h : Header) : Word := W (h.priv + b2n h.mx * 4 + h.dlx * 2 ^ 16)

/-- The initial SPACE word of a kernel's contexts (R276). -/
def Kernel.space (k : Kernel) : Word := W (k.asid + k.part * 2 ^ 16 + k.hdr.kid * 2 ^ 24 + k.hdr.prio * 2 ^ 40)

/-- What a new context is given. -/
structure Birth where
  pc : Word
  wid : Word
  link : Word
  anchor : Nat
  trg : Bool
  bindCode : Nat
  bindUnit : Nat
  place : Place
  seeded : Bool
  /-- The core that writes the line (R276, R298). -/
  by_ : Nat
  deriving DecidableEq, Repr

/-- A line is materialised in a record of the context arena, with its mailbox header; its first instruction acquires what its launcher
and its predecessors released (R63, R235, R313).
DESIGN CHOICE, log entry 13; DEDUCED, log entry 90. -/
def State.materialise (s : State) (k : Kernel) (i : Nat) (b : Birth) : Probe State :=
  let va := k.hdr.record i
  let w := k.who b.by_
  match s.probe w .context va 128 true with
  | .fault x y z => .fault x y z
  | .wait s => .wait s
  | .ok s =>
    match s.probe w .context (va + 128) 64 true with
    | .fault x y z => .fault x y z
    | .wait s => .wait s
    | .ok s =>
      let (s, leaf) := s.leafAt w .context va
      let key := leaf.ga va / 128
      let s : State := [2 * key, 2 * key + 1].foldl (fun s g => ((s.recallStashes g none true).recallOwned g none).dropVisitors g) s
      let s := s.poke w .context (va + 128) (leBytes 8 (va + 256) ++ leBytes 1 4 ++ leBytes 1 1 ++ List.replicate 54 0#8)
      let s := match s.line? key with
        | some l => match l.place, l.bound with
          | .l1 c, some n => s.unbind c n false
          | _, _ => s
        | none => s
      let old := s.rd (key * 128) 128
      let line : Line := { Line.blank with
        pc := b.pc, wid := b.wid, pw := 1#32, tsw := k.hdr.tsw, cause := W (leField old 96 8), faddr := W (leField old 104 8),
        link := b.link, space := k.space, cid := va / 128, gen := s.nextId, place := b.place, stamp := s.gtime, agedFrom := s.gtime,
        anchor := some b.anchor, trg := b.trg, seeded := b.seeded, bindCode := b.bindCode, bindUnit := b.bindUnit,
        lastCl := clusterOf b.by_, acqTo := s.nextId }
      .ok ({ s with nextId := s.nextId + 1 }.setLine key line)

/-- A context is counted at its anchor (R277, R281). -/
def State.countIn (s : State) (p kid anchor : Nat) (trg : Bool) : State :=
  s.modNode p kid anchor fun n =>
    if n.standIn then n else { n with live := n.live + 1, untrig := n.untrig + b2n (!trg) }

/-- A context that could not be created counts at its anchor as one that became LOST, and the fault is reported with context
ID 0 and the KID, by the core or placer site that met it (R276, R298).  Its class enters the anchor's MAXCLS.  DEDUCED, log entry 61;
DESIGN CHOICE, log entry 113. -/
def State.birthFault (s : State) (k : Kernel) (anchor site cls sub va : Nat) : State :=
  (s.modNode k.part k.hdr.kid anchor fun n =>
      if n.standIn then n else { n with err := n.err ||| 1, maxcls := max n.maxcls cls }).report site k.part cls k.hdr.kid
    { cls := cls, sub := sub, kind := kContext, size := 7, faddr := W va }

/-! ## Continuation queues (R296, R297, R321) -/

/-- Entries of a level kept on-chip (R321). -/
def contChip : Nat := 32

/-- The exponent of the spill region; 0 for none (R321, R383). -/
def Part.spillK (p : Part) : Nat :=
  if wfld p.ctqbase 12 42 = 0 then 0 else min 16 (max 6 (wfld p.ctqbase 0 5))

/-- The entries a level of a cluster holds (R321). -/
def Part.contCap (p : Part) : Nat := contChip + (if p.spillK = 0 then 0 else 2 ^ p.spillK)

/-- A level of a cluster's continuation queue. -/
def Cluster.level (c : Cluster) (lvl : Nat) : List Cont := tgetD c.conts lvl []

/-- Whether a level has an entry free for a resume record or a stolen one. -/
def State.contFree (s : State) (cl lvl : Nat) : Bool :=
  decide (((s.cl cl).level lvl).length < (s.part (s.partOfCl cl)).contCap)

/-- Whether a `fork` finds room: 16 entries free without a spill region, 64 with one (R321).  DEDUCED, log entry 66. -/
def State.forkRoom (s : State) (cl lvl : Nat) : Bool :=
  let p := s.part (s.partOfCl cl)
  decide (((s.cl cl).level lvl).length + (if p.spillK = 0 then 16 else 64) ≤ p.contCap)

/-- The 32 bytes of a continuation record (R296). -/
def Cont.bytes (r : Cont) : List Byte :=
  leBytes 8 (b2n r.resume * 2 ^ 63 + r.tgt) ++ leBytes 8 r.fp ++ leBytes 8 r.ja ++ leBytes 8 r.wid.toNat

/-- The 64 bytes of a continuation entry (R321). -/
def State.contEntry (s : State) (r : Cont) : List Byte :=
  r.bytes ++ leBytes 2 r.kid ++ leBytes 2 (s.logical r.anchor) ++ leBytes 1 (b2n r.trg) ++ List.replicate 27 0#8

/-- The address of an entry of the spill region: clusters in increasing number, four levels each (R321).
DESIGN CHOICE, log entry 66. -/
def Part.spillAt (p : Part) (cl lvl slot : Nat) : Nat :=
  wfld p.ctqbase 12 42 * 4096 + 64 * (((p.clusters.findIdx? (· == cl)).getD 0 * 4 + lvl) * 2 ^ p.spillK + slot)

/-- An entry of a spill region written; it translates in `$sasid`, and a fault there is a fault of context ID 0 for descriptor 0
(R321, R384). -/
def State.spillCont (s : State) (p cl lvl slot : Nat) (r : Cont) : State :=
  let va := (s.part p).spillAt cl lvl slot
  let w := unitWho (siteOf cl 0) p (wfld (s.part p).sasid 0 16) 2 0
  let bytes := s.contEntry r
  match s.probe w (.store false false) va 64 true with
  | .ok s | .wait s => s.poke w (.store false false) va bytes
  | .fault cls sub at_ => s.report (siteOf cl 0) p 0 0 { cls := cls, sub := sub, kind := kStore, size := 6, faddr := W at_ }

/-- A record as the 64 bytes of its entry hold it. -/
def State.parseEntry (s : State) (r : Cont) (bs : List Byte) : Cont :=
  { r with
    resume := (leNat (bs.take 8)).testBit 63, tgt := fld (leNat (bs.take 8)) 0 63, fp := leField bs 8 8, ja := leField bs 16 8,
    wid := W (leField bs 24 8), kid := leField bs 32 2, anchor := (s.siteOfLogical (leField bs 34 2)).getD r.anchor,
    trg := (leField bs 36 1).testBit 0 }

/-- A record that comes on-chip: a spilled one is read from its entry, which translates in `$sasid`, and a fault there is a fault of context
ID 0 for descriptor 0 (R321, R384).  DEDUCED, log entry 66. -/
def State.unspill (s : State) (p cl lvl : Nat) (r : Cont) : State × Cont :=
  match r.slot with
  | none => (s, r)
  | some i =>
    let va := (s.part p).spillAt cl lvl i
    let w := unitWho (siteOf cl 0) p (wfld (s.part p).sasid 0 16) 2 0
    match s.probe w (.load false) va 64 false with
    | .ok s | .wait s =>
      let (s, bs) := s.readLines w (.load false) (linesOf va 64)
      (s, { s.parseEntry r bs with slot := none })
    | .fault cls sub at_ =>
      (s.report (siteOf cl 0) p 0 0 { cls := cls, sub := sub, kind := kLoad, size := 6, faddr := W at_ }, { r with slot := none })

/-- A record at the tail of a level: on-chip, or beyond 32 entries in a free entry of the spill region (R321). -/
def State.pushCont (s : State) (cl lvl : Nat) (r : Cont) : State :=
  let p := s.partOfCl cl
  let q := (s.cl cl).level lvl
  let slot := if contChip ≤ q.length ∧ (s.part p).spillK ≠ 0 then
      (List.range (2 ^ (s.part p).spillK)).find? fun i => !(q.any fun x => x.slot == some i)
    else none
  let s := match slot with
    | some i => s.spillCont p cl lvl i r
    | none => s
  s.modCl cl fun c => { c with conts := tset c.conts lvl (c.level lvl ++ [{ r with slot := slot }]) }

/-- Whether a binding admits a core (R272). -/
def bindAdmits (code unit_ site : Nat) : Bool := code == 0 || code == 1 || unitOf code site == unit_
/-- Whether a binding admits some core of a cluster. -/
def bindAdmitsCl (code unit_ cl : Nat) : Bool :=
  match code with
  | 2 => dieOfCl cl == unit_
  | 3 => cl == unit_
  | 4 => clusterOf unit_ == cl
  | _ => true

/-! ## Placing kernels (R273–R276) -/

/-- Whether a kernel is a gang that stays at the head of its priority (R310). -/
def Kernel.heads (k : Kernel) : Bool := (k.gang.map (·.passed)).getD false

/-- The kernels that may be placed, by priority: gangs that could not be placed, and then the others in acceptance order, in turn after
the last one placed of that priority (R273, R310). -/
def Part.placeable (p : Part) : List Kernel :=
  let ks := p.kernels.filter fun k => k.state == .queued && k.resolved && !k.ending
  (List.range 16).flatMap fun n =>
    let l := ks.filter fun k => k.hdr.prio == 15 - n
    let last := tgetD p.placerAt (15 - n) 0
    (l.filter fun k => k.heads) ++ (l.filter fun k => !k.heads && decide (last < k.no)) ++
      l.filter fun k => !k.heads && decide (k.no ≤ last)

/-- A kernel has been placed: its priority's turn goes on after it, and gangs of its priority that were tried before it stay at the
head (R273, R310). -/
def Part.placed (p : Part) (k : Kernel) : Part :=
  let before := (p.placeable.takeWhile fun x => x.no != k.no).filter fun x => x.hdr.prio == k.hdr.prio
  { p with
    placerAt := if k.heads then p.placerAt else tset p.placerAt k.hdr.prio k.no
    kernels := p.kernels.map fun x =>
      if before.any fun y => y.no == x.no then { x with gang := x.gang.map fun g => { g with passed := true } } else x }

/-- The enabled cores of a partition in increasing logical number, from one on and wrapping (R274). -/
def State.scan (s : State) (p : Nat) : List Nat :=
  let cores := (s.part p).sites.filter fun c => s.enabled c && (s.core c).pos.isSome
  let l := sortBy s.logical cores
  match (s.part p).lastTaken with
  | none => l
  | some n => (l.filter fun c => decide (n < s.logical c)) ++ (l.filter fun c => decide (s.logical c ≤ n))

/-- The rectangles of a gang whose cores are all enabled cores of the partition. -/
def State.rects (s : State) (p : Nat) (g : Gang) : List (List Nat) :=
  (rectangles g.shw g.shh).filter fun r => r.all fun c => s.enabled c && s.inPart p c

/-- The cores that the holder of reservation priority claims (R310). -/
def State.claimed (s : State) (p : Nat) : Option (Kernel × List Nat) :=
  match (s.part p).reserve with
  | none => none
  | some kid =>
    match (s.part p).kernel? kid with
    | none => none
    | some h =>
      if h.state != .queued then none
      else
        match h.gang with
        | some g => some (h, (s.rects p g).headD [])
        | none => some (h, (s.scan p).take 1)

/-- Whether a kernel may take a core: eligible, and not claimed by a kernel of equal or higher priority (R274, R310). -/
def State.mayTake (s : State) (p : Nat) (k : Kernel) (site : Nat) : Bool :=
  s.eligibleCore p k site && match s.claimed p with
    | none => true
    | some (h, cores) => h.hdr.kid == k.hdr.kid || decide (h.hdr.prio < k.hdr.prio) || !cores.contains site

/-- The host set a kernel would take now; empty when it cannot be placed (R274, R309). -/
def State.hostSet (s : State) (p : Nat) (k : Kernel) : List Nat :=
  match k.gang with
  | some g => ((s.rects p g).find? fun r => r.all fun c => s.mayTake p k c).getD []
  | none =>
    let l := (s.scan p).filter fun c => s.mayTake p k c
    if k.hdr.hostmax = 0 then l else l.take k.hdr.hostmax

/-- The kernel that the placer's turn places (R273). -/
def State.nextPlaced (s : State) (p : Nat) : Option (Kernel × List Nat) :=
  (s.part p).placeable.findSome? fun k =>
    let h := s.hostSet p k
    if h.isEmpty then none else some (k, h)

/-- The arena header of the cactus stack, written while the kernel is PLACING (R294); a fault there is met by the first
`fork` (R287).  DEDUCED, log entry 64. -/
def State.writeArena (s : State) (k : Kernel) (root : Nat) : Probe State :=
  if k.hdr.framesize < 64 then .ok s
  else
    let w := k.who root
    match s.probe w (.store false false) k.hdr.framebase 64 true with
    | .fault _ _ _ => .ok s
    | .wait s => .wait s
    | .ok s => .ok (s.poke w (.store false false) k.hdr.framebase
        (leBytes 8 0 ++ leBytes 8 (k.hdr.framebase + 64) ++ leBytes 8 0 ++ leBytes 4 k.hdr.count ++ List.replicate 36 0#8))

/-- A node of a new tree. -/
def TreeNode.new (site : Nat) : TreeNode :=
  { site := site, live := 0, untrig := 0, maxcls := 0, err := 0, exits := 0, trigSent := false, doneSent := false, standIn := false }

/-- A kernel is placed on its host set in one step; the grant of a gang follows its seeding (R274, R280, R285, R309). -/
def State.placeOn (s : State) (p : Nat) (k : Kernel) (taken : List Nat) : State :=
  let hosts := if k.gang.isSome then taken else sortBy s.logical taken
  match s.writeArena k (hosts.headD 0) with
  | .wait s => s
  | .fault _ _ _ => s
  | .ok s =>
    let s := hosts.foldl (fun s c => s.reserveSlot k c) s
    let s := s.modPart p fun x => { x.placed k with
      lastTaken := if k.gang.isSome then x.lastTaken else (taken.getLast?.map s.logical).or x.lastTaken
      reserve := if x.reserve = some k.hdr.kid then none else x.reserve }
    s.modKernel p k.hdr.kid fun k => { k with state := .running, hosts := hosts, nodes := hosts.map TreeNode.new }

/-- Step PLACE_KERNEL (R273, R274). -/
def execPlaceKernel (p : Nat) (s : State) : Out :=
  match s.nextPlaced p with
  | some (k, h) => if k.gang.isNone && !s.stopped p then .next (s.placeOn p k h) else .next s
  | none => .next s

/-- Step GANG_PLACE (R309). -/
def execGangPlace (p : Nat) (s : State) : Out :=
  match s.nextPlaced p with
  | some (k, h) => if k.gang.isSome && !s.stopped p then .next (s.placeOn p k h) else .next s
  | none => .next s

/-- Step RESERVATION_PRIORITY (R273, R310): of the placeable kernels and gangs that have waited 50 µs, the one of highest
priority, oldest first, holds reservation priority. -/
def execReservationPriority (p : Nat) (s : State) : Out :=
  let x := s.part p
  let late := x.kernels.filter fun k => k.state == .queued && k.resolved && decide (k.since + 50000 ≤ s.gtime)
  let best : Option Kernel := late.foldl (fun b k => match b with
    | none => some k
    | some y => if y.hdr.prio < k.hdr.prio then some k else b) none
  match best with
  | some k => .next (s.setPart p { x with reserve := some k.hdr.kid })
  | none => .next s

/-- Step GANG_GRANT (R309): the issuer of a gang that is placed goes on. -/
def execGangGrant (m : Nat) (s : State) : Out :=
  match s.find? m with
  | some (.gangGrant key) =>
    let s := s.drop m
    match s.line? key with
    | some l => if l.life == .live && l.wtKind == 10 then .next (s.makeReady key) else .next s
    | none => .next s
  | _ => .next s

/-- A wait that ends at its deadline (R69): the instruction is not committed. -/
def State.deadline (s : State) (key : Nat) (l : Line) (cls kind size : Nat) (faddr : Word) : State :=
  let site := match l.place with
    | .l1 c => c
    | .l2 _ | .mem => ((l.pend.map (·.who.site)).or l.anchor).getD 0
  s.faultLine key site true false false l.ienc l.ilen (some l.ipc) { cls := cls, sub := 0x7F, kind := kind, size := size, faddr := faddr } none

/-- Step GANG_WITHDRAW (R308): a deadline reaches the placer: a gang not yet placed is withdrawn and its issuer faults; after
the grant it is ignored. -/
def execGangWithdraw (m : Nat) (s : State) : Out :=
  match s.find? m with
  | some (.gangWithdraw key kid part) =>
    let s := s.drop m
    match (s.part part).kernel? kid, s.line? key with
    | some k, some l =>
      if k.state == .queued && ((k.gang.bind (·.who)).map (·.key)) == some key && l.wtKind == 10 then
        let s := s.modPart part fun x => { x with
          kernels := x.kernels.filter fun y => y.hdr.kid != kid
          reserve := if x.reserve = some kid then none else x.reserve }
        .next (s.deadline key l 0x0A kQueue 0xF l.waitAddr)
      else .next s
    | _, _ => .next s
  | _ => .next s

/-- The grant of a gang whose contexts are all seeded (R309). -/
def State.grantGang (s : State) (p kid : Nat) : State :=
  match (s.part p).kernel? kid with
  | some k =>
    match k.gang.bind (·.who) with
    | some w => if k.seeded then s.send (.placer p) (.line w.key) vnReply (.gangGrant w.key) else s
    | none => s
  | none => s

/-- Step SEED_CONTEXT (R276): the next context of a running kernel becomes a line, or, with SEED, a continuation record, which may
take the entries that `fork` may not; the last one of a gang brings the gang's grant (R309).  DESIGN CHOICE, log entry 114. -/
def execSeedContext (p kid : Nat) (s : State) : Out :=
  match (s.part p).kernel? kid with
  | none => .next s
  | some k =>
    if k.state = .queued ∨ k.state = .placing ∨ s.stopped p then .next s
    else
      match k.nextOrdinal with
      | none => .next s
      | some i =>
        let (anchor, code, u) := k.anchorOf i
        let wid := W (widOf k.hdr.w (tupleOf k.hdr.extents i))
        let cl := clusterOf anchor
        let next (s : State) : State := (s.modKernel p kid fun k => { k with nextSeed := i + 1 }).grantGang p kid
        if k.hdr.seed then
          let lvl := k.hdr.prio / 4
          if s.contFree cl lvl then
            let r : Cont := { resume := false, tgt := k.hdr.entry, fp := 0, ja := 0, wid := wid, kid := kid, part := p,
                              anchor := anchor, trg := false, since := s.gtime, bindCode := code, bindUnit := u, slot := none }
            .next (next ((s.countIn p kid anchor false).pushCont cl lvl r))
          else .next s
        else
          let place : Place := if (s.linesIn (.l2 cl)).length < l2Size then .l2 cl else .mem
          let b : Birth := { pc := W k.hdr.entry, wid := wid, link := 0#64, anchor := anchor, by_ := anchor, trg := false,
                             bindCode := code, bindUnit := u, place := place, seeded := true }
          match s.materialise k i b with
          | .ok s => .next (next (s.countIn p kid anchor false))
          | .wait s => .next s
          | .fault x y z => .next (next (s.birthFault k anchor anchor x y z))

/-! ## Graphs (R289–R291) -/

/-- What a `grun` comes to. -/
inductive GrunEnd where
  | fault (cls sub : Nat) (faddr : Word) (kind size : Nat)
  | wait (s : State)
  | refused
  | queued (s : State)

/-- The pairs of a patch list, read and checked one after the other; a bad one ends the reading (R290). -/
def State.grunPairs (s : State) (w : Who) (patch nk : Nat) (is : List Nat) : Probe (State × Option (List (Nat × Nat))) :=
  match is with
  | [] => .ok (s, some [])
  | i :: rest =>
    match s.pull w (.load false) (patch + 8 + 16 * i) 16 with
    | .fault a b c => .fault a b c
    | .wait s => .wait s
    | .ok (s, bs) =>
      let x := (leField bs 0 8, leField bs 8 8)
      if 2 ^ 16 ≤ x.1 ∨ x.1 % 8 ≠ 0 ∨ nk * 256 ≤ x.1 then .ok (s, none)
      else
        match s.grunPairs w patch nk rest with
        | .ok (s, some l) => .ok (s, some (x :: l))
        | r => r

/-- `grun` at the graph object's home (R290): all its checks and reads first, then the bank, in one step. -/
def State.applyGrun (s : State) (w : Who) (objVa objGa patch : Nat) : GrunEnd :=
  let o := s.rd objGa 64
  let gid := leField o 0 2
  let nk := leField o 2 1
  let tpl := leField o 8 8
  let seq := leField o 0x20 8
  let busy := leField o 0x30 1
  let bank := leField o (if seq % 2 = 0 then 0x10 else 0x18) 8
  if gid = 0 ∨ nk = 0 ∨ 32 < nk ∨ leField o 3 5 ≠ 0 ∨ leNat (o.drop 0x31) ≠ 0 then
    .fault 0x0A 0x12 (W objVa) kLoad 6
  else
    match s.pullWord w (.load false) patch with
    | .fault a b c => .fault a b (W c) kLoad 3
    | .wait s => .wait s
    | .ok (s, n) =>
      if 64 < n then .fault 0x0A 0x13 (W patch) kLoad 3
      else
        match s.grunPairs w patch nk (List.range n) with
        | .fault a b c => .fault a b (W c) kLoad 3
        | .wait s => .wait s
        | .ok (_, none) => .fault 0x0A 0x13 (W patch) kLoad 3
        | .ok (s, some pairs) =>
          if busy.testBit (seq % 2) then .refused
          else
            match s.pull w (.load false) tpl (nk * 256) with
            | .fault a b c => .fault a b (W c) kLoad 8
            | .wait s => .wait s
            | .ok (s, t) =>
              match s.probe w (.store false false) bank (nk * 256) true with
              | .fault a b c => .fault a b (W c) kStore 8
              | .wait s => .wait s
              | .ok s =>
                let data := pairs.foldl (fun d x => patchBytes d x.1 (leBytes 8 x.2)) t
                let s := s.poke w (.store false false) bank data
                let s := s.pokeGa w.part w.site (objGa + 0x20) (leBytes 8 ((seq + 1) % 2 ^ 64))
                let s := s.pokeGa w.part w.site (objGa + 0x30) (leBytes 1 (busy ||| 2 ^ (seq % 2)))
                let r : Replay := { obj := objGa, seq := seq, bank := seq % 2, bankVa := bank, nk := nk, asid := w.asid,
                                    priv := w.priv, next := 0, pending := [] }
                .queued (s.modPart w.part fun x => { x with replays := x.replays ++ [r] })

/-- Step GRUN_APPLY (R290). -/
def execGrunApply (m : Nat) (s : State) : Out :=
  homeArrival m s
    (fun a => match a.k with
      | .grun _ => true
      | _ => false)
    fun s₀ sl a =>
      match a.k with
      | .grun patch =>
        match (s₀.drop m).applyGrun a.w a.va a.ga patch with
        | .fault c b f kind size =>
          (s₀.drop m).answerFault (.slice sl) a.w { cls := c, sub := b, kind := kind, size := size, faddr := f } false false 0 none false
        | .wait s => { s with net := s₀.net ++ s.net.filter fun y => decide (s₀.nextId ≤ y.id) }
        | .refused => (s₀.drop m).reply sl a.w (Answer.p false)
        | .queued s => s.reply sl a.w (Answer.p true)
      | _ => s₀

/-- `grun ra, [rb]` (R290): a release at device scope. -/
def execGrun (g : Guard) (a b : Reg) (s : State) : Out :=
  guarded g s fun e =>
    match (eaFault kLoad 64 (e.reg a)).or (eaFault kLoad 8 (e.reg b)) with
    | some f => s.raise e f
    | none =>
      let e := e.trace s.gtime 3 (e.reg a).toNat
      s.issueWait (e.at (e.reg a).toNat (.grun 0)) 1 [.pwc] (.send (e.reg a).toNat (.grun (e.reg b).toNat))

/-- The replay whose next header the placer launches: replays of one graph run in order (R291). -/
def Part.nextReplay (p : Part) : Option Replay :=
  p.replays.find? fun r => decide (r.next < r.nk) && !(p.replays.any fun q => q.obj == r.obj && decide (q.seq < r.seq))

/-- A header that R287 refuses at replay ends its kernel FAULTED with the fault's class in MAXCLS; its completion object is written
where the header could be read and names one as R269 has it.  No kernel waits for it: one that names its KID as predecessor has found
it ended, or waits for another kernel that holds the KID (R279, R291).  DEDUCED, log entry 87. -/
def State.replayRefused (s : State) (p : Nat) (r : Replay) (bs : Option (List Byte)) (cls : Nat) : State :=
  match bs with
  | none => s
  | some bs =>
  let h := parseHeader bs
  let asid := if h.asid = 0 then r.asid else h.asid
  let k : Kernel :=
    { hdr := { h with asid := asid }, no := 0, state := .faulted, part := p, asid := asid, since := 0, templates := [], hosts := [], nodes := [],
      nextSeed := 0, gang := none, replay := some (r.obj, r.seq), ending := false }
  let root := (s.part p).sites.headD 0
  if h.compl % 32 = 0 then
    let (s, toks) := s.writeCompletion { k with hosts := [root] } root (statusWord cls 0 0) false
    s.noteReplayEnd p k toks
  else s

/-- Step GRAPH_REPLAY (R291): a replay that is over leaves its object, or the next header of a replay is launched as `launch` does.
DEDUCED, log entry 87. -/
def execGraphReplay (p : Nat) (s : State) : Out :=
  match (s.part p).replays.find? (s.replayOver p), (s.part p).nextReplay with
  | some r, _ => .next (s.endReplay p r)
  | none, none => .next s
  | none, some r =>
    if s.stopped p then .next s else
    let w := unitWho ((s.part p).sites.headD 0) p r.asid r.priv 0
    let va := r.bankVa + 256 * r.next
    let step (s : State) : State := s.modPart p fun x =>
      { x with replays := x.replays.map fun q => if q.obj = r.obj ∧ q.seq = r.seq then { q with next := q.next + 1 } else q }
    match eaFault kLoad 256 (W va) with
    | some f => .next ((step s).replayRefused p r none f.cls)
    | none =>
    match s.pull w .record va 256 with
    | .wait s => .next s
    | .fault c _ _ => .next ((step s).replayRefused p r none c)
    | .ok (s, bs) =>
      match s.acceptHeader { who := w, priv := r.priv } (W va) bs none (some (r.obj, r.seq)) with
      | .fault c _ _ _ _ => .next ((step s).replayRefused p r (some bs) c)
      | .wait s => .next s
      | .queued s => .next (step s)

/-! ## Launch rings (R317–R320) -/

/-- A ring of a partition changed in place. -/
def State.modRing (s : State) (p k : Nat) (f : Ring → Ring) : State :=
  s.modPart p fun x => { x with rings := tset x.rings k (f (x.ring k)) }

/-- An error of a packet is recorded in RSTAT and counted (R319); its cause bit is set (R359). -/
def Ring.error (r : Ring) (cls sub : Nat) : Ring :=
  { r with rstat := (sub * 256 + cls) * 256 + min 31 (fld r.rstat 3 5 + 1) * 8 + r.rstat % 8 }

/-- The packet at a ring's read index, once its line may be read (R318).  DEDUCED, log entry 83. -/
def State.ringEntry (s : State) (p k : Nat) : Probe (State × List Byte) :=
  let r := (s.part p).ring k
  let pa := r.rbase + 64 * (r.ridx % 2 ^ r.n)
  let host := r.rctl.testBit 30
  let l : Leaf := { leafOf 0 0 0 with pa := pa / 4096 * 4096, cls := if host then 4 else 0 }
  let w := unitWho ((s.part p).sites.headD 0) p r.rasid 2 0
  let a := unitAcc w pa (l.ga pa) l [] 64 false
  match s.readyLine a false with
  | .ok s => .ok (s.homeRead w.site a 64)
  | .wait s => .wait s
  | .fault a b c => .fault a b c

/-- Step RING_CONSUME (R318, R319): the placer consumes the next packet of an enabled ring, or finds the ring OVERRUN.
DEDUCED, log entry 83. -/
def execRingConsume (p k : Nat) (s : State) : Out :=
  let r := (s.part p).ring k
  if !r.rctl.testBit 28 ∨ r.d = 0 ∨ r.overrun ∨ s.stopped p then .next s
  else if 2 ^ r.n < r.d then
    .next ((s.modRing p k fun r => { r with rstat := r.rstat / 8 * 8 + 3 }).causeBit p k)
  else
    match s.ringEntry p k with
    | .wait s => .next s
    | .fault _ _ _ => .next s
    | .ok (s, bs) =>
      let kind := leField bs 0 1
      let at_ := leField bs 8 8
      let patch := leField bs 16 8
      let priv := tgetD r.privs (r.ridx % 2 ^ r.n) 2
      let w := unitWho ((s.part p).sites.headD 0) p r.rasid priv 0
      let by_ : Launcher := { who := w, priv := priv }
      let took (s : State) : State := s.modRing p k fun r =>
        { r with ridx := (r.ridx + 1) % 2 ^ 32, privs := tdel r.privs (r.ridx % 2 ^ r.n) }
      let bad (s : State) (cls sub : Nat) : Out := .next ((took (s.modRing p k fun r => r.error cls sub)).causeBit p k)
      if 4 ≤ kind ∨ leField bs 1 7 ≠ 0 ∨ leNat (bs.drop 24) ≠ 0 ∨ (kind ≠ 3 ∧ patch ≠ 0) then bad s 0x0A 0x04
      else if kind = 0 then .next (took s)
      else
        let size := if kind = 1 then 256 else 64
        match eaFault kLoad size (W at_) with
        | some f => bad s f.cls f.sub
        | none =>
          match s.pull w .record at_ size with
          | .fault c b _ => bad s c b
          | .wait s => .next s
          | .ok (s, rec_) =>
            if kind = 3 then
              match eaFault kLoad 8 (W patch) with
              | some f => bad s f.cls f.sub
              | none =>
                let (s, l) := s.leafAt w .record at_
                match s.applyGrun w at_ (l.ga at_) patch with
                | .fault c b _ _ _ => bad s c b
                | .wait s => .next s
                | .refused => .next s
                | .queued s => .next (took s)
            else
              match (if kind = 1 then s.acceptHeader by_ (W at_) rec_ none none else s.acceptGang by_ (W at_) rec_ none) with
              | .fault c b _ _ _ => bad s c b
              | .wait s => .next s
              | .queued s => .next (took s)

/-- Step RING_DOORBELL (R359): the host writes WIDX. -/
def execRingDoorbell (p k v : Nat) (s : State) : Out := .next (s.modRing p k fun r => r.ringUp v)

/-- Step RING_RESET (R318): a write of RCTL. -/
def execRingReset (p k v : Nat) (s : State) : Out := .next (s.modRing p k fun r => r.writeCtl v)

/-- An access-control entry (R320), in the layout of the log (DESIGN CHOICE, log entry 20): V, source, ring mask, kind mask, highest privilege. -/
structure AclEntry where
  v : Bool
  src : Nat
  rings : Nat
  kinds : Nat
  priv : Nat
  deriving DecidableEq, Repr

/-- The fields of an access-control entry, packed upwards in the order in which R320 names them.  DESIGN CHOICE, log entry 20. -/
def parseAcl (x : Word) : AclEntry :=
  { v := x.getLsbD 0, src := wfld x 1 6, rings := wfld x 7 16, kinds := wfld x 23 3, priv := wfld x 26 2 }

/-- The answer to a peer's request leaves for it, with the bytes that it reads (R320, R353, R354). -/
def State.answerPeer (s : State) (dev sub : Nat) (data : List Byte := []) : State :=
  s.send .regulator (.port dev) vnReply (.peerAnswer sub data)

/-- Bytes of HBM that something outside the device's own contexts is to read or write, line by line: the state in which nothing keeps them, no
bound context line, flip of a page, pinned set or copy of the host (R70, R191, R363, R364), or what is asked for first. -/
def State.outerReady (s : State) (part : Nat) (xs : List (Nat × List Byte)) (write : Bool) : Probe State :=
  match xs with
  | [] => .ok s
  | (ga, d) :: rest =>
    let l : Leaf := { leafOf 0 0 0 with pa := ga / 4096 * 4096 }
    match s.readyLine (unitAcc (unitWho (siteNo 0 0 0) part 0 2 0) ga ga l d d.length write) write with
    | .ok s => s.outerReady part rest write
    | .wait s => .wait s
    | .fault a b c => .fault a b c

/-- A peer's packet in the aperture meets the first valid entry of its source (R320): it is denied and logged, refused as busy, or written at
WIDX.  DESIGN CHOICE, log entry 20; DEDUCED, log entry 83. -/
def State.peerPacket (s : State) (dev off : Nat) (d : List Byte) : State :=
  let k := off / 64
  let entry := ((List.range 256).map fun i => parseAcl (tgetD s.reg.acl i 0#64)).find? fun e => e.v && e.src == dev
  let p := 0
  let hit := s.parts.find? fun x => (x.2.ring k).rctl.testBit 29
  let p := (hit.map (·.1)).getD p
  let r := (s.part p).ring k
  let kind := leField d 0 1
  let denied : Bool := match entry with
    | none => true
    | some e => !e.rings.testBit k || decide (kind = 0) || decide (3 < kind) || !e.kinds.testBit (kind - 1) ||
        !r.rctl.testBit 29 || !r.rctl.testBit 28 || d.length != 64 || off % 64 != 0 || decide (16 ≤ k)
  if denied then (s.logEvent (.link dev) 0x12 0x22 off).answerPeer dev 0x22
  else if r.overrun ∨ r.d = 2 ^ r.n ∨ 2 ^ r.n < r.d then s.answerPeer dev 0x21
  else
    let i := r.widx % 2 ^ r.n
    let pa := r.rbase + 64 * i
    let ga := if r.rctl.testBit 30 then gHost + pa else pa
    let put (s : State) : State := (s.modRing p k fun r => { r with
      widx := (r.widx + 1) % 2 ^ 32, privs := tset r.privs i ((entry.map (·.priv)).getD 0) }).answerPeer dev 0
    if ga < hbmEnd then
      match s.outerReady p [(ga, d)] true with
      | .ok t => put (t.pokeGa p (siteNo 0 0 0) ga d)
      | .wait t => s.keepMsgs t
      | .fault _ _ _ => s
    else put (s.wr ga d)

/-- The bytes that a peer's request touches. -/
def peerSpan (q : PeerReq) : Nat :=
  match q with
  | .write d => d.length
  | .read n => n
  | .amo _ y _ _ => amoBytes y

/-- Whether a peer's request may write. -/
def peerWrites (q : PeerReq) : Bool :=
  match q with
  | .write _ | .amo _ _ _ _ => true
  | .read _ => false

/-- A peer's access to HBM performed, line by line, at the homes, where every device copy is current (R353). -/
def State.peerPerform (s : State) (dev part pa : Nat) (q : PeerReq) : State :=
  let s := (glines pa (peerSpan q)).foldl (fun s g => (s.recallStashes g none false).recallOwned g none) s
  let old := s.rd pa (peerSpan q)
  let poke (d : List Byte) : State := (splitLines (d.length + 1) pa d).foldl (fun s x => s.pokeGa part (siteNo 0 0 0) x.1 x.2) s
  match q with
  | .write d => (poke d).answerPeer dev 0
  | .read _ => s.answerPeer dev 0 old
  | .amo op y src cmp =>
    let x := leNat old
    (if amoWrites op y x cmp then poke (leBytes (amoBytes y) (amoNew op y x src cmp)) else s).answerPeer dev 0 old

/-- A peer's access to HBM (R353): a line that something keeps makes it wait.  DEDUCED, log entry 83. -/
def State.peerAccess (s : State) (dev pa : Nat) (q : PeerReq) : State :=
  let part := (s.parts.head?.map (·.1)).getD 0
  let ls := splitLines ((peerSpan q) + 1) pa (List.replicate (peerSpan q) 0#8)
  if ls.any fun x => s.slDown ((s.part part).home x.1) then s.answerPeer dev 0x01
  else
    match s.outerReady part ls (peerWrites q) with
    | .ok t => t.peerPerform dev part pa q
    | .wait t => s.keepMsgs t
    | .fault _ _ _ => s

/-- Step PEER_PACKET (R320, R353): what a peer asks for: an access to HBM, a packet written in the aperture, or an address that the
device denies.  DEDUCED, log entry 83. -/
def execPeerPacket (dev pa : Nat) (q : PeerReq) (s : State) : Out :=
  if pa + (peerSpan q) ≤ hbmEnd then .next (s.peerAccess dev pa q)
  else
    match q with
    | .write d =>
      if apertureBase ≤ pa ∧ pa < apertureEnd then .next (s.peerPacket dev (pa - apertureBase) d) else .next (s.answerPeer dev 0x22)
    | .read _ | .amo _ _ _ _ => .next (s.answerPeer dev 0x22)

end Sys2Proof.Machine
end

