-- ==== Sys2Proof/Machine/Lines.lean ====
section
/-! DEFINITION. Where context lines live and which of them a slot issues from: eligibility, victims, fills, forwarding,
binding, rotation and deadlines (R61–R69). -/

namespace Sys2Proof.Machine

/-! ## Eligible lines (R65) -/

/-- One level of effective priority per 100 µs, in nanoseconds (R65, R297).  DEDUCED, log entry 67. -/
def agingNs : Nat := 100000

/-- The effective priority of a line: its SPACE priority, and one level for each full 100 µs that it has been READY without
being bound, up to 15; that of a bound line, or of one that is not READY, is its SPACE priority (R65). -/
def Line.effPrio (l : Line) (now : Nat) : Nat :=
  if l.bound.isSome || !l.isReady then l.prio else min 15 (l.prio + (now - l.agedFrom) / agingNs)

/-- A line that R61 refuses at fill or bind time. -/
def Line.bad (l : Line) : Bool := l.priv == 3 || (l.svc && l.priv == 0) || (decide (11 ≤ l.wtKind))

/-- A live unbound line that is READY, or that R61 refuses. -/
def Line.offered (l : Line) : Bool := l.life == .live && !l.away && l.bound.isNone && (l.wtKind == 0 || decide (11 ≤ l.wtKind))

/-- The lines of a core's L1 that a slot may bind (R65). -/
def State.eligible (s : State) (site : Nat) : List (Nat × Line) := (s.linesIn (.l1 site)).filter fun e => e.2.offered

/-- Whether one line ranks before another: effective priority, then ready stamp (R65). -/
def ranksBefore (now : Nat) (a b : Line) : Bool :=
  decide (b.effPrio now < a.effPrio now) || (a.effPrio now == b.effPrio now && decide (a.stamp < b.stamp))

/-- The line of a list that ranks first; R65 orders lines of equal effective priority and ready stamp no further, and the model
takes the first of them in its table, the one of the lowest address.  DESIGN CHOICE, log entry 92. -/
def firstRanked (now : Nat) (l : List (Nat × Line)) : Option (Nat × Line) :=
  l.foldl (fun b x => match b with
    | none => some x
    | some y => if ranksBefore now x.2 y.2 then some x else b) none

/-- A refused line parks for a fault of class ILL that goes to descriptor 0 with ESC set; TND and the rest of TSW stay (R61).
R61 gives the CAUSE no KIND; the model writes the kind of a context target.  DESIGN CHOICE, log entry 93. -/
def State.refuseLine (s : State) (site key : Nat) (l : Line) : State :=
  let f : Flt := { cls := 0x01, sub := 0x01, kind := kContext, size := 0xF, faddr := W (l.cid * 128) }
  let cause := mkCause 0#32 0 false true f
  ((s.noteClass l 0x01).setLine key
    { l with wt := mkWt 6 0, cause := cause, faddr := f.faddr, pend := none, waitFrom := s.gtime }).pushFault site
      (some l) (some key) l.part 0 cause f.faddr none

/-! ## Victims (R66) -/

/-- The class of a line as a victim, for a line of an effective priority that is to be filled: 1 first.  A line with a reserved wait
kind is in no class: it is refused at its next bind or fill, and parks (R61).  DEDUCED, log entry 68. -/
def Line.victimClass (l : Line) (now p : Nat) : Option Nat :=
  if l.bound.isSome then none
  else if l.life = .exited then some 1
  else if l.life = .lost then none
  else
    let k := l.wtKind
    if k = 1 ∨ k = 9 then some 3
    else if k = 0 then (if l.effPrio now < p then some 4 else none)
    else if k ≤ 10 then some 2 else none

/-- The age by which victims of one class are ordered: the ready stamp or the beginning of the wait. -/
def Line.age (l : Line) : Nat := if l.wtKind = 0 then l.stamp else l.waitFrom

/-- The victim of a pool; R66 orders victims of one class and age no further, and the model takes the first of them in its table,
the one of the lowest address.  DEDUCED, log entry 68; DESIGN CHOICE, log entry 92. -/
def victimOf (now p : Nat) (pool : List (Nat × Line)) : Option Nat :=
  let best := pool.foldl (fun b x =>
    match x.2.victimClass now p with
    | none => b
    | some c =>
      match b with
      | none => some (c, x.2.age, x.1)
      | some (c', a', _) => if c < c' ∨ (c = c' ∧ x.2.age < a') then some (c, x.2.age, x.1) else b) none
  best.map (·.2.2)

/-- Whether a line finds room: the state with the room made, or the state in which it waits. -/
abbrev Room := Except State State

/-- An exited line that a continuation pop materialised becomes FREE and its record joins the arena's free list; a fault
leaves it off the list and is reported with context ID 0 and the KID; while the write must wait, what it waits for has been asked for
(R66, R294). -/
def State.freeExited (s : State) (key : Nat) (l : Line) : Room :=
  let bytes := l.bytes
  let s' : State := { s with mem := memWrite s.mem (key * 128) bytes, lines := tdel s.lines key }
  match (s.part l.part).kernel? l.kid with
  | none => .ok s'
  | some k =>
    let anchor := l.anchor.getD 0
    let w := k.who anchor
    let va := l.cid * 128
    let fail (cls sub at_ : Nat) : State :=
      s'.report anchor k.part cls k.hdr.kid { cls := cls, sub := sub, kind := kStore, size := 3, faddr := W at_ }
    match s'.probe w (.store false false) k.hdr.framebase 64 true with
    | .wait t => .error (s.keepMsgs t)
    | .fault a b c => .ok (fail a b c)
    | .ok t =>
      match t.probe w (.store false false) va 8 true with
      | .wait t => .error (s.keepMsgs t)
      | .fault a b c => .ok (fail a b c)
      | .ok t =>
        let (t, h) := t.readLines w (.store false false) (linesOf k.hdr.framebase 64)
        let t := t.poke w (.store false false) va (leBytes 8 (leField h 0x10 8))
        .ok (t.poke w (.store false false) (k.hdr.framebase + 0x10) (leBytes 8 va))

/-- The victim of a context L2 leaves it: an exited continuation line becomes FREE and its record returns to the arena (R63, R66),
and any other line goes to memory; not while the write of the record must wait. -/
def State.evictL2 (s : State) (key : Nat) : Room :=
  match s.line? key with
  | none => .ok s
  | some l =>
    if l.life = .exited && !l.seeded then s.freeExited key l else .ok (s.moveLine key { l with place := .mem, touched := false })

/-- Room for one more line of an effective priority in the context L2 of a cluster, with the victim that leaves for it, if there is
either (R66, R67). -/
def State.roomL2 (s : State) (cl p : Nat) : Room :=
  let pool := s.linesIn (.l2 cl)
  if pool.length < l2Size then .ok s
  else
    match victimOf s.gtime p pool with
    | some v => s.evictL2 v
    | none => .error s

/-- A line that has come to a cluster: on another die than before it issues nothing until the invalidations sent to that die are
applied, so that it sees there what it has seen and written (R67, R225, R228). -/
def State.landIn (s : State) (l : Line) (cl : Nat) : Line :=
  { l with lastCl := cl, acqTo := if dieOfCl cl = dieOfCl l.lastCl then l.acqTo else s.nextId }

/-- A line comes to the context L2 of a cluster, or goes to memory where the L2 has neither room nor a victim; an exited continuation
line becomes FREE then (R63, R66). -/
def State.intoL2 (s : State) (key cl : Nat) : State :=
  match s.line? key with
  | none => s
  | some l =>
    let l := { s.landIn l cl with touched := false }
    match s.roomL2 cl (l.effPrio s.gtime) with
    | .ok t => t.moveLine key { l with place := .l2 cl }
    | .error t =>
      let t := t.moveLine key { l with place := .mem }
      if l.life = .exited && !l.seeded then
        match t.freeExited key l with
        | .ok u | .error u => u
      else t

/-- A victim of a context L1 leaves for the context L2 of its cluster, but an exited continuation line becomes FREE (R66). -/
def State.toL2 (s : State) (key : Nat) (l : Line) (cl : Nat) : Room :=
  if l.life = .exited && !l.seeded then s.freeExited key l else .ok (s.intoL2 key cl)

/-- Room for one more line of a kernel in a core's L1, with the victim that leaves for it; otherwise the fill waits (R66).
DEDUCED, log entry 68. -/
def State.makeRoom (s : State) (site part kid p : Nat) : Room :=
  let lines := s.linesIn (.l1 site)
  let mine := lines.filter fun e => e.2.part == part && e.2.kid == kid
  let c := s.core site
  let share := match c.slotOf part kid with
    | some i => (c.ks.getD i KSlot.reset).l1share
    | none => l1Size
  let evict (pool : List (Nat × Line)) : Room :=
    match victimOf s.gtime p pool with
    | none => .error s
    | some v =>
      match s.line? v with
      | none => .error s
      | some l => s.toL2 v l (clusterOf site)
  if share ≤ mine.length then evict mine
  else if lines.length < l1Size then .ok s
  else evict lines

/-! ## Fills and forwarding (R67, R272) -/

/-- Eligible lines below which a core fills its L1 (R67).  DEDUCED, log entry 68. -/
def fillBelow : Nat := 8

/-- The lines of its cluster's L2 that a core may fill. -/
def State.fillable (s : State) (site : Nat) : List (Nat × Line) :=
  let c := s.core site
  (s.linesIn (.l2 (clusterOf site))).filter fun e =>
    e.2.offered && (c.slotOf e.2.part e.2.kid).isSome && bindAdmits e.2.bindCode e.2.bindUnit site

/-- Step CONTEXT_FILL (R66, R67): the line that ranks first in the cluster's L2 moves into the core's L1; one that R61 refuses
parks where it is. -/
def execContextFill (c : Nat) (s : State) : Out :=
  if (s.core c).life != .active || decide (fillBelow ≤ (s.eligible c).length) then .next s
  else
    match firstRanked s.gtime (s.fillable c) with
    | none => .next s
    | some (key, l) =>
      if l.bad then .next (s.refuseLine c key l)
      else
        match s.makeRoom c l.part l.kid (l.effPrio s.gtime) with
        | .error t => .next t
        | .ok s => .next (s.moveLine key { l with place := .l1 c, touched := false })

/-- The cluster that a READY line in memory is forwarded to: the one where it last resided, or the nearest that hosts its
kernel, within its binding (R67, R272). -/
def State.forwardTo (s : State) (l : Line) : Option Nat :=
  let ok (cl : Nat) : Bool := s.clHosts cl l.part l.kid && bindAdmitsCl l.bindCode l.bindUnit cl
  if ok l.lastCl then some l.lastCl
  else (sortBy (hops l.lastCl) ((s.part l.part).clusters.filter ok)).head?

/-- Step LINE_FORWARD (R67): the home of a READY line in memory forwards it to a context L2; an exited continuation line whose record could
not be written when it left its pool becomes FREE (R63, R66). -/
def execLineForward (key : Nat) (s : State) : Out :=
  match s.line? key with
  | none => .next s
  | some l =>
    if l.place = .mem && l.life = .exited && !l.seeded && !l.away then
      match s.freeExited key l with
      | .ok t | .error t => .next t
    else if l.place != .mem || !l.offered then .next s
    else
      match s.forwardTo l with
      | none => .next s
      | some cl =>
        match s.roomL2 cl (l.effPrio s.gtime) with
        | .ok s => .next (s.moveLine key { s.landIn l cl with place := .l2 cl })
        | .error t => .next t

/-! ## The turn of a slot (R64, R65) -/

/-- The bound line of a slot that is RUNNING. -/
def State.running? (s : State) (site slot : Nat) : Option (Nat × Line) :=
  match tget (s.core site).bound slot with
  | none => none
  | some key =>
    match s.line? key with
    | none => none
    | some l => if l.isReady then some (key, l) else none

/-- A slot unbinds a line that waits or has exited (R65). -/
def State.unbindIdle (s : State) (site slot : Nat) : State :=
  match s.running? site slot with
  | some _ => s
  | none => s.unbind site slot false

/-- Whether a slot's RUNNING line gives way to an eligible line; one that executes an EMULATE sequence does not (R65, R412). -/
def State.rotates (s : State) (site slot : Nat) : Bool :=
  match s.running? site slot with
  | none => false
  | some (_, l) =>
    !(tget (s.core site).emu slot).isSome &&
    let best := (s.eligible site).foldl (fun b e => max b (e.2.effPrio s.gtime + 1)) 0
    (decide (l.prio + 1 < best) || (decide (8 ≤ tgetD (s.core site).streak slot 0) && decide (l.prio + 1 ≤ best)))

/-- A slot without a line binds the eligible line that ranks first; every line of the L1 that R61 refuses parks then, whether or
not it ranks first (R61, R65).  DESIGN CHOICE, log entry 93. -/
def State.bindFirst (s : State) (site slot : Nat) : State :=
  if s.stopped (s.partOf site) || (tget (s.core site).bound slot).isSome || (s.core site).life != .active then s
  else
    let s := ((s.eligible site).filter fun e => e.2.bad).foldl (fun s e => s.refuseLine site e.1 e.2) s
    match firstRanked s.gtime (s.eligible site) with
    | some (key, _) => s.bindLine site slot key
    | none => s

/-- What a slot does at its turn before it issues (R65), unless a step of its own has done it in this cycle. -/
def State.slotPrepare (s : State) (site slot : Nat) : State :=
  if (s.core site).prepAt = some s.cycle then s
  else
  let s := if s.stopped (s.partOf site) then s.unbind site slot false else s.unbindIdle site slot
  let s := if s.rotates site slot then s.unbind site slot true else s
  s.bindFirst site slot

/-- The schedule with a turn of a core first, whose slot has bound its line already. -/
def State.pushTurn (s : State) (site : Nat) : State :=
  { s.modCore site fun c => { c with prepAt := some s.cycle } with agenda := { after := 0, what := .turn site } :: s.agenda }

/-- Whether the turn of a core's slot is still to come in this cycle: the core is active and its slot has neither bound a line nor issued
(R64, R65). -/
def State.turnOpen (s : State) (c : Nat) : Bool :=
  (s.core c).life == .active && (s.core c).turnAt != some s.cycle && (s.core c).prepAt != some s.cycle

/-- Step LINE_BIND (R65): at its turn a slot without a RUNNING line binds the eligible line that ranks first, and issues from
it in the same turn. -/
def execLineBind (c k : Nat) (s : State) : Out :=
  if s.slot != k || (s.running? c k).isSome || !s.turnOpen c || (s.eligible c).isEmpty then .next s
  else .next (((s.unbindIdle c k).bindFirst c k).pushTurn c)

/-- Step ROTATION (R65): a slot's RUNNING line gives way, and the slot binds another in the same turn.  DEDUCED, log entry 67. -/
def execRotation (c k : Nat) (s : State) : Out :=
  if s.slot != k || !s.turnOpen c || !(s.rotates c k) then .next s
  else .next (((s.unbind c k true).bindFirst c k).pushTurn c)

/-- Step PRIORITY_AGING (R65): an eligible line has gained a level for another full 100 µs of being READY, which
`Line.effPrio` reads from the time it counts; where it now outranks the line that its core's slot runs, that slot rotates.
DEDUCED, log entry 67. -/
def execPriorityAging (l : Nat) (s : State) : Out :=
  match s.line? l with
  | some x =>
    match x.place with
    | .l1 c =>
      if x.offered && decide (x.agedFrom + agingNs ≤ s.gtime) && s.turnOpen c && s.rotates c s.slot then
        .next (((s.unbind c s.slot true).bindFirst c s.slot).pushTurn c)
      else .next s
    | .l2 _ | .mem => .next s
  | none => .next s

/-! ## Halts and moves (R78, R376) -/

/-- A core stops binding: its bound lines are unbound and every line of its L1 goes to the cluster's L2 in its present state,
or to memory where the L2 has neither room nor a victim (R66, R376). -/
def State.haltCore (s : State) (site : Nat) : State :=
  let s : State := (List.range 8).foldl (fun s k => s.unbind site k false) s
  let keys := (s.linesIn (.l1 site)).map (·.1)
  let out (l : Line) : Line := if l.place = .l1 site then { l with place := .mem, lastCl := clusterOf site } else l
  let s : State := { s with lines := s.lines.map fun e => (e.1, out e.2) }
  let s : State := keys.foldl (fun s key => s.intoL2 key (clusterOf site)) s
  (s.modCore site fun c => { c with life := .halted }).logEvent (.core site) 0 0 0

/-- `halt` (R376): supervisor only; PC advances first.  DEDUCED, log entry 19. -/
def execHalt (g : Guard) (s : State) : Out :=
  privileged 2 g s fun e => (s.put (e.adv 4)).haltCore e.site

/-- Step MIGRATE_MOVE (R78): the line moves to the L2 of the cluster that is home to the address, its stamp unchanged, unless
it is there already or the cluster does not host its kernel; an L2 without room or a victim sends it to memory, whence its home
forwards it (R66, R67). -/
def execMigrateMove (m : Nat) (s : State) : Out :=
  homeStep m s (fun a => a.k == .migr) fun s sl a =>
    match s.line? a.w.key with
    | none => s
    | some l =>
      if l.life != .live || l.wtKind != 1 then s
      else
        let l' := { l with wt := 0#32, pend := none, agedFrom := s.gtime }.takeHeld
        if sl = clusterOf a.w.site || !(s.clHosts sl l.part l.kid) then s.setLine a.w.key l'
        else
          let s := match l.place, l.bound with
            | .l1 site, some k => s.unbind site k false
            | _, _ => s
          (s.modLine a.w.key fun x =>
            { l' with bound := none, lastSlot := x.lastSlot, place := .mem, bindCode := 0 }).intoL2 a.w.key sl

/-! ## Deadlines (R69) -/

/-- The length of a context's deadline in nanoseconds (R69). -/
def Line.deadlineNs (l : Line) : Option Nat := if l.dlx = 0 then none else some (2 ^ min l.dlx 40)

/-- The barrier that a wait of kind 2 is on (R60). -/
def Line.waitBar (l : Line) : Nat := l.wtDetail / 2 ^ 22
/-- The phase that a wait of kind 2 is on. -/
def Line.waitPhase (l : Line) : Nat := l.wtDetail % 2 ^ 16

/-- Step WAIT_DEADLINE (R69, R308): a wait of kind 2, 3, 4, 8 or 10 that has lasted 2^DLX ns ends in a fault; a gang's expiry
goes to the placer, unless its kernel has left it without a grant. -/
def execWaitDeadline (key : Nat) (s : State) : Out :=
  match s.line? key with
  | none => .next s
  | some l =>
    match l.deadlineNs with
    | none => .next s
    | some n =>
      if l.life != .live || decide (s.gtime < l.waitFrom + n) then .next s
      else
        match l.wtKind with
        | 2 =>
          let turn (c : Core) : Core := { c with waiters := c.waiters.filter fun x => x.key != key }
          if s.cores.any fun c => c.2.waiters.any fun x => x.key == key then
            let s : State := { s with cores := s.cores.map fun c => (c.1, turn c.2) }
            .next (s.deadline key l 0x09 kBarrier 0xF (W (l.waitBar * 2 ^ 16 + l.waitPhase)))
          else .next s
        | 3 => .next ((s.unreserve key).deadline key l 0x0A kResv 3 l.waitAddr)
        | 4 => .next (s.deadline key l 0x0A kQueue 0xF (W ((l.popWait.map (·.desc)).getD 0)))
        | 8 =>
          let turn (c : Cluster) : Cluster := { c with semWait := c.semWait.filter fun x => x.key != key }
          if s.clusters.any fun c => c.2.semWait.any fun x => x.key == key then
            let s : State := { s with clusters := s.clusters.map fun c => (c.1, turn c.2) }
            .next (s.deadline key l 0x0B kEngine 0xF (W (l.wtDetail % 16)))
          else .next s
        | 10 =>
          let sent := s.net.any fun y => match y.body with
            | .gangWithdraw x _ _ => x == key
            | .gangGrant x => x == key
            | _ => false
          let mine := (s.part l.part).kernels.find? fun k => ((k.gang.bind (·.who)).map (·.key)) == some key
          match mine with
          | some k =>
            if sent then .next s
            else .next (s.send (.line key) (.placer l.part) vnControl (.gangWithdraw key k.hdr.kid l.part))
          | none => if sent then .next s else .next (s.deadline key l 0x0A kQueue 0xF l.waitAddr)
        | _ => .next s

end Sys2Proof.Machine
end

