-- ==== Sys2Proof/Machine/Group.lean ====
section
/-! DEFINITION. Fork, sync and join on the cactus stack, and the continuation queues (R294–R306, R321). -/

namespace Sys2Proof.Machine

/-! ## The frame arena (R294, R295) -/

/-- The category of the device's accesses to the frame arena: writes of the context (R302, R303).  DEDUCED, log entry 40. -/
def frameCat : Cat := .store false false

/-- The fields of an arena header. -/
structure Arena where
  ffree : Nat
  fbump : Nat
  cfree : Nat
  cbump : Nat
  deriving DecidableEq, Repr

/-- An arena header read from its 64 bytes. -/
def parseArena (bs : List Byte) : Arena :=
  { ffree := leField bs 0 8, fbump := leField bs 8 8, cfree := leField bs 0x10 8, cbump := leField bs 0x18 4 }

/-- The bytes that an allocation or a release writes. -/
def Arena.bytes (a : Arena) : List Byte := leBytes 8 a.ffree ++ leBytes 8 a.fbump ++ leBytes 8 a.cfree ++ leBytes 4 a.cbump

/-- A frame taken from the arena, with the header afterwards; none when no frame is free.  Nothing is written. -/
def State.allocFrame (s : State) (w : Who) (h : Header) (a : Arena) : Probe (State × Option (Nat × Arena)) :=
  if a.ffree ≠ 0 then
    match s.pullWord w frameCat a.ffree with
    | .fault x y z => .fault x y z
    | .wait s => .wait s
    | .ok (s, up) => .ok (s, some (a.ffree, { a with ffree := up }))
  else if a.fbump < h.framebase + h.framesize then .ok (s, some (a.fbump, { a with fbump := a.fbump + 64 }))
  else .ok (s, none)

/-- The frames of a `fork`, one or two, with the header afterwards. -/
def State.allocFrames (s : State) (w : Who) (h : Header) (a : Arena) (n : Nat) : Probe (State × Option (List Nat × Arena)) :=
  match n with
  | 0 => .ok (s, some ([], a))
  | n + 1 =>
    match s.allocFrame w h a with
    | .fault x y z => .fault x y z
    | .wait s => .wait s
    | .ok (s, none) => .ok (s, none)
    | .ok (s, some (f, a)) =>
      match s.allocFrames w h a n with
      | .fault x y z => .fault x y z
      | .wait s => .wait s
      | .ok (s, none) => .ok (s, none)
      | .ok (s, some (fs, a)) => .ok (s, some (f :: fs, a))

/-- Frames made ready for their first write. -/
def State.probeFrames (s : State) (w : Who) (fs : List Nat) : Probe State :=
  match fs with
  | [] => .ok s
  | f :: rest =>
    match s.probe w frameCat f 64 true with
    | .fault x y z => .fault x y z
    | .wait s => .wait s
    | .ok s => s.probeFrames w rest

/-- UP, JC, WAITER and ARG of a new frame (R295, R302). -/
def newFrame (up : Nat) (args : List Word) : List Byte :=
  leBytes 8 up ++ leBytes 8 0 ++ leBytes 8 0 ++ args.flatMap fun a => leBytes 8 a.toNat

/-- A level of the continuation queues for a priority (R297). -/
def contLevel (prio : Nat) : Nat := prio / 4

/-- A fault of an access that a fork or join makes, with FADDR at the faulting line (R302). -/
def frameFlt (cls sub va : Nat) : Flt := { cls := cls, sub := sub, kind := kStore, size := 3, faddr := W va }

/-! ## `fork` (R301, R302) -/

/-- `fork label` (R302): the target's canonical form, PWC = 0 and room in the continuation queue; then the arena header's home
acts. -/
def execFork (g : Guard) (off : BitVec 16) (s : State) : Out :=
  guarded g s fun e =>
    let t := e.line.pc + branchOff off
    if !canonical t then s.raise e (fltCanon 0 0xF t)
    else
      let base := (((s.part e.line.part).kernel? e.line.kid).map (·.hdr.framebase)).getD 0
      let cl := clusterOf e.site
      let args := (List.range 4).map fun i => e.line.v.getD i 0#64
      s.issueWait (e.at base .sync) 1 [.pwc, .contRoom cl (contLevel e.line.prio)] (.send base (.fork t args))

/-- What a `fork` does once its frames are there: the child's frame, the parent's count, the count at the anchor, and the
record (R302). -/
def State.applyFork (s : State) (sl : Nat) (a : Acc) (l : Line) (target : Word) (args : List Word) (fs : List Nat) (h : Arena) : State :=
  let link := if l.link = 0#64 then fs.headD 0 else l.link.toNat
  let child := (if l.link = 0#64 then fs.drop 1 else fs).headD 0
  let s := if l.link = 0#64 then s.poke a.w frameCat link (newFrame 0 []) else s
  let s := s.poke a.w frameCat child (newFrame link args)
  let (s, jc) := s.readLines a.w frameCat (linesOf (link + 8) 8)
  let s := s.poke a.w frameCat (link + 8) (leBytes 8 (leNat jc + 1))
  let s := (s.performWrite sl (s.via a) a h.bytes).1
  let s := s.modLine a.w.key fun x => { x with link := W link }
  let s := match l.anchor with
    | some anchor => s.countIn l.part l.kid anchor l.trg
    | none => s
  let r : Cont :=
    { resume := false, tgt := target.toNat, fp := child, ja := link + 8, wid := l.wid, kid := l.kid, part := l.part,
      anchor := l.anchor.getD a.w.site, trg := l.trg, since := s.gtime, bindCode := l.bindCode, bindUnit := l.bindUnit, slot := none }
  (s.pushCont (clusterOf a.w.site) (contLevel l.prio) r).reply sl a.w Answer.none

/-- Step FORK_ALLOCATE (R294, R302): the home of the arena header allocates the frames and does all of the fork in one step;
a full continuation queue keeps the fork waiting.  The fault of the arena has no address, so FADDR is a free value.
DESIGN CHOICE, log entry 7. -/
def execForkAllocate (m : Nat) (s : State) : Out :=
  homeArrival m s
    (fun a => match a.k with
      | .fork _ _ => true
      | _ => false)
    fun s₀ sl a =>
      match a.k, s₀.line? a.w.key with
      | .fork target args, some l =>
        let s := s₀.drop m
        let refuse (f : Flt) : State := s.answerFault (.slice sl) a.w f false false 0 none false
        match (s.part l.part).kernel? l.kid with
        | none => s
        | some k =>
          if l.gen ≠ a.w.gen ∨ l.life ≠ .live then s
          else if !(s.forkRoom (clusterOf a.w.site) (contLevel l.prio)) then s₀
          else
            let h := parseArena (s.rd a.ga 64)
            let n := if l.link = 0#64 then 2 else 1
            match (if k.hdr.framesize < 64 then .ok (s, none) else s.allocFrames a.w k.hdr h n) with
            | .fault x y z => refuse (frameFlt x y z)
            | .wait t => s₀.keepMsgs t
            | .ok (_, none) =>
              let f : Flt := { cls := 0x0A, sub := 0x20, kind := kStore, size := 3, faddr := Config.freeWord s.free }
              ({ s with free := s.free + 1 } : State).answerFault (.slice sl) a.w f false false 0 none false
            | .ok (s, some (fs, h)) =>
              match s.probeFrames a.w (if l.link = 0#64 then fs else l.link.toNat / 64 * 64 :: fs) with
              | .fault x y z => refuse (frameFlt x y z)
              | .wait t => s₀.keepMsgs t
              | .ok s => s.applyFork sl a l target args fs h
      | _, _ => s₀.drop m

/-! ## `sync` and `exit` (R303, R304) -/

/-- `sync` (R303): with no frame it only advances PC. -/
def execSync (g : Guard) (s : State) : Out :=
  guarded g s fun e =>
    if e.line.link = 0#64 then s.put (e.adv 4)
    else s.checkedAccess e kStore 8 e.line.link .sync []

/-- A context suspends at its frame: WAITER names it and WT is of kind 5 (R303). -/
def State.suspend (s : State) (sl : Nat) (a : Acc) (pc : Option Word) : State :=
  match s.line? a.w.key with
  | none => s
  | some l =>
    if !(s.answers a.w) then s
    else
      let s := (s.performWrite sl (s.via a) { a with ga := a.ga + 0x10 } (leBytes 8 l.cid)).1
      s.modLine a.w.key fun l =>
        { l with wt := mkWt 5 0, waitFrom := s.gtime, pend := none, pc := pc.getD l.pc }

/-- Step SYNC_TEST (R303, R305): at the home of the frame's line, one step; CONTINUE is an acquire at device scope. -/
def execSyncTest (m : Nat) (s : State) : Out :=
  homeStep m s (fun a => a.k == .sync) fun s sl a =>
    if s.rdNat (a.ga + 8) 8 = 0 then s.reply sl a.w Answer.none true else s.suspend sl a none

/-- The end of an `exit`: the line is EXITED and its anchor counts it (R77, R281). -/
def State.finishExit (s : State) (key : Nat) : State :=
  match s.line? key with
  | none => s
  | some l =>
    (s.countOut l false).setLine key
      { l with life := .exited, wt := 0#32, pend := none, popWait := none, waitFrom := s.gtime, stamp := s.gtime }

/-- The live line that a context ID names in a partition (DEDUCED, log entry 10). -/
def State.lineOfCid (s : State) (part kid cid : Nat) : Option (Nat × Line) :=
  s.lines.find? fun e => e.2.cid == cid && e.2.part == part && e.2.kid == kid && e.2.life == .live && !e.2.away

/-- The cluster whose queue takes the resume record of a waiter (R304). -/
def resumeCluster (l : Line) (cl : Nat) : Nat :=
  if bindAdmitsCl l.bindCode l.bindUnit cl then cl else clusterOf (l.anchor.getD 0)

/-- A waiter is released: its resume record is queued and it is READY; its `sync` acquires what the children released (R304, R305). -/
def State.releaseWaiter (s : State) (cl key : Nat) (l : Line) : State :=
  let r : Cont :=
    { resume := true, tgt := l.cid, fp := 0, ja := 0, wid := l.wid, kid := l.kid, part := l.part, anchor := l.anchor.getD 0,
      trg := l.trg, since := s.gtime, bindCode := l.bindCode, bindUnit := l.bindUnit, slot := none }
  let s := s.pushCont (resumeCluster l cl) (contLevel l.prio) r
  if l.wtKind = 5 then (s.makeReady key).acquires key else s

/-- The decrement of a parent's join count, with the release of its waiter (R304). -/
def State.joinParent (s : State) (a : Acc) (l : Line) (parent : Nat) : State :=
  let cl := clusterOf a.w.site
  let (s, bs) := s.readLines a.w frameCat (linesOf (parent + 8) 16)
  let jc := (leField bs 0 8 + 2 ^ 64 - 1) % 2 ^ 64
  let cid := leField bs 8 8
  let s := s.poke a.w frameCat (parent + 8) (leBytes 8 jc)
  if jc = 0 ∧ cid ≠ 0 then
    let s := s.poke a.w frameCat (parent + 0x10) (leBytes 8 0)
    match s.lineOfCid l.part l.kid (cid % 2 ^ 47) with
    | some (key, x) => s.releaseWaiter cl key x
    | none => s
  else s

/-- Whether the queue that a join would push into has an entry free (R321). -/
def State.joinRoom (s : State) (a : Acc) (l : Line) (parent : Nat) : Bool :=
  let cl := clusterOf a.w.site
  let (_, bs) := s.readLines a.w frameCat (linesOf (parent + 8) 16)
  if leField bs 0 8 = 1 ∧ leField bs 8 8 ≠ 0 then
    match s.lineOfCid l.part l.kid (leField bs 8 8 % 2 ^ 47) with
    | some (_, x) => s.contFree (resumeCluster x cl) (contLevel x.prio)
    | none => true
  else true

/-- Step JOIN_COMPLETION (R304): the exit of a context with a frame; with live children it suspends as `sync` does. -/
def execJoinCompletion (m : Nat) (s : State) : Out :=
  homeArrival m s (fun a => a.k == .exitJoin) fun s₀ sl a =>
    let s := s₀.drop m
    match s.line? a.w.key with
    | none => s
    | some l =>
      if !(s.answers a.w) then s
      else if s.rdNat (a.ga + 8) 8 ≠ 0 then s.suspend sl a (some a.w.pc)
      else
        let refuse (x y z : Nat) : State := s.answerFault (.slice sl) a.w (frameFlt x y z) false false 0 none false
        let parent := s.rdNat a.ga 8
        match (s.part l.part).kernel? l.kid with
        | none => s
        | some k =>
          match s.probe a.w frameCat k.hdr.framebase 64 true with
          | .fault x y z => refuse x y z
          | .wait t => s₀.keepMsgs t
          | .ok s =>
            match (if parent = 0 then .ok s else s.probe a.w frameCat parent 64 true) with
            | .fault x y z => refuse x y z
            | .wait t => s₀.keepMsgs t
            | .ok s =>
              if parent ≠ 0 && !(s.joinRoom a l parent) then s₀
              else
                let (s, h) := s.readLines a.w frameCat (linesOf k.hdr.framebase 64)
                let s := (s.performWrite sl (s.via a) a (leBytes 8 (parseArena h).ffree)).1
                let s := s.poke a.w frameCat k.hdr.framebase (leBytes 8 a.va)
                let s := if parent = 0 then s else s.joinParent a l parent
                s.finishExit a.w.key

/-! ## Popping records (R297–R300) -/

/-- Whether a slot has nothing to issue from and may bind nothing: it finds no eligible line at its turn (R297). -/
def State.slotIdle (s : State) (site slot : Nat) : Bool :=
  (s.running? site slot).isNone && (s.eligible site).isEmpty && (s.core site).life == .active

/-- Whether a core may pop a record: a kernel slot hosts its kernel and its binding admits the core (R297). -/
def State.mayPop (s : State) (site : Nat) (r : Cont) : Bool :=
  ((s.core site).slotOf r.part r.kid).isSome && bindAdmits r.bindCode r.bindUnit site

/-- The oldest record at the highest level of a cluster that a core may pop, with its level and place. -/
def State.poppable (s : State) (cl site : Nat) : Option (Nat × Nat × Cont) :=
  [3, 2, 1, 0].findSome? fun lvl =>
    let q := (s.cl cl).level lvl
    match q.findIdx? (s.mayPop site) with
    | none => none
    | some i => (q[i]?).map fun r => (lvl, i, r)

/-- A record leaves its level, and the oldest that has spilled comes on-chip (R321). -/
def State.dropCont (s : State) (cl lvl i : Nat) : State :=
  let q := ((s.cl cl).level lvl).eraseIdx i
  let put (s : State) (q : List Cont) : State :=
    s.modCl cl fun c => { c with conts := if q.isEmpty then tdel c.conts lvl else tset c.conts lvl q }
  match q[contChip - 1]? with
  | none => put s q
  | some r =>
    let (s, r) := s.unspill (s.partOfCl cl) cl lvl r
    put s (q.set (contChip - 1) r)

/-- Whether a core may pop at a slot's turn: at most one record in each issue cycle (R297). -/
def State.popTurn (s : State) (c k : Nat) : Bool := s.slot == k && s.slotIdle c k && (s.core c).lastPop != some s.cycle

/-- A context record for a popped continuation (R294, R298): its index, and the writes of the header that take it. -/
def State.allocRecord (s : State) (k : Kernel) (w : Who) : Probe (State × Option (Nat × Nat × List Byte)) :=
  if k.hdr.framesize < 64 then .ok (s, none)
  else
    match s.pull w frameCat k.hdr.framebase 64 with
    | .fault x y z => .fault x y z
    | .wait s => .wait s
    | .ok (s, bs) =>
      match s.probe w frameCat k.hdr.framebase 64 true with
      | .fault x y z => .fault x y z
      | .wait s => .wait s
      | .ok s =>
        let h := parseArena bs
        if h.cfree ≠ 0 then
          match s.pullWord w frameCat h.cfree with
          | .fault x y z => .fault x y z
          | .wait s => .wait s
          | .ok (s, next) => .ok (s, some ((h.cfree - k.hdr.ctxbase) / 768, 0x10, leBytes 8 next))
        else if h.cbump < k.hdr.ctxlim then .ok (s, some (h.cbump, 0x18, leBytes 4 (h.cbump + 1)))
        else .ok (s, none)

/-- Step CONTINUATION_POP (R297, R298): the core that pops a record materialises its context in its own L1, or the record is
consumed by a fault; with no context record free it stays at its level's head. -/
def execContinuationPop (c k : Nat) (s : State) : Out :=
  let cl := clusterOf c
  if !(s.popTurn c k) then .next s
  else
    match s.poppable cl c with
    | none => .next s
    | some (lvl, i, r) =>
      if r.resume then .next s
      else
        match (s.part r.part).kernel? r.kid with
        | none => .next (s.dropCont cl lvl i)
        | some ker =>
          let w := ker.who c
          let done (s : State) : State := (s.dropCont cl lvl i).modCore c fun x => { x with lastPop := some s.cycle }
          -- the context counts at its anchor already, so a fault lowers the counts of one that becomes LOST
          let fail (s : State) (x y z : Nat) : State :=
            (s.modNode r.part r.kid r.anchor fun n =>
              if n.standIn then n else { n with live := n.live - 1, untrig := if r.trg then n.untrig else n.untrig - 1 }).birthFault
                ker r.anchor c x y z
          -- the place in the L1 first: an exited victim's record joins the free list that the allocation reads
          match s.makeRoom c r.part r.kid ker.hdr.prio with
          | .error t => .next t
          | .ok v =>
            match v.allocRecord ker w with
            | .fault x y z => .next (fail (done v) x y z)
            | .wait t => .next (s.keepMsgs t)
            | .ok (_, none) => .next s
            | .ok (t, some (idx, at_, bytes)) =>
              let b : Birth :=
                { pc := W (r.tgt / 2 * 2), wid := r.wid, link := W r.fp, anchor := r.anchor, trg := r.trg, bindCode := r.bindCode,
                  bindUnit := r.bindUnit, place := .l1 c, seeded := false, by_ := c }
              let t := t.poke w frameCat (ker.hdr.framebase + at_) bytes
              match t.materialise ker idx b with
              | .fault x y z => .next (fail (done t) x y z)
              | .wait u => .next (s.keepMsgs u)
              | .ok t => .next (done t)

/-- Step RESUME_RECORD_POP (R299): the named line moves into the popping core's L1 if it is still READY and unbound; otherwise
the record is discarded.  DEDUCED, log entry 30. -/
def execResumeRecordPop (c k : Nat) (s : State) : Out :=
  let cl := clusterOf c
  if !(s.popTurn c k) then .next s
  else
    match s.poppable cl c with
    | none => .next s
    | some (lvl, i, r) =>
      if !r.resume then .next s
      else
        let done (s : State) : State := (s.dropCont cl lvl i).modCore c fun x => { x with lastPop := some s.cycle }
        match s.lineOfCid r.part r.kid r.tgt with
        | none => .next (done s)
        | some (key, l) =>
          if l.bound.isSome || !l.isReady then .next (done s)
          else
            match s.makeRoom c l.part l.kid (l.effPrio s.gtime) with
            | .error t => .next t
            | .ok t => .next ((done t).moveLine key { t.landIn l (clusterOf c) with place := .l1 c, touched := false })

/-- Step RECORD_STEAL (R300): a cluster with an idle slot of a core and no record for it asks the nearest cluster of its partition, the lower
one of two as near, which gives its oldest record away when it holds at least two that the core may pop.
DEDUCED, log entry 5; DEDUCED, log entry 66. -/
def execRecordSteal (cl : Nat) (s : State) : Out :=
  let others := (s.part (s.partOfCl cl)).clusters.filter fun d => d != cl
  match (sortBy (hops cl) others).head? with
  | none => .next s
  | some d =>
    let count (c : Nat) : Nat := ([3, 2, 1, 0].flatMap fun lvl => ((s.cl d).level lvl).filter (s.mayPop c)).length
    let wants (c : Nat) : Bool := (List.range 8).any (s.slotIdle c) && (s.poppable cl c).isNone && decide (2 ≤ count c)
    match ((List.range 16).map (siteOf cl)).find? wants with
    | none => .next s
    | some c =>
      match s.poppable d c with
      | none => .next s
      | some (lvl, i, r) =>
        if s.contFree cl lvl then .next ((s.dropCont d lvl i).pushCont cl lvl { r with since := s.gtime }) else .next s

/-- Step RECORD_AGING (R297): a record that has waited 100 µs at one level moves to the tail of the next higher level.
DEDUCED, log entry 67. -/
def execRecordAging (cl lvl : Nat) (s : State) : Out :=
  if 3 ≤ lvl then .next s
  else
    match ((s.cl cl).level lvl).findIdx? fun r => decide (r.since + agingNs ≤ s.gtime) with
    | none => .next s
    | some i =>
      match ((s.cl cl).level lvl)[i]? with
      | some r =>
        if s.contFree cl (lvl + 1) then .next ((s.dropCont cl lvl i).pushCont cl (lvl + 1) { r with since := s.gtime }) else .next s
      | none => .next s

end Sys2Proof.Machine
end

