-- ==== Sys2Proof/Machine/Barrier.lean ====
section
/-! DEFINITION. Barriers (R329–R344): the barrier unit, the instructions, byte arrivals, the group exchange. -/

namespace Sys2Proof.Machine

/-! ## The barrier file -/

/-- A barrier of a core by its place in the file. -/
def Core.bar (c : Core) (i : Nat) : Bar := tgetD c.bars i Bar.uninit

/-- A barrier changed in place. -/
def State.modBar (s : State) (site i : Nat) (f : Bar → Bar) : State :=
  s.modCore site fun c => { c with bars := tset c.bars i (f (c.bar i)) }

/-- The ranks of the operations on a barrier within one issue cycle: notifications, byte arrivals, instructions by slot (R331). -/
def rankNotif : Nat := 0
/-- A byte arrival. -/
def rankBytes : Nat := 1
/-- An instruction of a slot. -/
def rankSlot (slot : Nat) : Nat := 2 + slot

/-- Whether an operation of a rank may still be applied to a barrier in this issue cycle: none of a higher rank has been (R331). -/
def State.barTurn (s : State) (site i rank : Nat) : Bool :=
  let x := tgetD (s.core site).barSeen i (0, 0)
  !(x.1 == s.cycle + 1 && decide (rank < x.2))

/-- An operation of a rank is applied to a barrier in this issue cycle (R331). -/
def State.noteBar (s : State) (site i rank : Nat) : State :=
  s.modCore site fun c => { c with barSeen := tset c.barSeen i (s.cycle + 1, rank) }

/-- Whether an arrival that has waited may be applied in this issue cycle: after the instructions of lower slots (R331). -/
def State.arriveTurn (s : State) (site i slot : Nat) : Bool :=
  s.barTurn site i (rankSlot slot) && ((s.core site).turnAt == some s.cycle || decide (slot ≤ s.slot))

/-- Entries of a waiter table (R330). -/
def waiterSize : Nat := 1024

/-- The kernel slot and place of a barrier that a message names: the kernel's slot at the core, and its number (R341).
DEDUCED, log entry 69. -/
def State.barPlace (s : State) (site part kid b : Nat) : Option Nat :=
  let c := s.core site
  match c.slotOf part kid with
  | none => none
  | some k =>
    let x := c.ks.getD k KSlot.reset
    if b < x.barShare then some (x.barBase + b) else none

/-- The barrier number that a kernel sees for a place in the file. -/
def Core.barNo (c : Core) (i : Nat) : Nat :=
  match c.ks.find? fun k => k.kid.isSome && decide (k.barBase ≤ i) && decide (i < k.barBase + k.barShare) with
  | some k => i - k.barBase
  | none => i

/-! ## The barrier unit (R331, R341) -/

/-- The phase advances, and completions leave for the waiters, in table order (R331). -/
def State.advancePhase (s : State) (site i : Nat) : State :=
  let s := s.modBar site i fun b => { b with phase := (b.phase + 1) % 2 ^ 16 }
  let c := s.core site
  let s := (c.waiters.filter fun w => w.b == i).foldl
    (fun s w => s.send (.core site) (.line w.key) vnReply (.barDone w.key (c.barNo i) w.v w.aw (c.bar i).group)) s
  s.modCore site fun c => { c with waiters := c.waiters.filter fun w => w.b != i }

/-- The rounds of an exchange: ⌈log2 GN⌉ (R341). -/
def Bar.rounds (b : Bar) : Nat := if b.gn ≤ 1 then 0 else Nat.log2 (b.gn - 1) + 1

/-- The round bits of the current phase's parity. -/
def Bar.rcv (b : Bar) : Nat := if b.phase % 2 = 0 then b.rcv0 else b.rcv1

/-- The round bits of a parity replaced. -/
def Bar.setRcv (b : Bar) (parity v : Nat) : Bar := if parity = 0 then { b with rcv0 := v } else { b with rcv1 := v }

/-- A round's notification leaves for the member GI + 2^k (R341); a member that names no core, or one of another partition,
answers as an error (R344, R381). -/
def State.notify (s : State) (site i : Nat) : State :=
  let c := s.core site
  let b := c.bar i
  let m := b.members.getD ((b.gi + 2 ^ b.round) % b.gn) 0
  let kid := ((c.ks.find? fun k => decide (k.barBase ≤ i) && decide (i < k.barBase + k.barShare)).bind (·.kid)).getD 0
  let n : Notif :=
    { kid := kid, b := c.barNo i, round := b.round, parity := b.phase % 2, from_ := s.logical site, fromPeer := none,
      to_ := if m.testBit 18 then some (fld m 12 6, fld m 0 12) else none }
  if m.testBit 18 then
    if s.peerRoute (fld m 12 6) then s.send (.core site) (.port (fld m 12 6)) vnControl (.notif site n)
    else s.send (.port 0) (.core site) vnReply (.notifNet site n)
  else
    match s.siteOfLogical (fld m 0 12) with
    | some dst =>
      if s.inPart (s.partOf site) dst then s.send (.core site) (.core dst) vnControl (.notif dst n)
      else s.send (.port 0) (.core site) vnReply (.notifNet site n)
    | none => s.send (.port 0) (.core site) vnReply (.notifNet site n)

/-- TryComplete and the rounds it starts (R331, R341): phases complete one after the other while they can. -/
def State.tryComplete (fuel : Nat) (s : State) (site i : Nat) : State :=
  match fuel with
  | 0 => s
  | fuel + 1 =>
    let b := (s.core site).bar i
    if b.state ≠ 1 then s
    else if b.loc then
      if b.round < b.rounds then
        let s := if b.sent then s else (s.notify site i).modBar site i fun b => { b with sent := true }
        if b.rcv.testBit b.round then
          (s.modBar site i fun b => { b with round := b.round + 1, sent := false }).tryComplete fuel site i
        else s
      else
        let s := s.modBar site i fun b => { b.setRcv (b.phase % 2) 0 with loc := false, round := 0, sent := false }
        (s.advancePhase site i).tryComplete fuel site i
    else if b.expa ≤ b.arra ∧ b.expbc ≤ b.arrb then
      if b.thr ∧ 2 ≤ (b.phase + 2 ^ 16 - b.lp) % 2 ^ 16 then s.modBar site i fun b => { b with blk := true }
      else
        let s := s.modBar site i fun b =>
          { b with blk := false, arra := b.arra - b.expa, arrb := b.arrb - b.expbc, expbc := b.expb }
        if b.group then (s.modBar site i fun b => { b with loc := true, round := 0, sent := false }).tryComplete fuel site i
        else (s.advancePhase site i).tryComplete fuel site i
    else s

/-- The barrier unit runs until nothing completes: each phase takes an arrival or a byte, and at most 14 rounds. -/
def State.runBar (s : State) (site i : Nat) : State :=
  let b := (s.core site).bar i
  s.tryComplete (16 * (b.arra + b.arrb + 2)) site i

/-- Consumers that have passed LP let it advance (R333). -/
def Bar.passLp (fuel : Nat) (b : Bar) : Bar :=
  match fuel with
  | 0 => b
  | fuel + 1 =>
    if b.ack0 = b.ncons then
      ({ b with lp := (b.lp + 1) % 2 ^ 16, ack0 := b.ack1, ack1 := 0 } : Bar).passLp fuel
    else b

/-- A consumer is counted (R333). -/
def Bar.consume (b : Bar) (v : Nat) : Bar :=
  let b :=
    if v = (b.lp + 1) % 2 ^ 16 then { b with ack0 := (b.ack0 + 1) % 2 ^ 8 }
    else if v = (b.lp + 2) % 2 ^ 16 then { b with ack1 := (b.ack1 + 1) % 2 ^ 8 }
    else b
  b.passLp 3

/-! ## Faults and waiters -/

/-- A BAR fault of the core's checks; its rule names no address. -/
def State.barFault (s : State) (e : Env) (sub : Nat) : State := s.raiseOpen e 0x09 sub kBarrier 0xF

/-- A fault that ends a wait at a barrier: FADDR names the barrier and the phase (R342). -/
def barFlt (sub b v : Nat) : Flt := { cls := 0x09, sub := sub, kind := kBarrier, size := 0xF, faddr := W (b * 2 ^ 16 + v) }

/-- A context waits at a barrier, or finds the waiter table full (R330, R338).  DEDUCED, log entry 69. -/
def State.waitBar (s : State) (w : Who) (i b v : Nat) (aw : Bool) : State :=
  let c := s.core w.site
  if c.waiters.length < waiterSize then
    (s.setCore w.site { c with waiters := c.waiters ++ [{ key := w.key, b := i, v := v, aw := aw }] }).modLine w.key fun l =>
      { l with wt := mkWt 2 (b * 2 ^ 22 + v), waitFrom := s.gtime, pend := none }
  else s.faultAt w (barFlt 0x09 b v) true

/-- Every waiter of a barrier receives a fault answer (R342, R344). -/
def State.faultWaiters (s : State) (site i sub : Nat) : State :=
  let c := s.core site
  let s := (c.waiters.filter fun w => w.b == i).foldl (fun s x =>
    match s.line? x.key with
    | none => s
    | some l =>
      let w : Who :=
        { key := x.key, gen := l.gen, site := site, slot := l.lastSlot, ks := 0, part := l.part, asid := l.asid, priv := l.priv,
          pc := l.ipc, enc := l.ienc, len := l.ilen }
      s.answerFault (.core site) w (barFlt sub (c.barNo i) x.v) false false 0 none false) s
  s.modCore site fun c => { c with waiters := c.waiters.filter fun w => w.b != i }

/-- A barrier becomes INVALID and its waiters fault (R340, R344). -/
def State.invalidateBar (s : State) (site i sub : Nat) : State :=
  (s.modBar site i fun b =>
    { b with state := 2, blk := false, loc := false, rcv0 := 0, rcv1 := 0, round := 0, sent := false }).faultWaiters site i sub

/-! ## Configuration (R334, R335) -/

/-- The form of a barrier instruction: guarded, with the share check of R329.  DEDUCED, log entry 69. -/
def State.barOp (s : State) (g : Guard) (j : BNum) (f : Env → Nat → Bar → State) : Out :=
  guarded g s fun e =>
    let k := e.kslot
    if k.barShare ≤ j.val then s.barFault e 0x0A
    else f e (k.barBase + j.val) (e.core.bar (k.barBase + j.val))

/-- A group table is being read for a barrier (R335). -/
def State.barReading (s : State) (e : Env) (b : Nat) : Bool :=
  s.net.any fun y => match y.body with
    | .req w _ (.groupTable x) _ _ => w.site == e.site && w.ks == e.ks && x == b
    | .acc a | .hostReq _ _ a | .bisnp _ _ (some a) => a.w.site == e.site && a.w.ks == e.ks && a.k == .groupTable b
    | _ => false

/-- A barrier that becomes ACTIVE (R335). -/
def Bar.activate (b : Bar) (group thr : Bool) (expa expb ncons gn gi gtab : Nat) (members : List Nat) : Bar :=
  { b with
    state := 1, group := group, thr := thr, blk := false, loc := false, expa := expa, arra := 0, expb := expb, expbc := expb,
    arrb := 0, ncons := ncons, lp := b.phase, ack0 := 0, ack1 := 0, gn := gn, gi := gi, gtab := gtab, members := members,
    rcv0 := if b.state = 2 then 0 else b.rcv0, rcv1 := if b.state = 2 then 0 else b.rcv1, round := 0, sent := false }

/-- The local configuration word's rules (R334, R335).  DEDUCED, log entry 69. -/
def localConfigOk (v : Word) : Bool :=
  let thr := v.getLsbD 62
  let ncons := wfld v 48 8
  wfld v 56 6 == 0 && (if thr then decide (1 ≤ ncons) else ncons == 0) && (wfld v 0 16 != 0 || wfld v 16 32 != 0)

/-- `bar.init b, ra` (R334, R335). -/
def execBarInit (g : Guard) (j : BNum) (a : Reg) (s : State) : Out :=
  s.barOp g j fun e i b =>
    let v := e.reg a
    if b.state = 1 ∨ s.barReading e j.val then s.barFault e 0x04
    else if v.getLsbD 63 then
      if wfld v 54 9 ≠ 0 ∨ wfld v 0 6 ≠ 0 then s.barFault e 0x03
      else
        let ea := wfld v 6 48 * 64
        s.issueReq (e.trace s.gtime 3 ea) ea (.groupTable j.val)
    else if localConfigOk v then
      ((s.put (e.adv 4)).noteBar e.site i (rankSlot e.slot)).modBar e.site i fun b => b.activate false (v.getLsbD 62) (wfld v 0 16) (wfld v 16 32) (wfld v 48 8) 0 0 0 []
    else s.barFault e 0x03

/-- The members of a group table (R334). -/
def tableMembers (bs : List Byte) (gn : Nat) : List Nat := (List.range gn).map fun i => leField bs (8 + 4 * i) 4

/-- The rules of a group table, with this core's member index (R335). -/
def tableIndex (ms : List Nat) (core expa expb : Nat) : Option Nat :=
  let ok := ms.all fun m => fld m 19 13 == 0 && (m.testBit 18 || fld m 12 6 == 0)
  let mine := (List.range ms.length).filter fun i => ms.getD i 0 == core
  if ok && distinct ms && (expa != 0 || expb != 0) && mine.length == 1 then mine.head? else none

/-- Step GROUP_TABLE_READ (R334, R335): the table answers, its checks are made and the barrier becomes ACTIVE; the read acquires at
device scope. -/
def execGroupTableRead (m : Nat) (s : State) : Out :=
  homeArrival m s
    (fun a => match a.k with
      | .groupTable _ => true
      | _ => false)
    fun s₀ sl a =>
      let s := s₀.drop m
      let refuse (cls sub : Nat) (faddr : Word) (kind size : Nat) : State :=
        s.answerFault (.slice sl) a.w { cls := cls, sub := sub, kind := kind, size := size, faddr := faddr } false false 0 none false
      let bad : State := ({ s with free := s.free + 1 }).answerFault (.slice sl) a.w
        { cls := 0x09, sub := 0x03, kind := kBarrier, size := 0xF, faddr := Config.freeWord s.free } false false 0 none false
      match a.k with
      | .groupTable b =>
        match s.pull a.w .record a.va 8 with
        | .fault x y z => refuse x y (W z) kLoad 3
        | .wait t => s₀.keepMsgs t
        | .ok (t, head) =>
          let gn := leField head 0 2
          if gn = 0 ∨ 4096 < gn then bad
          else
            match t.pull a.w .record a.va (8 + 4 * gn) with
            | .fault x y z => refuse x y (W z) kLoad 3
            | .wait t => s₀.keepMsgs t
            | .ok (t, bs) =>
              let ms := tableMembers bs gn
              let expa := leField bs 2 2
              let expb := leField bs 4 4
              match tableIndex ms (s.logical a.w.site) expa expb with
              | none => bad
              | some gi =>
                if !(s.answers a.w) then s
                else
                  let k := (s.core a.w.site).ks.getD a.w.ks KSlot.reset
                  let i := k.barBase + b
                  ((t.noteBar a.w.site i (rankSlot a.w.slot)).modBar a.w.site i fun x =>
                    x.activate true false expa expb 0 gn gi (a.va / 64) ms).reply sl a.w Answer.none true
      | _ => s

/-! ## Arrivals (R337, R338) -/

/-- An arrival, after its release wait: its last checks, the arrival itself, and the wait of `bar.aw` and `dbar`. -/
def State.arrive (s : State) (w : Who) (a : Arrive) : State :=
  let k := (s.core w.site).ks.getD w.ks KSlot.reset
  let i := k.barBase + a.b
  let b := (s.core w.site).bar i
  let fail (sub : Nat) : State :=
    ({ s with free := s.free + 1 }).faultAt w { cls := 0x09, sub := sub, kind := kBarrier, size := 0xF, faddr := Config.freeWord s.free } true
  if b.state ≠ 1 then fail 0x01
  else if a.waits ∧ b.group ≠ a.group then fail 0x05
  else if 2 ^ 16 ≤ b.arra + a.arrivals ∨ 2 ^ 32 ≤ b.arrb + a.bytes then fail 0x07
  else
    let s := ((s.noteBar w.site i (rankSlot w.slot)).modBar w.site i fun b => { b with arra := b.arra + a.arrivals, arrb := b.arrb + a.bytes }).runBar w.site i
    if a.waits then
      let s := s.modLine w.key fun l => (l.setTsw 8 6 a.b).setTsw 3 1 1
      if ((s.core w.site).bar i).phase = b.phase then s.waitBar w i a.b b.phase true
      else
        let s := (s.modLine w.key fun l => l.setTsw 3 1 0).makeReady w.key
        if b.group then s.acquires w.key else s
    else s.makeReady w.key

/-- The checks of an arrival that its core makes at once, and then its release wait (R337). -/
def State.arrival (s : State) (e : Env) (b : Bar) (a : Arrive) : State :=
  if b.state ≠ 1 then s.barFault e 0x01
  else if a.waits ∧ b.group ≠ a.group then s.barFault e 0x05
  else s.issueWait e 1 [.pwc] (.arrive a)

/-- `bar.arv b` (R337). -/
def execBarArv (g : Guard) (j : BNum) (s : State) : Out :=
  s.barOp g j fun e _ b => s.arrival e b { b := j.val, arrivals := 1, bytes := 0, waits := false, group := false }

/-- `bar.arvb b, ra` (R337). -/
def execBarArvb (g : Guard) (j : BNum) (a : Reg) (s : State) : Out :=
  s.barOp g j fun e _ b =>
    if wfld (e.reg a) 32 32 ≠ 0 then s.barFault e 0x06
    else s.arrival e b { b := j.val, arrivals := 0, bytes := wfld (e.reg a) 0 32, waits := false, group := false }

/-- `bar.aw` and `dbar` (R337, R338): a replay after a deadline only waits. -/
def State.arriveWait (s : State) (g : Guard) (j : BNum) (group : Bool) : Out :=
  s.barOp g j fun e i b =>
    if e.line.ap && e.line.abar == j.val then
      if b.state ≠ 1 then s.barFault e 0x01
      else if b.group ≠ group then s.barFault e 0x05
      else
        let v := wfld e.line.faddr 0 16
        let s' := (s.put ((e.note s).adv 4)).noteBar e.site i (rankSlot e.slot)
        if b.phase = v then s'.waitBar (s.who e) i j.val v true
        else
          let t := s'.modLine e.key fun l => l.setTsw 3 1 0
          if b.group then t.acquires e.key else t
    else s.arrival e b { b := j.val, arrivals := 1, bytes := 0, waits := true, group := group }

/-- `bar.aw b` (R337, R338). -/
def execBarAw (g : Guard) (j : BNum) (s : State) : Out := s.arriveWait g j false

/-- `dbar b` (R337, R338). -/
def execDbar (g : Guard) (j : BNum) (s : State) : Out := s.arriveWait g j true

/-! ## The other instructions (R339, R340) -/

/-- `bar.exp b, ra` (R340). -/
def execBarExp (g : Guard) (j : BNum) (a : Reg) (s : State) : Out :=
  s.barOp g j fun e i b =>
    let n := wfld (e.reg a) 0 32
    if wfld (e.reg a) 32 32 ≠ 0 then s.barFault e 0x06
    else if b.state ≠ 1 then s.barFault e 0x01
    else if 2 ^ 32 ≤ b.expbc + n then s.barFault e 0x07
    else (((s.put (e.adv 4)).noteBar e.site i (rankSlot e.slot)).modBar e.site i fun b => { b with expbc := b.expbc + n }).runBar e.site i

/-- `bar.wait b, ra` (R339). -/
def execBarWait (g : Guard) (j : BNum) (a : Reg) (s : State) : Out :=
  s.barOp g j fun e i b =>
    let v := wfld (e.reg a) 0 16
    if wfld (e.reg a) 17 47 ≠ 0 then s.barFault e 0x06
    else if b.state ≠ 1 then s.barFault e 0x01
    else if b.phase = v ∧ waiterSize ≤ e.core.waiters.length then s.barFault e 0x09
    else
      let s' := (s.put ((e.note s).adv 4)).noteBar e.site i (rankSlot e.slot)
      let s' := if b.thr && (e.reg a).getLsbD 16 then (s'.modBar e.site i fun b => b.consume v).runBar e.site i else s'
      if ((s'.core e.site).bar i).phase = v then s'.waitBar (s.who e) i j.val v false
      else if b.group then s'.acquires e.key
      else s'

/-- What `bar.test` reads (R340). -/
def Bar.testWord (b : Bar) : Word :=
  W (b2n b.blk * 2 ^ 36 + b2n b.thr * 2 ^ 35 + b2n b.group * 2 ^ 34 + b.state * 2 ^ 32 + b.arra * 2 ^ 16 + b.phase)

/-- `bar.test rd, b` (R340): on a group barrier it may show a new phase, which is an acquire at device scope. -/
def execBarTest (g : Guard) (j : BNum) (d : Reg) (s : State) : Out :=
  s.barOp g j fun e i b =>
    let t := (s.put (e.commit s.cycle 4 d b.testWord)).noteBar e.site i (rankSlot e.slot)
    if b.group then t.acquires e.key else t

/-- `bar.inv b` (R340). -/
def execBarInv (g : Guard) (j : BNum) (s : State) : Out :=
  s.barOp g j fun e i _ => ((s.put (e.adv 4)).noteBar e.site i (rankSlot e.slot)).invalidateBar e.site i 0x08

/-! ## Steps of the device -/

/-- Step BARRIER_COMPLETION (R68, R331): it ends a wait of kind 2 on that barrier and phase, and clears AP for a `bar.aw`; the end of
a wait on a group barrier is an acquire at device scope or wider (R339). -/
def execBarrierCompletion (m : Nat) (s : State) : Out :=
  match s.find? m with
  | some (.barDone key b v aw grp) =>
    let s := s.drop m
    match s.line? key with
    | some l =>
      if l.life == .live && l.wtKind == 2 && l.waitBar == b && l.waitPhase == v then
        let s := (s.setLine key (if aw then l.setTsw 3 1 0 else l)).makeReady key
        .next (if grp then s.acquires key else s)
      else .next s
    | none => .next s
  | _ => .next s

/-- A stray notification is dropped and reported with context ID 0 (R341, R342).
DEDUCED, log entry 61; DEDUCED, log entry 70. -/
def State.strayNotif (s : State) (site : Nat) (n : Notif) : State :=
  let faddr := W (n.kid * 2 ^ 48 + b2n n.fromPeer.isSome * 2 ^ 47 + n.fromPeer.getD 0 * 2 ^ 40 + n.round * 2 ^ 32 + n.parity * 2 ^ 31 +
    n.b * 2 ^ 16 + n.from_ % 2 ^ 12)
  s.report site (s.partOf site) 0x09 0 { cls := 0x09, sub := 0x0B, kind := kBarrier, size := 0xF, faddr := faddr }

/-- A notification reaches a core that serves: a round bit is set and the exchange goes on, or it is stray; none where an operation
of a higher rank has been applied to the barrier in this issue cycle (R331, R341). -/
def State.takeNotif (s : State) (site : Nat) (n : Notif) : Option State :=
  match s.barPlace site (s.partOf site) n.kid n.b with
  | none => some (s.strayNotif site n)
  | some i =>
    if !(s.barTurn site i rankNotif) then none
    else
      let s := s.noteBar site i rankNotif
      if ((s.core site).bar i).state = 2 then some (s.strayNotif site n)
      else
        let set (b : Bar) : Bar := b.setRcv n.parity ((if n.parity = 0 then b.rcv0 else b.rcv1) ||| 2 ^ n.round)
        some ((s.modBar site i set).runBar site i)

/-- A message of a Troty port for a partition that is being switched: it is ejected at the port's router while that has room for 64, and then
receives NET 0x03 (R387).  DESIGN CHOICE, log entry 62. -/
def State.ejectPeer (s : State) (p dev : Nat) (b : Body) : State :=
  let port (y : Msg) : Bool := match y.src with
    | .port _ => true
    | _ => false
  if 64 ≤ ((s.part p).reinject.filter port).length then s.send .regulator (.port dev) vnReply (.peerAnswer 0x03 [])
  else
    let dst : Node := match b with
      | .notif site _ => .core site
      | _ => .placer p
    let y : Msg := { id := s.nextId, src := .port dev, dst := dst, vn := vnControl, body := b }
    let t : State := { s with nextId := s.nextId + 1 }
    t.modPart p fun x => { x with reinject := x.reinject ++ [y] }

/-- A notification that a member on a Troty peer sends: it names its receiver by logical core number; one for a partition that is being
switched is ejected, one to a contained core is answered with NET, and one that comes late in an issue cycle waits for the next (R331,
R341, R344).  DEDUCED, log entry 70. -/
def State.peerNotif (s : State) (x : PeerNotif) : State :=
  match s.siteOfLogical x.to_ with
  | none => s
  | some site =>
    let n : Notif :=
      { kid := x.kid, b := x.b, round := x.round, parity := x.parity % 2, from_ := x.from_, fromPeer := some (x.dev % 64), to_ := none }
    if !(s.peerRoute x.dev) then s
    else if (s.part (s.partOf site)).gsstat.toNat % 4 = 2 then s.ejectPeer (s.partOf site) x.dev (.notif site n)
    else if !(s.core site).serves then s.send (.core site) (.port x.dev) vnReply (.peerAnswer 0x01 [])
    else (s.takeNotif site n).getD (s.send (.port x.dev) (.core site) vnControl (.notif site n))

/-- A peer's NET reply to a notification of this device: it names the sending core and what the notification named (R344). -/
def State.peerNet (s : State) (x : PeerNotif) : State :=
  match s.siteOfLogical x.to_ with
  | none => s
  | some site =>
    s.send (.port x.dev) (.core site) vnReply (.notifNet site
      { kid := x.kid, b := x.b, round := x.round, parity := x.parity % 2, from_ := x.to_, fromPeer := none, to_ := some (x.dev % 64, x.from_) })

/-- Step NOTIFICATION (R341, R344): a round bit is set and the exchange goes on; one for a contained core comes back, one for
a peer leaves the package, and a peer's own, or its NET reply, arrives. -/
def execNotification (x : NotifFrom) (s : State) : Out :=
  match x with
  | .peer x => .next (s.peerNotif x)
  | .net x => .next (s.peerNet x)
  | .message m =>
    match s.msg? m with
    | some { src, body := .notif site n, .. } =>
      if n.to_.isSome then .next (s.drop m)
      else if !(s.core site).serves then
        match src with
        | .core c => .next ((s.drop m).send (.core site) (.core c) vnReply (.notifNet c n))
        | .port dev => .next ((s.drop m).send (.core site) (.port dev) vnReply (.peerAnswer 0x01 []))
        | _ => .next (s.drop m)
      else .next (((s.drop m).takeNotif site n).getD s)
    | _ => .next s

/-- Step NOTIFICATION_NET_REPLY (R344): a member is lost, so the sender's barrier becomes INVALID and its waiters fault.
DEDUCED, log entry 70. -/
def execNotificationNetReply (m : Nat) (s : State) : Out :=
  match s.find? m with
  | some (.notifNet site n) =>
    let s := s.drop m
    match s.barPlace site (s.partOf site) n.kid n.b with
    | some i => .next (s.invalidateBar site i 0x0C)
    | none => .next s
  | _ => .next s

/-- A report of a byte arrival, under the context ID of the copy's issuer; no context parks (R342).  DEDUCED, log entry 70. -/
def State.reportBytes (s : State) (site part cid sub b n : Nat) : State :=
  let f : Flt := { cls := 0x09, sub := sub, kind := kBarrier, size := 0xF, faddr := W (b * 2 ^ 16 + n % 2 ^ 16) }
  s.send (.core site) (.desc part) vnService
    (.msg { part := part, desc := 0x09, cid := cid, cause := mkCause 0#32 0 true false f, faddr := f.faddr, core := s.logical site,
            cookie := 0, record := none, key := none, priv := 2, svc := false })

/-- Step BYTE_ARRIVAL (R188, R331, R342): bytes of a copy are added to a barrier, or reported; they wait for the next issue cycle where
an instruction has reached the barrier in this one.  DEDUCED, log entry 70. -/
def execByteArrival (m : Nat) (s : State) : Out :=
  match s.find? m with
  | some (.bytes site part kid b n cid _) =>
    let t := s.drop m
    if !(s.core site).serves then .next t
    else
      match s.barPlace site part kid b with
      | none => .next (t.reportBytes site part cid 0x02 b n)
      | some i =>
        if !(s.barTurn site i rankBytes) then .next s
        else
        let s := t.noteBar site i rankBytes
        let x := (s.core site).bar i
        if x.state ≠ 1 then .next (s.reportBytes site part cid 0x02 b n)
        else if 2 ^ 32 ≤ x.arrb + n then .next (s.reportBytes site part cid 0x07 b n)
        else .next ((s.modBar site i fun x => { x with arrb := x.arrb + n }).runBar site i)
  | _ => .next s

end Sys2Proof.Machine
end

