-- ==== Sys2Proof/Machine/Copy.lean ====
section
/-! DEFINITION. The copy engine (R177, R184–R192) and `apndh`, which it carries (R262). -/

namespace Sys2Proof.Machine

/-! ## The option word (R186) -/

/-- MASK. -/
def optMask (o : Word) : Nat := wfld o 48 16
/-- BAR. -/
def optBar (o : Word) : Nat := wfld o 42 6
/-- BE. -/
def optBe (o : Word) : Bool := o.getLsbD 41
/-- SE. -/
def optSe (o : Word) : Bool := o.getLsbD 40
/-- SEM. -/
def optSem (o : Word) : Nat := wfld o 36 4
/-- CW. -/
def optCw (o : Word) : Bool := o.getLsbD 35
/-- IDX. -/
def optIdx (o : Word) : Nat := wfld o 26 6
/-- GPITCH or LEN. -/
def optPitch (o : Word) : Nat := wfld o 0 26

/-- The sites that a MASK names in a cluster (R17, R187). -/
def maskSites (cl mask : Nat) : List Nat := ((List.range 16).filter fun i => mask.testBit i).map (siteOf cl)

/-- Whether a copy multicasts. -/
def CpyOp.casts (o : CpyOp) : Bool := o == .g2t || o == .t2t
/-- Whether a copy addresses rows of global memory by a pitch. -/
def CpyOp.pitched (o : CpyOp) : Bool := o == .g2t || o == .t2g || o == .gat || o == .sca
/-- Whether a copy takes an index handle. -/
def CpyOp.indexed (o : CpyOp) : Bool := o == .gat || o == .sca
/-- Whether a copy writes global memory. -/
def CpyOp.toGlobal (o : CpyOp) : Bool := o == .t2g || o == .g2g || o == .sca
/-- Whether a copy reads out of a handle, which its reference count shows (R177). -/
def CpyOp.reads (o : CpyOp) : Bool := o == .t2g || o == .t2t || o == .sca || o == .apnd

/-- The handle a copy reads out of. -/
def Copy.source (c : Copy) : Option Nat := if c.op.reads then some (if c.op = .t2t then c.hA else c.h) else none

/-- The option-word errors of HANDLE 0x09 (R190); `g` says that rb is odd, `share` is the issuer's BSHARE.
DEDUCED, log entry 45. -/
def optBad (op : CpyOp) (o : Word) (odd : Bool) (share : Nat) : Bool :=
  wfld o 32 3 != 0 || (optMask o != 0 && !op.casts) || (optIdx o != 0 && !op.indexed) || (optPitch o != 0 && op == .t2t) ||
    (odd && optCw o) || (op == .g2g && optPitch o == 0) ||
    (op == .g2q && (optPitch o % 16 != 0 || optPitch o == 0 || decide (1024 < optPitch o))) || (optBe o && decide (share ≤ optBar o))

/-! ## Issue (R184, R185, R190) -/

/-- A handle that a copy names: UNDEF and STASH raise HANDLE 0x01, a SEALED destination HANDLE 0x02. -/
def copyHandle (x : Option Handle) (dest : Bool) : Except Nat Handle :=
  match x with
  | none => .error 0x01
  | some h =>
    match h.st with
    | .open_ => .ok h
    | .sealed_ => if dest then .error 0x02 else .ok h
    | .undef | .stash => .error 0x01

/-- The size of a handle's element in bytes, for alignment. -/
def Handle.eltBytes (h : Handle) : Nat := max 1 (eltBits h.fmt / 8)

/-- The check of R135 on a copy's address: ALIGN 0x04 for a misaligned one (R190). -/
def copyAddr (size align : Nat) (ea : Word) : Option Flt :=
  if !canonical ea then some (fltCanon kEngine size ea)
  else if ea.toNat % align ≠ 0 then some { cls := 0x03, sub := 0x04, kind := kEngine, size := size, faddr := ea }
  else none

/-- The operands of a copy as its form names them. -/
structure CopyArgs where
  op : CpyOp
  sc : Scope
  h : Nat
  hA : Nat
  ra : Option Word
  rd : Option Word
  b : Reg

/-- What the handles of a copy come to: the shape moved, and the alignment of its global rows; or a fault.
DEDUCED, log entry 44. -/
def copyHandles (e : Env) (x : CopyArgs) (own : Bool) : Except Nat (Handle × Nat) :=
  let k := e.kslot
  match x.op with
  | .g2g => .ok ({ st := .open_, offset := 0, rows := 0, cols := 0, fmt := 3, ttab := 0, pitch := 0, sbase := 0, scoff := 0, refs := 0, asid := 0 }, 1)
  | .g2q => .ok ({ st := .open_, offset := 0, rows := 0, cols := 0, fmt := 3, ttab := 0, pitch := 0, sbase := 0, scoff := 0, refs := 0, asid := 0 }, 16)
  | .t2t =>
    match copyHandle (k.handle x.hA) false, copyHandle (k.handle x.h) own with
    | .error n, _ => .error n
    | _, .error n => .error n
    | .ok a, .ok d => if a.rows ≠ d.rows ∨ a.cols ≠ d.cols ∨ a.fmt ≠ d.fmt then .error 0x06 else .ok (a, a.eltBytes)
  | .g2t =>
    match copyHandle (k.handle x.h) own with
    | .error n => .error n
    | .ok d => .ok (d, d.eltBytes)
  | .gat =>
    match copyHandle (k.handle x.h) true with
    | .error n => .error n
    | .ok d => .ok (d, d.eltBytes)
  | .t2g | .sca | .apnd =>
    match copyHandle (k.handle x.h) false with
    | .error n => .error n
    | .ok d => .ok (d, d.eltBytes)

/-- The index handle's rules (R185): OPEN or SEALED, FMT 1, an element for each row.  DEDUCED, log entry 45. -/
def copyIndex (e : Env) (x : CopyArgs) (rows : Nat) : Option Nat :=
  if !x.op.indexed then none
  else
    match copyHandle (e.kslot.handle (optIdx (e.reg x.b))) false with
    | .error n => some n
    | .ok i => if i.fmt ≠ 1 ∨ i.rows * i.cols < rows then some 0x09 else none

/-- The completion word's address (R190). -/
def copyCw (e : Env) (x : CopyArgs) : Option Flt :=
  if optCw (e.reg x.b) then copyAddr 3 8 (e.reg (Reg.succ x.b)) else none

/-- The class of the operation for the drains (R164). -/
def CpyOp.drain (o : CpyOp) (own : Bool) : OpClass :=
  if o.toGlobal then .gm else if o = .gat ∨ (o.casts ∧ own) then .ts else .other

/-- A copy instruction: the checks of R190, and then the wait for acceptance (R184).  DEDUCED, log entry 44. -/
def State.issueCopy (s : State) (x : CopyArgs) : Out :=
  withEnv s fun e =>
    let o := e.reg x.b
    let cl := clusterOf e.site
    let mask := optMask o
    let own := mask = 0 ∨ mask.testBit (localIdx e.site)
    let fail (sub : Nat) : State := s.raiseOpen e 0x08 sub kEngine 0xF
    match copyHandles e x own with
    | .error n =>
      match (x.ra.bind (copyAddr 0xF 1)).or (x.rd.bind (copyAddr 0xF 1)) with
      | some f => s.raise e f
      | none => fail n
    | .ok (shape, align) =>
      match (x.ra.bind (copyAddr 0xF align)).or (x.rd.bind (copyAddr 0xF align)) with
      | some f => s.raise e f
      | none =>
        match copyIndex e x shape.rows with
        | some n => fail n
        | none =>
          let reach := (maskSites cl mask).all fun c => s.enabled c && ((s.core c).slotOf e.line.part e.line.kid).isSome
          if optBad x.op o (x.b.val % 2 = 1) e.kslot.barShare ∨ (x.op.casts ∧ !reach) then fail 0x09
          else if x.op.pitched ∧ optPitch o % align ≠ 0 then s.raiseOpen e 0x03 0x04 kEngine 0xF
          else
            match copyCw e x with
            | some f => s.raise e f
            | none =>
              let w := s.who e
              let (id, s) := s.newOp
                { cls := x.op.drain own, copy := true, wenq := false, site := e.site, key := e.key, kid := e.line.kid,
                  dest := if (x.op.casts ∧ own) ∨ x.op = .gat then some (e.ks, x.h) else none, cl := cl }
              let c : Copy :=
                { id := id, who := w, op := x.op, sc := x.sc, h := x.h, hA := x.hA, src := (x.ra.getD 0#64).toNat,
                  dst := (x.rd.getD 0#64).toNat, opt := o,
                  cw := if optCw o then some (e.reg (Reg.succ x.b)).toNat else none, rows := shape.rows, cols := shape.cols,
                  fmt := shape.fmt, after := s.forkEdge e.key, cid := e.line.cid, started := false,
                  srcRead := false, moved := 0, buf := [], recv := [], err := none }
              let c := { c with after := c.after.filter fun i => i != id }
              (s.leave e 9).send (.core e.site) (.engine cl) regVn (.copyReq c)

/-- `cpy.g2t.scope h, [ra], rb` (R185). -/
def execCpyG2t (sc : Scope) (h : HNum) (a b : Reg) (s : State) : Out :=
  s.issueCopy { op := .g2t, sc := sc, h := h.val, hA := 0, ra := (s.env?.map fun e => e.reg a), rd := none, b := b }

/-- `cpy.t2g.scope [ra], h, rb` (R185). -/
def execCpyT2g (sc : Scope) (h : HNum) (a b : Reg) (s : State) : Out :=
  s.issueCopy { op := .t2g, sc := sc, h := h.val, hA := 0, ra := (s.env?.map fun e => e.reg a), rd := none, b := b }

/-- `cpy.t2t.scope h, hA, rb` (R185). -/
def execCpyT2t (sc : Scope) (h ha : HNum) (b : Reg) (s : State) : Out :=
  s.issueCopy { op := .t2t, sc := sc, h := h.val, hA := ha.val, ra := none, rd := none, b := b }

/-- `cpy.g2g.scope [rd], [ra], rb` (R185). -/
def execCpyG2g (sc : Scope) (d a b : Reg) (s : State) : Out :=
  s.issueCopy { op := .g2g, sc := sc, h := 0, hA := 0, ra := (s.env?.map fun e => e.reg a), rd := (s.env?.map fun e => e.reg d), b := b }

/-- `cpy.g2q.scope mqN, [ra], rb` (R185). -/
def execCpyG2q (sc : Scope) (q : Fin 4) (a b : Reg) (s : State) : Out :=
  s.issueCopy { op := .g2q, sc := sc, h := q.val, hA := 0, ra := (s.env?.map fun e => e.reg a), rd := none, b := b }

/-- `cpy.gat.scope h, [ra], rb` (R185). -/
def execCpyGat (sc : Scope) (h : HNum) (a b : Reg) (s : State) : Out :=
  s.issueCopy { op := .gat, sc := sc, h := h.val, hA := 0, ra := (s.env?.map fun e => e.reg a), rd := none, b := b }

/-- `cpy.sca.scope [ra], h, rb` (R185). -/
def execCpySca (sc : Scope) (h : HNum) (a b : Reg) (s : State) : Out :=
  s.issueCopy { op := .sca, sc := sc, h := h.val, hA := 0, ra := (s.env?.map fun e => e.reg a), rd := none, b := b }

/-- `apndh rd, [ra], h` (R262): the copy engine reads the payload and carries the append. -/
def execApndh (g : Guard) (h : HNum) (d a : Reg) (s : State) : Out :=
  guarded g s fun e =>
    match canonFault kAppend 0xF (e.reg a) with
    | some f => s.raise e f
    | none =>
      match copyHandle (e.kslot.handle h.val) false with
      | .error n => s.raiseOpen e 0x08 n kAppend 0xF
      | .ok x =>
        let n := x.rows * x.rowBytes
        if n % 8 ≠ 0 ∨ n < 8 ∨ 256 < n then s.raiseOpen e 0x08 0x05 kAppend 0xF
        else
          let e := (e.trace s.gtime 3 (e.reg a).toNat).at (e.reg a).toNat (.apnd (List.replicate n 0#8) d)
          let cl := clusterOf e.site
          let c : Copy :=
            { id := s.nextId, who := s.who e, op := .apnd, sc := .sys, h := h.val, hA := 0, src := (e.reg a).toNat, dst := d.val,
              opt := 0#64, cw := none, rows := x.rows, cols := x.cols, fmt := x.fmt, after := [], cid := e.line.cid, started := false, srcRead := false,
              moved := 0, buf := [], recv := [], err := none }
          (s.leave e 1).send (.core e.site) (.engine cl) regVn (.copyReq c)

/-! ## Acceptance and start (R184, R192) -/

/-- Entries of a copy engine's queue (R184). -/
def copyQueue : Nat := 32

/-- A handle's reference count changed (R177). -/
def State.modRefs (s : State) (site ks h : Nat) (f : Nat → Nat) : State :=
  s.modCore site fun c =>
    match (c.ks.getD ks KSlot.reset).handle h with
    | some x => c.setHandle ks h (some { x with refs := f x.refs })
    | none => c

/-- A request that waits for a cluster's engine: those of one cluster are taken strictly in arrival order, so that one held by a full
reference count or an unchecked row holds those behind it; a matrix request follows its core's earlier table writes (R226).
DESIGN CHOICE, log entry 102. -/
def State.engineMsg? (s : State) (m : Nat) : Option Msg :=
  match s.net.find? fun x => x.id == m with
  | none => none
  | some x =>
    let same (b : Body) : Bool := match b, x.body with
      | .copyReq _, .copyReq _ => true
      | .matReq _, .matReq _ => true
      | .ctbl site _ _, .matReq o => site == o.who.site
      | _, _ => false
    if s.net.any fun y => decide (y.id < m) && y.dst == x.dst && same y.body then none else some x

/-- Step COPY_ACCEPT (R177, R184, R207): the copy joins the queue and its context goes on; a source handle with 4,095 readers
or an unchecked row keeps it waiting. -/
def execCopyAccept (m : Nat) (s : State) : Out :=
  match s.engineMsg? m with
  | some { dst := .engine cl, body := .copyReq c, .. } =>
    let k := (s.core c.who.site).ks.getD c.who.ks KSlot.reset
    let src := c.source.bind k.handle
    let full := decide (copyQueue ≤ (s.cl cl).copies.length) || (src.any fun h => decide (4095 ≤ h.refs)) ||
      (c.source.any fun h => (s.cl cl).unchecked.any fun u => u.site == c.who.site && u.ks == c.who.ks && (u.h == h || u.epiH == some h))
    if full then .next s
    else
      let s := (s.drop m).modCl cl fun x => { x with copies := x.copies ++ [c] }
      let s := match c.source with
        | some h => s.modRefs c.who.site c.who.ks h (· + 1)
        | none => s
      .next (if c.op ≠ .apnd && s.answers c.who then s.decWait c.who.key else s)
  | _ => .next s

/-- Step COPY_START (R189, R192): the next accepted copy starts, in acceptance order, once the one before it has issued all its requests
and the issuer's writes before it are performed; a copy into a full metadata queue holds the engine.  DESIGN CHOICE, log entry 46. -/
def execCopyStart (cl : Nat) (s : State) : Out :=
  let c := s.cl cl
  match c.copies.find? fun x => !x.started with
  | none => .next s
  | some x =>
    let waits := x.after.any fun i => (tget s.ops i).isSome
    let held := c.copies.any fun y => y.started && !y.srcRead && y.err.isNone
    if waits || held then .next s
    else .next (s.setCl cl { c with copies := c.copies.map fun y => if y.id = x.id then { y with started := true } else y })

/-! ## Moving bytes -/

/-- The bytes of one row that a copy moves, and the bytes in all. -/
def Copy.rowBytes (c : Copy) : Nat := rowBytesOf c.cols c.fmt
/-- The bytes a copy moves from its source. -/
def Copy.total (c : Copy) : Nat := if c.op = .g2g ∨ c.op = .g2q then optPitch c.opt else c.rows * c.rowBytes

/-- Whether a copy has the form of a packet for a peer's aperture: one `cpy.g2g` of 64 bytes, 64-byte aligned (R320). -/
def Copy.packet (c : Copy) : Bool := c.op == .g2g && c.total == 64 && c.dst % 64 == 0

/-- The bytes of the next piece: at most 32 of one row, one entry of a metadata queue, or a packet (R189, R320).
DESIGN CHOICE, log entry 46. -/
def Copy.piece (c : Copy) : Nat :=
  if c.op = .g2q then 16
  else if c.packet then 64
  else if c.op = .g2g then min 32 (c.total - c.moved)
  else min 32 (c.rowBytes - c.moved % c.rowBytes)

/-- The scratch address of the next piece in a handle of the issuing core. -/
def Copy.scratchAt (c : Copy) (k : KSlot) (h : Nat) : Nat :=
  match k.handle h with
  | some x => k.rowAt x (c.moved / c.rowBytes) + c.moved % c.rowBytes
  | none => 0

/-- Element r of an index handle as a signed number (R185). -/
def indexOf (c : Core) (k : KSlot) (h r : Nat) : Int :=
  match k.handle h with
  | some x => signed 32 (leNat (memRead c.scratch (k.rowAt x (r / x.cols) + r % x.cols * 4) 4))
  | none => 0

/-- The global address of the next piece, as a 64-bit number (R185). -/
def Copy.globalAt (c : Copy) (core : Core) (k : KSlot) : Nat :=
  let row := c.moved / c.rowBytes
  let pitch := if optPitch c.opt = 0 ∧ !c.op.indexed then c.rowBytes else optPitch c.opt
  let n : Int := if c.op.indexed then indexOf core k (optIdx c.opt) row else row
  wrap 64 ((c.src : Int) + n * pitch + (c.moved % c.rowBytes : Nat))

/-- Bytes that a copy reads from global memory: at a narrow scope from a visitor copy of its die where there is one. -/
def State.copyRead (s : State) (w : Who) (sc : Scope) (va n : Nat) : Probe (State × List Byte) :=
  match s.pull w .engRead va n with
  | .fault a b c => .fault a b c
  | .wait s => .wait s
  | .ok (t, bs) =>
    if narrow sc then
      .ok (t, ((linesOf va n).map fun x =>
        let ga := (t.leafAt w .engRead x.1).2.ga x.1
        match tget t.visitors (vkey (ga / 64) (dieOf w.site)) with
        | some v => (v.2.drop (ga % 64)).take x.2
        | none => (bs.drop (x.1 - va)).take x.2).flatten)
    else .ok (t, bs)

/-- Whether every line of an engine's write can take one more pin: a count has four bits, and a 16th pin waits (R191). -/
def State.pinRoom (s : State) (w : Who) (c : Cat) (ls : List (Nat × Nat)) : Bool :=
  ls.all fun x => decide (s.pinCount ((s.leafAt w c x.1).2.ga x.1 / 64) < 15)

/-- The lines of an engine's write checked in address order; the first byte of the failing line is named.  `packet` is the whole of
a copy that may be a packet for a peer (R320).
DEDUCED, log entry 42; DEDUCED, log entry 51. -/
def State.engCheck (s : State) (w : Who) (c : Cat) (packet : List Byte) (ls : List (Nat × Nat)) : Except (Nat × Nat × Nat) State :=
  match ls with
  | [] => .ok s
  | (va, _) :: rest =>
    if 2 ^ 54 ≤ va then .error (0x04, 0x01, va)
    else
      match s.xlate w.part w.asid w.priv va c with
      | .error f => .error (f.1, f.2, va)
      | .ok (s, l) =>
        match s.placeVerdict w (.eng packet .sys) l (l.ga va) with
        | some f => .error (f.1, f.2, va)
        | none => s.engCheck w c packet rest

/-- A copy of a cluster changed in place. -/
def State.modCopy (s : State) (cl id : Nat) (f : Copy → Copy) : State :=
  s.modCl cl fun c => { c with copies := c.copies.map fun x => if x.id = id then f x else x }

/-- An error stops a copy (R190). -/
def State.copyFail (s : State) (cl id cls sub va : Nat) : State :=
  s.modCopy cl id fun x =>
    { x with err := x.err.or (some { cls := cls, sub := sub, kind := kEngine, size := 0xF, faddr := W va }) }

/-- The last source byte has been read: the source's count falls; a multicast leaves for its receivers, and an append for its
page (R177, R187, R262). -/
def State.copyReadDone (s : State) (cl : Nat) (c : Copy) : State :=
  let s := s.modCopy cl c.id fun x => { x with srcRead := true }
  let s := match c.source with
    | some h => s.modRefs c.who.site c.who.ks h (· - 1)
    | none => s
  if c.op = .apnd then
    let s := s.modCl cl fun x => { x with copies := x.copies.filter fun y => y.id != c.id }
    if s.answers c.who then s.sendReq c.who c.src (.apnd c.buf (Fin.ofNat 16 c.dst)) else s
  else if c.op.casts ∧ optMask c.opt ≠ 0 then
    (maskSites cl (optMask c.opt)).foldl (fun s dst =>
      s.send (.engine cl) (.core dst) regVn (.mcast cl c.id dst c.who c.h c.rows c.cols c.fmt c.buf)) s
  else s

/-- A piece has been moved. -/
def State.copyMoved (s : State) (cl : Nat) (c : Copy) (n : Nat) (buf : List Byte) : State :=
  let c := { c with moved := c.moved + n, buf := buf }
  let s := s.modCopy cl c.id fun x => { x with moved := c.moved, buf := c.buf }
  if c.total ≤ c.moved then s.copyReadDone cl c else s

/-- The bytes of a piece reach their destination (R185). -/
def State.copyDeliver (s : State) (cl : Nat) (c : Copy) (bs : List Byte) : State :=
  let core := s.core c.who.site
  let k := core.ks.getD c.who.ks KSlot.reset
  let toScratch : State :=
    (s.modCore c.who.site fun x => { x with scratch := memWrite x.scratch (c.scratchAt k c.h) bs }).copyMoved cl c bs.length []
  let toGlobal (va : Nat) : State :=
    let cat := Cat.engWrite (c.sc == .recov)
    match s.engCheck c.who cat (if c.packet then bs else []) (linesOf va bs.length) with
    | .error f => s.copyFail cl c.id f.1 f.2.1 f.2.2
    | .ok t =>
      if t.pinRoom c.who cat (linesOf va bs.length) then (t.sendWrites c.who cat va bs c.sc c.id).copyMoved cl c bs.length [] else s
  match c.op with
  | .g2t | .t2t => if optMask c.opt = 0 then toScratch else s.copyMoved cl c bs.length (c.buf ++ bs)
  | .gat => toScratch
  | .t2g | .sca => toGlobal (c.globalAt core k)
  | .g2g => toGlobal (c.dst + c.moved)
  | .g2q => (s.modCl cl fun x => { x with mqueues := tset x.mqueues c.h (tgetD x.mqueues c.h [] ++ [bs]) }).copyMoved cl c bs.length []
  | .apnd => s.copyMoved cl c bs.length (c.buf ++ bs)

/-- Entries of a metadata queue (R200). -/
def metaSize : Nat := 64

/-- Whether the row of a handle that a copy reads next is unchecked: no unchecked data leaves the core (R216). -/
def State.rowUnchecked (s : State) (cl : Nat) (c : Copy) : Bool :=
  c.source.any fun h => (s.cl cl).unchecked.any fun u =>
    u.site == c.who.site && u.ks == c.who.ks && (u.h == h || u.epiH == some h) && u.row == c.moved / c.rowBytes

/-- Step SOURCE_READ_COMPLETE (R177, R189, R192, R216, R322): a started copy reads its next piece and passes it on, once a row of its source
that the matrix unit has written is checked; after the last source byte the source's count falls.  DESIGN CHOICE, log entry 46. -/
def execSourceReadComplete (cl id : Nat) (s : State) : Out :=
  match (s.cl cl).copies.find? fun x => x.id == id with
  | none => .next s
  | some c =>
    if !c.started || c.srcRead || c.err.isSome || s.rowUnchecked cl c then .next s
    else
      let core := s.core c.who.site
      let k := core.ks.getD c.who.ks KSlot.reset
      let pull (va : Nat) : Out :=
        match s.copyRead c.who c.sc va c.piece with
        | .fault a b x => .next (s.copyFail cl id a b x)
        | .wait t => .next (s.keepMsgs t)
        | .ok (t, bs) => .next (t.copyDeliver cl c bs)
      match c.op with
      | .g2t | .gat => pull (c.globalAt core k)
      | .g2g => pull (c.src + c.moved)
      | .g2q =>
        let first := (s.cl cl).copies.find? fun y => y.op == .g2q && y.h == c.h && !y.srcRead && y.err.isNone
        if metaSize ≤ (tgetD (s.cl cl).mqueues c.h []).length ∨ (first.map (·.id)) ≠ some id then .next s
        else pull (c.src + c.moved)
      | .t2g | .sca | .apnd => .next (s.copyDeliver cl c (memRead core.scratch (c.scratchAt k c.h) c.piece))
      | .t2t => .next (s.copyDeliver cl c (memRead core.scratch (c.scratchAt k c.hA) c.piece))

/-- The rows of a payload written at a handle's own place (R187). -/
def writeRows (k : KSlot) (h : Handle) (m : Mem) (data : List Byte) : Mem :=
  (List.range h.rows).foldl (fun m r => memWrite m (k.rowAt h r) ((data.drop (r * h.rowBytes)).take h.rowBytes)) m

/-- The record that follows a copy's fault message (R190), the one of a multicast's receiver too (R187; DEDUCED, log entry 91). -/
def Copy.record (c : Copy) (cid : Nat) : List Byte :=
  leBytes 8 c.moved ++ leBytes 8 c.opt.toNat ++ leBytes 4 c.who.enc.toNat ++ leBytes 4 0 ++ leBytes 8 cid

/-- Step MULTICAST_DELIVERY (R187, R198): a receiver checks its own handle and writes the bytes, or drops them and the issuer
hears of it; for a contained core it hears NET 0x01 (R393).  DESIGN CHOICE, log entry 46; DEDUCED, log entry 91. -/
def execMulticastDelivery (m : Nat) (s : State) : Out :=
  match s.msg? m with
  | some { body := .mcast cl id site w h rows cols fmt data, .. } =>
    let s := s.drop m
    let c := s.core site
    let copy := (s.cl cl).copies.find? fun x => x.id == id
    let kid := copy.bind fun x => (tget s.ops x.id).map (·.kid)
    let cid := (copy.map (·.cid)).getD 0
    if !c.serves then
      let f : Flt := { cls := 0x12, sub := 0x01, kind := kEngine, size := 0xF, faddr := W ((copy.map (·.src)).getD 0) }
      .next (s.answerFault (.engine cl) w f true false 0 (copy.map fun x => x.record cid) false)
    else
      let slot := kid.bind fun n => c.slotOf w.part n
      let ok := slot.bind fun i =>
        match (c.ks.getD i KSlot.reset).handle h with
        | some x => if x.st = .open_ ∧ x.rows = rows ∧ x.cols = cols ∧ x.fmt = fmt then some (i, x) else none
        | none => none
      match ok with
      | some (i, x) =>
        let s := s.modCore site fun c => { c with scratch := writeRows (c.ks.getD i KSlot.reset) x c.scratch data }
        .next (s.modCopy cl id fun y => { y with recv := y.recv ++ [site] })
      | none =>
        let f : Flt := { cls := 0x08, sub := 0x07, kind := kEngine, size := 0xF, faddr := W (s.logical site) }
        .next (s.answerFault (.engine cl) w f true false 0 (copy.map fun x => x.record cid) false)
  | _ => .next s

/-! ## The end of a copy (R188, R190) -/

/-- Whether a write of an operation is on its way or not yet performed at its scope. -/
def State.writing (s : State) (tok : Nat) : Bool :=
  s.net.any fun y => match y.body with
    | .acc b | .hostReq _ _ b | .bisnp _ _ (some b) => b.tok == tok && (match b.k with
        | .eng _ _ => true
        | _ => false)
    | .eack _ t _ _ _ _ => t == tok
    | _ => false

/-- Whether bytes of a multicast are on their way, or a receiver's failure has not been delivered. -/
def State.casting (s : State) (cl : Nat) (c : Copy) : Bool :=
  s.net.any fun y => match y.body with
    | .mcast n id _ _ _ _ _ _ _ => n == cl && id == c.id
    | .fault w f true _ _ _ _ => w == c.who && f.cls == 0x08 && f.sub == 0x07
    | _ => false

/-- Step COPY_COMPLETE (R188, R190): every byte is written, and the copy makes its BE, SE and CW signals; its completion waits until its
semaphore post is made and its completion word is performed, or the fault of that write has been delivered.  The destination of
`cpy.g2q` is neither scratch nor global memory: its BE tells the issuing core's barrier the bytes in all.
DESIGN CHOICE, log entry 101. -/
def execCopyComplete (cl id : Nat) (s : State) : Out :=
  match (s.cl cl).copies.find? fun x => x.id == id with
  | none => .next s
  | some c =>
    if !c.srcRead || c.err.isSome || s.writing id || s.casting cl c then .next s
    else
      let s := s.modCl cl fun x => { x with copies := x.copies.filter fun y => y.id != id }
      let kid := ((tget s.ops id).map (·.kid)).getD 0
      let dsts := if c.op.casts ∧ optMask c.opt ≠ 0 then c.recv else [c.who.site]
      let s := if optBe c.opt then
          dsts.foldl (fun s site => s.send (.engine cl) (.core site) regVn
            (.bytes site c.who.part kid (optBar c.opt) c.total c.cid id)) s
        else s
      let s := match c.cw with
        | some va => s.send (.engine cl) (.slice ((s.part c.who.part).tslice c.who.asid va)) regVn (.req c.who va (.engAdd c.sc 0) id false)
        | none => s
      let s := if optSe c.opt then s.send (.engine cl) (.engine cl) vnControl (.semPost cl (optSem c.opt) id) else s
      .next (s.doneOp id)

/-- Step COPY_ERROR (R190): a copy that met an error stops without a completion signal; it counts in its drain until its fault
has been delivered. -/
def execCopyError (cl id : Nat) (s : State) : Out :=
  match (s.cl cl).copies.find? fun x => x.id == id with
  | none => .next s
  | some c =>
    match c.err with
    | none => .next s
    | some f =>
      let s := s.modCl cl fun x => { x with copies := x.copies.filter fun y => y.id != id }
      let s := match c.source with
        | some h => if c.srcRead then s else s.modRefs c.who.site c.who.ks h (· - 1)
        | none => s
      .next (s.answerFault (.engine cl) c.who f (c.op != .apnd) false id (if c.op = .apnd then none else some (c.record c.cid)) false)

/-- The add of 1 to a completion word at its home, and its acknowledgement (R188).  DEDUCED, log entry 47. -/
def State.performCw (s : State) (sl via : Nat) (a : Acc) (sc : Scope) : State :=
  let (s, bs) := s.homeRead a.w.site a 8
  let (s, grp) := s.performWrite sl via a (leBytes 8 (leNat bs + 1))
  s.send (.slice sl) (.engine (clusterOf a.w.site)) vnReply
    (.eack a.w a.tok grp (narrow sc) (if sc = .recov && a.leaf.durable then some (partner (dieOfCl sl)) else none) true)

end Sys2Proof.Machine
end

