-- ==== Sys2Proof/Machine/TileVec.lean ====
section
/-! DEFINITION. The tile vector unit of a core (R193–R197). -/

namespace Sys2Proof.Machine

/-! ## Elements (R174, R175, R195) -/

/-- Whether an element format is an integer one. -/
def isIntFmt (fmt : Nat) : Bool := decide (fmt < 4)

/-- The floating-point format of a code of R174; integer and block formats do not reach it. -/
def fmtOfCode (fmt : Nat) : Fmt :=
  match fmt with
  | 4 => fmtF64
  | 5 => fmtF32
  | 6 => fmtBF16
  | 7 => fmtF16
  | 8 => fmtE4M3
  | _ => fmtE5M2

/-- The bits of element (r, c) of a handle in a scratchpad (R175). -/
def elemAt (m : Mem) (k : KSlot) (h : Handle) (r c : Nat) : Nat :=
  if h.fmt = 10 then (memGet m (k.rowAt h r + c / 2)).toNat / 2 ^ (4 * (c % 2)) % 16
  else leNat (memRead m (k.rowAt h r + c * (eltBits h.fmt / 8)) (eltBits h.fmt / 8))

/-- The elements of a row. -/
def rowElems (m : Mem) (k : KSlot) (h : Handle) (r : Nat) : List Nat := (List.range h.cols).map (elemAt m k h r)

/-- The bytes of a row of elements. -/
def rowOf (fmt : Nat) (l : List Nat) : List Byte := leBytes (l.length * eltBits fmt / 8) (packNat (eltBits fmt) l)

/-- The scratch address of the scale record of the block that holds element (r, c) (R175). -/
def scaleAddr (k : KSlot) (h : Handle) (r c : Nat) : Nat := k.winBase + h.scoff + 2 * (r * (h.cols / 32) + c / 32)

/-- That scale record. -/
def scaleAt (m : Mem) (k : KSlot) (h : Handle) (r c : Nat) : ScaleRec := scaleRec (leNat (memRead m (scaleAddr k h r c) 2))

/-- One element of an element-wise operation (R195): a of hA, b of hB, d of hD. -/
def tvElem (k : TvKind) (fmt : Nat) (rm : Round) (a b d : Nat) : Nat × Flags :=
  let w := eltBits fmt
  let f := fmtOfCode fmt
  let t := if fmt = 6 then LaneType.bf16 else LaneType.f32
  if k = .sel then (if d ≠ 0 then a else b, Flags.none)
  else if isIntFmt fmt then
    (match k with
      | .add => (a + b) % 2 ^ w
      | .sub => wrap w ((a : Int) - b)
      | .mul | .scale => a * b % 2 ^ w
      | .fma => (a * b + d) % 2 ^ w
      | .min => minS w a b
      | .max => maxS w a b
      | .abs => wrap w (signed w a).natAbs
      | .sel | .exp2 | .rcp | .cvt | .red | .bcast | .trans => a, Flags.none)
  else
    match k with
    | .add => fpAdd f rm a b
    | .sub => fpSub f rm a b
    | .mul => fpMul f rm a b
    | .scale => fpMul f .rne a b
    | .fma => fpFused f rm false false a b d
    | .min => fpMinMax f false a b
    | .max => fpMinMax f true a b
    | .abs => (a % 2 ^ (w - 1), Flags.none)
    | .exp2 => fpExp2 t a
    | .rcp => fpRcp t a
    | .sel | .cvt | .red | .bcast | .trans => (a, Flags.none)

/-! ## Reductions (R101) -/

/-- The operator of `tv.red` on two elements; additions round RNE. -/
def redElem (o : RedOp) (fmt : Nat) (a b : Nat) : Nat × Flags :=
  match o with
  | .add => tvElem .add fmt .rne a b 0
  | .min => tvElem .min fmt .rne a b 0
  | .max => tvElem .max fmt .rne a b 0

/-- Neighbours combined: one level of the tree. -/
def pairUp (f : Nat → Nat → Nat × Flags) (l : List Nat) : List Nat × Flags :=
  match l with
  | a :: b :: rest =>
    let r := f a b
    let rs := pairUp f rest
    (r.1 :: rs.1, r.2.or rs.2)
  | [a] => ([a], Flags.none)
  | [] => ([], Flags.none)

/-- Tree of R101: the levels 2^0, 2^1, … combine neighbours of the level below; `fuel` bounds the levels.
DEDUCED, log entry 48. -/
def tree (f : Nat → Nat → Nat × Flags) (fuel : Nat) (l : List Nat) : Nat × Flags :=
  match fuel with
  | 0 => (l.headD 0, Flags.none)
  | fuel + 1 =>
    match l with
    | [] => (0, Flags.none)
    | [a] => (a, Flags.none)
    | l =>
      let r := pairUp f l
      let t := tree f fuel r.1
      (t.1, r.2.or t.2)

/-- A list cut into parts of `n`; `fuel` bounds their number. -/
def cut {α : Type} (n fuel : Nat) (l : List α) : List (List α) :=
  match fuel with
  | 0 => []
  | fuel + 1 =>
    match l with
    | [] => []
    | l => l.take n :: cut n fuel (l.drop n)

/-- Levels enough for 8,192 elements. -/
def treeFuel : Nat := 14

/-- RowReduce of R101.  DEDUCED, log entry 48. -/
def rowReduce (o : RedOp) (fmt : Nat) (row : List Nat) : Nat × Flags :=
  let parts := (cut (1024 / eltBits fmt) row.length row).map (tree (redElem o fmt) treeFuel)
  let t := tree (redElem o fmt) treeFuel (parts.map (·.1))
  (t.1, (Flags.all (parts.map (·.2))).or t.2)

/-! ## Conversions (R89–R97, R196) -/

/-- The value of an element in a format. -/
def elemValue (fmt x : Nat) : FVal := if isIntFmt fmt then .fin (Dyad.ofInt (signed (eltBits fmt) x)) else (fmtOfCode fmt).value x

/-- One element of `tv.cvt`: `sa` and `sd` are the scale records of the source's and the destination's blocks. -/
def tvCvtElem (src dst : Nat) (r : Rounding) (tab : List T3Entry) (sa sd : ScaleRec) (x : Nat) : Nat × Flags :=
  let v := if src = 10 then elementValue sa tab x else elemValue src x
  if dst = 10 then toBlockCode sd tab r v
  else if isIntFmt dst then
    let w := eltBits dst
    if isIntFmt src then (wrap w (clamp (sMin w) (sMax w) (signed (eltBits src) x)), Flags.none)
    else
      match r with
      | .field rm => fpToInt false w rm v
      | .sr _ => fpToInt false w .rne v
  else (fmtOfCode dst).convert (decide (8 ≤ dst)) r v

/-- The elements of a row converted, the LFSR stepped once per element when `sr` (R88, R89). -/
def cvtRow (f : Rounding → Nat → Nat × Flags) (rm : Round) (sr : Bool) (l : BitVec 32) (cols : List Nat) :
    List (Nat × Flags) × BitVec 32 :=
  match cols with
  | [] => ([], l)
  | c :: rest =>
    let r := f (if sr then .sr l else .field rm) c
    let (rs, l') := cvtRow f rm sr (if sr then lfsrStep l else l) rest
    (r :: rs, l')

/-! ## The result of an operation -/

/-- The rows of `tv.cvt` from row `r` on, with the flags and the LFSR afterwards. -/
def cvtRows (m : Mem) (k : KSlot) (o : TvOp) (hd ha : Handle) (rows : List Nat) (l : BitVec 32) :
    List (List Nat) × Flags × BitVec 32 :=
  match rows with
  | [] => ([], Flags.none, l)
  | r :: rest =>
    let one (rd : Rounding) (c : Nat) : Nat × Flags :=
      tvCvtElem ha.fmt hd.fmt rd o.tab (scaleAt m k ha r c) (scaleAt m k hd r c) (elemAt m k ha r c)
    let (xs, l) := cvtRow one o.rm o.sr l (List.range ha.cols)
    let (more, f, l) := cvtRows m k o hd ha rest l
    (xs.map (·.1) :: more, (Flags.all (xs.map (·.2))).or f, l)

/-- The elements of hD row by row, the flags and the LFSR afterwards (R195, R196).  DEDUCED, log entry 48. -/
def tvResult (m : Mem) (k : KSlot) (o : TvOp) (hd ha hb : Handle) (l : BitVec 32) : List (List Nat) × Flags × BitVec 32 :=
  let rows := List.range hd.rows
  let cols := List.range hd.cols
  let plain (f : Nat → Nat → Nat × Flags) : List (List Nat) × Flags × BitVec 32 :=
    let x := rows.map fun r => cols.map (f r)
    (x.map fun r => r.map (·.1), Flags.all (x.flatten.map (·.2)), l)
  match o.k with
  | .add | .sub | .mul | .fma | .min | .max | .sel =>
    plain fun r c => tvElem o.k hd.fmt o.rm (elemAt m k ha r c) (elemAt m k hb r c) (elemAt m k hd r c)
  | .abs | .exp2 | .rcp => plain fun r c => tvElem o.k hd.fmt o.rm (elemAt m k ha r c) 0 0
  | .scale => plain fun r c => tvElem .scale hd.fmt o.rm (elemAt m k ha r c) (elemAt m k hb 0 c) 0
  | .bcast => plain fun _ c => (elemAt m k ha 0 (if ha.cols = 1 then 0 else c), Flags.none)
  | .trans => plain fun r c => (elemAt m k ha c r, Flags.none)
  | .cvt => cvtRows m k o hd ha rows l
  | .red =>
    let each := (List.range ha.rows).map fun r => rowReduce o.red ha.fmt (rowElems m k ha r)
    let f := Flags.all (each.map (·.2))
    if o.all then
      let t := tree (redElem o.red ha.fmt) treeFuel (each.map (·.1))
      ([[t.1]], f.or t.2, l)
    else (each.map fun x => [x.1], f, l)

/-- Whether an operation reads handle hB. -/
def TvKind.two (k : TvKind) : Bool :=
  match k with
  | .add | .sub | .mul | .fma | .min | .max | .sel | .scale => true
  | .abs | .exp2 | .rcp | .cvt | .red | .bcast | .trans => false

/-- Whether an operation never raises a flag. -/
def TvKind.flagless (k : TvKind) : Bool :=
  match k with
  | .abs | .bcast | .trans | .sel => true
  | .add | .sub | .mul | .fma | .min | .max | .exp2 | .rcp | .cvt | .red | .scale => false

/-! ## Issue (R194–R196) -/

/-- A format error of R194 (HANDLE 0x08).  DEDUCED, log entry 45. -/
def tvFormatBad (k : TvKind) (rm : Round) (sr : Bool) (hd ha hb : Handle) : Bool :=
  let same := ha.fmt == hd.fmt && (!k.two || hb.fmt == hd.fmt)
  match k with
  | .add | .sub | .mul | .fma | .min | .max | .abs | .sel | .scale =>
    !same || decide (8 ≤ hd.fmt) || (isIntFmt hd.fmt && rm != .rne)
  | .exp2 | .rcp => !same || (hd.fmt != 5 && hd.fmt != 6)
  | .red => !same || decide (8 ≤ hd.fmt)
  | .bcast => !same
  | .trans => !same || hd.fmt == 10
  | .cvt =>
    (ha.fmt == 10 && (hd.fmt == 10 || isIntFmt hd.fmt)) || (hd.fmt == 10 && isIntFmt ha.fmt) ||
      (isIntFmt ha.fmt && isIntFmt hd.fmt && rm != .rne) ||
      (sr && (rm != .rne || !(hd.fmt == 6 || decide (8 ≤ hd.fmt))))

/-- A shape error (HANDLE 0x06).  DEDUCED, log entry 45. -/
def tvShapeBad (k : TvKind) (all : Bool) (hd ha hb : Handle) : Bool :=
  let same (x : Handle) : Bool := x.rows == hd.rows && x.cols == hd.cols
  match k with
  | .add | .sub | .mul | .fma | .min | .max | .sel => !(same ha && same hb)
  | .abs | .exp2 | .rcp | .cvt => !same ha
  | .scale => !(same ha && hb.rows == 1 && hb.cols == hd.cols)
  | .red => if all then !(hd.rows == 1 && hd.cols == 1) else !(hd.rows == ha.rows && hd.cols == 1)
  | .bcast => !(ha.rows == 1 && (ha.cols == hd.cols || ha.cols == 1))
  | .trans => !(hd.rows == ha.cols && hd.cols == ha.rows)

/-- A handle of a tile vector operation: UNDEF raises HANDLE 0x01, a SEALED destination HANDLE 0x02 (R176, R194). -/
def tvHandle (x : Option Handle) (dest : Bool) : Except Nat Handle :=
  match x with
  | none => .error 0x01
  | some h =>
    match h.st with
    | .undef => .error 0x01
    | .sealed_ => if dest then .error 0x02 else .ok h
    | .open_ | .stash => .ok h

/-- The handles hD, hA and hB of an operation, hB standing for hA where it is not used.  DEDUCED, log entry 44. -/
def tvHandles (k : KSlot) (two : Bool) (hd ha hb : Nat) : Except Nat (Handle × Handle × Handle) :=
  match tvHandle (k.handle ha) false, (if two then tvHandle (k.handle hb) false else tvHandle (k.handle ha) false),
    tvHandle (k.handle hd) true with
  | .ok a, .ok b, .ok d => .ok (d, a, b)
  | .error n, _, _ => .error n
  | _, .error n, _ => .error n
  | _, _, .error n => .error n

/-- A tile vector instruction at its core (R194): the checks, the capture of a type 3 table (R95), and the wait. -/
def State.issueTv (s : State) (k : TvKind) (hd ha hb : Nat) (rm : Round := .rne) (sr : Bool := false) (red : RedOp := .add)
    (all : Bool := false) : Out :=
  withEnv s fun e =>
    let fail (sub : Nat) : State := s.raiseOpen e 0x08 sub kEngine 0xF
    match tvHandles e.kslot k.two hd ha hb with
    | .error n => fail n
    | .ok (d, a, b) =>
      if tvFormatBad k rm sr d a b then fail 0x08
      else if tvShapeBad k all d a b then fail 0x06
      else
        let no := if k = .cvt then (if a.fmt = 10 then some a.ttab else if d.fmt = 10 then some d.ttab else none) else none
        let cl := clusterOf e.site
        if no.any fun t => (s.cl cl).t3swap.contains t then s.awaitSwap e (no.getD 0)
        else
          let (id, s) := s.newOp { cls := .tv, copy := false, wenq := false, site := e.site, key := e.key, kid := e.line.kid, dest := some (e.ks, hd), cl := cl }
          let o : TvOp := { id := id, who := s.who e, k := k, rm := rm, sr := sr, red := red, all := all, d := hd, a := ha, b := hb,
                            hd := d, ha := a, hb := b, tab := (s.cl cl).table (no.getD 0), tabNo := no,
                            after := if [d, a, b].any fun h => h.st == .stash then s.forkEdge e.key else [] }
          (s.leave e 9).modCore e.site fun c => { c with tvq := c.tvq ++ [o] }

/-- `tv.add.rm hD, hA, hB` (R195). -/
def execTvAdd (r : Round) (hd ha hb : HNum) (s : State) : Out := s.issueTv .add hd.val ha.val hb.val (rm := r)
/-- `tv.sub.rm hD, hA, hB` (R195). -/
def execTvSub (r : Round) (hd ha hb : HNum) (s : State) : Out := s.issueTv .sub hd.val ha.val hb.val (rm := r)
/-- `tv.mul.rm hD, hA, hB` (R195). -/
def execTvMul (r : Round) (hd ha hb : HNum) (s : State) : Out := s.issueTv .mul hd.val ha.val hb.val (rm := r)
/-- `tv.fma.rm hD, hA, hB` (R195). -/
def execTvFma (r : Round) (hd ha hb : HNum) (s : State) : Out := s.issueTv .fma hd.val ha.val hb.val (rm := r)
/-- `tv.min.rm hD, hA, hB` (R195). -/
def execTvMin (r : Round) (hd ha hb : HNum) (s : State) : Out := s.issueTv .min hd.val ha.val hb.val (rm := r)
/-- `tv.max.rm hD, hA, hB` (R195). -/
def execTvMax (r : Round) (hd ha hb : HNum) (s : State) : Out := s.issueTv .max hd.val ha.val hb.val (rm := r)
/-- `tv.abs hD, hA` (R195). -/
def execTvAbs (hd ha : HNum) (s : State) : Out := s.issueTv .abs hd.val ha.val 0
/-- `tv.exp2 hD, hA` (R102, R195). -/
def execTvExp2 (hd ha : HNum) (s : State) : Out := s.issueTv .exp2 hd.val ha.val 0
/-- `tv.rcp hD, hA` (R102, R195). -/
def execTvRcp (hd ha : HNum) (s : State) : Out := s.issueTv .rcp hd.val ha.val 0
/-- `tv.cvt.rm hD, hA`, or `.sr` (R196). -/
def execTvCvt (r : Round) (sr : Bool) (hd ha : HNum) (s : State) : Out := s.issueTv .cvt hd.val ha.val 0 (rm := r) (sr := sr)
/-- `tv.red.op.axis hD, hA` (R101, R196). -/
def execTvRed (ro : RedOp) (all : Bool) (hd ha : HNum) (s : State) : Out := s.issueTv .red hd.val ha.val 0 (red := ro) (all := all)
/-- `tv.bcast hD, hA` (R196). -/
def execTvBcast (hd ha : HNum) (s : State) : Out := s.issueTv .bcast hd.val ha.val 0
/-- `tv.trans hD, hA` (R196). -/
def execTvTrans (hd ha : HNum) (s : State) : Out := s.issueTv .trans hd.val ha.val 0
/-- `tv.sel hD, hA, hB` (R195). -/
def execTvSel (hd ha hb : HNum) (s : State) : Out := s.issueTv .sel hd.val ha.val hb.val
/-- `tv.scale hD, hA, hB` (R195). -/
def execTvScale (hd ha hb : HNum) (s : State) : Out := s.issueTv .scale hd.val ha.val hb.val

/-! ## Stash lines of an operation (R179) -/

/-- The virtual addresses of the stash lines that a handle's rows lie in. -/
def Handle.stashVas (h : Handle) : List Nat :=
  if h.st = .stash then
    ((List.range h.rows).flatMap fun r =>
      let lo := h.sbase + r * h.pitch
      (List.range ((lo + h.rowBytes - 1) / 64 - lo / 64 + 1)).map fun i => (lo / 64 + i) * 64).eraseDups
  else []

/-- What a tile vector operation asks of a stash line, as a context's `ldh` or `sth` does (R142, R179). -/
def tvTouch (write : Bool) : ReqKind := if write then .sth 0#64 else .ldh 0

/-- One stash line of a handle made ready for an operation that reads or writes it (R142, R179): an absent one is filled, and one whose
page's permissions or bits do not admit the access goes through its slice again.  DEDUCED, log entry 47. -/
def State.tvLine (s : State) (w : Who) (h : Handle) (write : Bool) (va : Nat) : Probe State :=
  let w := { w with asid := h.asid }
  let here := (s.core w.site).stashLine h.asid va
  let c := (ReqKind.stashFill (tvTouch write)).cat
  if here.any fun x => !s.inLine x.ga && x.leaf.admits w (tvTouch write) && !(write && (tget s.hostHeld x.ga).isSome) then .ok s
  else
    match s.xlate w.part w.asid w.priv va c with
    | .error f => .fault f.1 f.2 va
    | .ok (s, l) =>
      if !stashClass l then .fault 0x05 0x12 va
      else if s.hostBias w.part (l.ga va) then .fault protBias.1 protBias.2 va
      else
        match s.probe w c va 64 write with
        | .fault a b x => .fault a b x
        | .wait s => .wait s
        | .ok s => match here with
          | some x => .ok (s.retagStash w.site x l).1
          | none => .ok (s.fillStash w.site w.ks h h.asid va (l.ga va) l).1

/-- The stash lines of a handle made ready in address order; a fault names the line (R179). -/
def State.fillLines (s : State) (w : Who) (h : Handle) (write : Bool) (vas : List Nat) : Probe State :=
  match vas with
  | [] => .ok s
  | va :: rest =>
    match s.tvLine w h write va with
    | .ok s => s.fillLines w h write rest
    | .fault a b x => .fault a b x
    | .wait s => .wait s

/-- The lines of several handles, each with whether the operation writes it. -/
def State.fillHandles (s : State) (w : Who) (hs : List (Handle × Bool)) : Probe State :=
  match hs with
  | [] => .ok s
  | h :: rest =>
    match s.fillLines w h.1 h.2 h.1.stashVas with
    | .ok s => s.fillHandles w rest
    | .fault a b x => .fault a b x
    | .wait s => .wait s

/-! ## Execution (R194, R196) -/

/-- A scale record with a reserved bit among those the operation reads (R97, R196). -/
def tvScaleBad (m : Mem) (k : KSlot) (o : TvOp) (hd ha : Handle) : Bool :=
  let bad (h : Handle) : Bool :=
    h.fmt == 10 && (List.range (h.rows * (h.cols / 32))).any fun i => (scaleAt m k h 0 (32 * i)).rsv != 0
  o.k == .cvt && (bad ha || bad hd)

/-- The byte ranges of a handle's rows, with its scale array. -/
def Handle.ranges (k : KSlot) (h : Handle) : List (Nat × Nat) :=
  (List.range h.rows).map (fun r => (k.rowAt h r, h.rowBytes)) ++
    (if h.fmt = 10 then [(k.winBase + h.scoff, h.rows * h.cols / 16)] else [])

/-- Whether a source with a number of its own shares bytes with hD (R194).  DESIGN CHOICE, log entry 43. -/
def tvOverlap (k : KSlot) (o : TvOp) (hd ha hb : Handle) : Bool :=
  let shares (n : Nat) (h : Handle) : Bool :=
    n != o.d && (h.ranges k).any fun x => (List.range hd.rows).any fun r => meets (k.rowAt hd r) hd.rowBytes x.1 x.2
  shares o.a ha || (o.k.two && shares o.b hb)

/-- The flags that five bits of a free value stand for.  DESIGN CHOICE, log entry 2; DESIGN CHOICE, log entry 43. -/
def freeFlags (x : Word) : Flags := ⟨x.getLsbD 4, x.getLsbD 3, x.getLsbD 2, x.getLsbD 1, x.getLsbD 0⟩

/-- An operation computed from the scratchpad as it stands; overlapping handles leave hD and the flags free (R194).
DESIGN CHOICE, log entry 2; DESIGN CHOICE, log entry 43. -/
def State.tvCompute (s : State) (site : Nat) (o : TvOp) (hd ha hb : Handle) : State :=
  let c := s.core site
  let k := c.ks.getD o.who.ks KSlot.reset
  let (rows, flags, l) := tvResult c.scratch k o hd ha hb c.lfsr
  if tvOverlap k o hd ha hb then
    let n := hd.rowBytes
    let writes := (List.range hd.rows).map fun r =>
      (k.rowAt hd r, (List.range n).map fun i => Config.freeByte (s.free + r * n + i))
    let f := if o.k.flagless then flags else freeFlags (Config.freeWord (s.free + hd.rows * n))
    ({ s with free := s.free + hd.rows * n + 1 }).setCore site { c with lfsr := l, tvRun := some { op := o, writes := writes, flags := f, again := [] } }
  else
    let writes := (rows.zipIdx).map fun x => (k.rowAt hd x.2, rowOf hd.fmt x.1)
    s.setCore site { c with lfsr := l, tvRun := some { op := o, writes := writes, flags := flags, again := [] } }

/-- An operation ends with a fault before any element is written: the context parks at the instruction (R179, R196).
DESIGN CHOICE, log entry 7. -/
def State.tvFault (s : State) (site : Nat) (o : TvOp) (f : Flt) : State :=
  (s.modCore site fun c => { c with tvq := c.tvq.drop 1 }).answerFault (.core site) o.who f false false o.id none false

/-- Clean lines that no stash keeps go once the operation has read them: those of HOST pages and of context lines (R70, R244). -/
def State.dropUnkept (s : State) (site : Nat) : State :=
  s.modCore site fun c => { c with stash := c.stash.filter fun x => x.dirty || s.stashKeeps x.leaf (x.ga * 64) }

/-- Step TV_START (R101, R179, R194–R197, R227, R425): the oldest operation of a core's unit starts while its cluster's account is
positive, one with a STASH handle after the writes that its issuer made before it; it fills the stash lines it needs, checks its scale
records, debits its estimate and computes.  DEDUCED, log entry 49. -/
def execTvStart (c : Nat) (s : State) : Out :=
  let core := s.core c
  match core.tvRun, core.tvq with
  | none, o :: _ =>
    if !core.serves || (o.after.any fun i => (tget s.ops i).isSome) || (s.cl (clusterOf c)).account == 0 then .next s
    else
      match s.fillHandles o.who (if o.k.two then [(o.ha, false), (o.hb, false), (o.hd, true)] else [(o.ha, false), (o.hd, true)]) with
      | .fault a b va => .next (s.tvFault c o { cls := a, sub := b, kind := kEngine, size := 0xF, faddr := W va })
      | .wait t => .next (s.keepMsgs t)
      | .ok t =>
        let k := (t.core c).ks.getD o.who.ks KSlot.reset
        if tvScaleBad (t.core c).scratch k o o.hd o.ha then
          .next (({ t with free := t.free + 1 }).tvFault c o
            { cls := 0x07, sub := 0x01, kind := kEngine, size := 0xF, faddr := Config.freeWord t.free })
        else .next ((((t.modCl (clusterOf c) fun x => x.debit o.id).modCore c fun x => { x with tvq := x.tvq.drop 1 }).tvCompute c o
          o.hd o.ha o.hb).dropUnkept c)
  | _, _ => .next s

/-- Bytes written through a STASH handle: the lines present are dirty and every other copy of them goes; a line
recalled meanwhile takes its bytes at its home (R180).  DEDUCED, log entry 47. -/
def State.stashRow (s : State) (w : Who) (h : Handle) (va : Nat) (data : List Byte) : State :=
  (linesOf va data.length).foldl (fun s x =>
    let bs := (data.drop (x.1 - va)).take x.2
    match (s.core w.site).stashLine h.asid x.1 with
    | some l =>
      let s := (s.recallStashes l.ga (some w.site) true).dropVisitors l.ga
      s.modCore w.site fun c =>
        { c with
          scratch := memWrite c.scratch (l.at_ + x.1 % 64) bs
          stash := c.stash.map fun y => if y.asid = l.asid ∧ y.va = l.va then { y with dirty := true } else y }
    | none => s.poke { w with asid := h.asid } (.store false false) x.1 bs) s

/-- The rows of a computed operation written into hD.  DEDUCED, log entry 47. -/
def State.writeTv (s : State) (c : Nat) (r : TvRun) : State :=
  let k := (s.core c).ks.getD r.op.who.ks KSlot.reset
  let h := r.op.hd
  r.writes.foldl (fun s x =>
    if h.st = .stash then s.stashRow r.op.who h (h.sbase + (x.1 - (k.winBase + h.offset))) x.2
    else s.modCore c fun y => { y with scratch := memWrite y.scratch x.1 x.2 }) s

/-- The lines of hD that a computed operation writes: those that the stash keeps are present and may be written, and the others' homes
are ready for the bytes (R179, R180).  DEDUCED, log entry 47. -/
def State.tvReady (s : State) (w : Who) (h : Handle) (vas : List Nat) : Probe State :=
  match vas with
  | [] => .ok s
  | va :: rest =>
    match s.tvLine w h true va with
    | .fault a b x => .fault a b x
    | .wait s => .wait s
    | .ok s =>
      match s.probe { w with asid := h.asid } (.store false false) va 64 true with
      | .ok s => (s.dropUnkept w.site).tvReady w h rest
      | .fault a b x => .fault a b x
      | .wait s => .wait s

/-- The residues of a beat of an operation differ (R194, R389, R390): the mismatch is logged and the beat is computed again, and a second
one of the same beat contains the core.  DESIGN CHOICE, log entry 18. -/
def State.tvMismatch (s : State) (c beat : Nat) (r : TvRun) : State :=
  let s := s.noteMismatch c { slot := some r.op.who.slot, unit_ := 2, at_ := r.op.who.pc.toNat }
  if r.again.contains beat then s.stopCore c else s.modCore c fun x => { x with tvRun := some { r with again := beat :: r.again } }

/-- Step TV_COMPLETE (R86, R100, R194, R390): the elements of hD are written, and the context goes on with the flags; its input says whether
the residues of a beat differ.  Lines of a stash that have gone meanwhile are filled again first, and their faults end the operation before
any element is written (R179). -/
def execTvComplete (x : TvEnd) (s : State) : Out :=
  let c := x.core
  match (s.core c).tvRun with
  | none => .next s
  | some r =>
    if x.upset then .next (s.tvMismatch c x.beat r)
    else
      match s.tvReady r.op.who r.op.hd r.op.hd.stashVas with
      | .fault a b va =>
        .next ((s.modCore c fun x => { x with tvRun := none }).answerFault (.core c) r.op.who
          { cls := a, sub := b, kind := kEngine, size := 0xF, faddr := W va } false false r.op.id none false)
      | .wait t => .next (s.keepMsgs t)
      | .ok t =>
        let t := (t.modCore c fun x => { x with tvRun := none }).writeTv c r
        .next ((t.send (.core c) (.line r.op.who.key) vnReply (.opDone r.op.who r.flags)).endOp r.op.id)

end Sys2Proof.Machine
end

