-- ==== Sys2Proof/Machine/Matrix.lean ====
section
/-! DEFINITION. The matrix unit of a cluster: its issue checks, its queue, passes, checks and the hold, epilogues, type 3
table swaps and semaphores (R94, R95, R98–R100, R200–R222, R441). -/

namespace Sys2Proof.Machine

/-! ## Formats and segments (R98, R204, R212) -/

/-- The plane count of a format code as A (R204). -/
def planesA (code : Nat) : Nat :=
  match code with
  | 0 => 4
  | 1 => 5
  | 2 | 4 => 8
  | 3 | 5 | 6 => 12
  | _ => 16

/-- The planes of a format code as B. -/
def planesB (code : Nat) : Nat := if code = 7 then 16 else 8

/-- The handle format that a code requires (R204). -/
def fmtOfMat (code : Nat) : Nat :=
  match code with
  | 0 | 1 | 2 | 3 => 10
  | 4 => 3
  | 5 => 8
  | 6 => 9
  | _ => 6

/-- Whether a code is a block format, whose code is its required block type. -/
def isBlock (code : Nat) : Bool := decide (code < 4)
/-- Whether a code's elements are integers (R98). -/
def isIntCode (code : Nat) : Bool := code == 0 || code == 4

/-- The exact value of an element before its block scale; none for a NaN or an infinity (R93, R99). -/
def matValue (code : Nat) (tab : List T3Entry) (x : Nat) : Option Dyad :=
  if isBlock code then some (codeValue code tab x)
  else if code = 4 then some (Dyad.ofInt (signed 8 x))
  else
    match (fmtOfCode (fmtOfMat code)).value x with
    | .fin d => some d
    | .inf _ | .nan _ => none

/-- AlignSeg of R98 on the values that are numbers. -/
def alignSeg (p : Nat) (isInt : Bool) (l : List (Option Dyad)) : List Int × Int :=
  let vals := l.map fun v => v.getD (Dyad.zero false)
  if isInt then (vals.map fun d => d.units 0, 0)
  else
    let tops := (vals.filter fun d => d.man != 0).map fun d => d.exp + (bitLen d.man : Int) - 1
    match tops with
    | [] => (vals.map fun _ => 0, 0)
    | t :: rest =>
      let q : Int := (p : Int) - 2
      let e := rest.foldl max t - q
      (vals.map fun d =>
        let m : Int := (d.roundAt .rne e).1
        if d.neg then -m else m, e)

/-- A segment: its A elements from `k0` to `k1`, the A and B blocks whose scales govern it (a group whose stored rows lie in two B
blocks has a B format without scales, R203), and per half the pairs of an A
element of the segment and a stored row. -/
structure Seg where
  k0 : Nat
  k1 : Nat
  ablk : Nat
  bblk : Nat
  half0 : List (Nat × Nat)
  half1 : List (Nat × Nat)
  deriving DecidableEq, Repr

/-- The pairs of a sparse half: set bits of the 48-bit mask within the segment, with their stored rows (R212). -/
def sparsePairs (mask g spn a k0 k1 : Nat) : List (Nat × Nat) :=
  ((List.range (k1 - k0)).filter fun i => mask.testBit (k0 - a + i)).map fun i => (i, g * spn + popCount (k0 - a + i) (mask % 2 ^ (k0 - a + i)))

/-- The segments of a row in increasing K (R98). -/
def segments (c : MCfg) (masks : List Nat) : List Seg :=
  if c.mode = 0 then
    (List.range ((c.kk + 31) / 32)).map fun i =>
      let k1 := min (32 * i + 32) c.kk
      let pairs := (List.range (k1 - 32 * i)).map fun j => (j, 32 * i + j)
      { k0 := 32 * i, k1 := k1, ablk := i, bblk := i, half0 := pairs, half1 := pairs }
  else
    (List.range (c.kk / 48)).flatMap fun g =>
      let a := 48 * g
      let mid := (a / 32 + 1) * 32
      let m := masks.getD g 0
      let seg (k0 k1 : Nat) : Seg :=
        { k0 := k0, k1 := k1, ablk := k0 / 32, bblk := g * c.spn / 32, half0 := sparsePairs (m % 2 ^ 48) g c.spn a k0 k1,
          half1 := sparsePairs (m / 2 ^ 48 % 2 ^ 48) g c.spn a k0 k1 }
      if mid < a + 48 then [seg a mid, seg mid (a + 48)] else [seg a (a + 48)]

/-! ## One pass (R98, R99, R211) -/

/-- A block of a column of the resident B: its exponent, whether a value is no number, and its scale record (R210). -/
structure BBlock where
  e : Int
  nan : Bool
  scale : ScaleRec
  deriving DecidableEq, Repr

/-- A column of the resident B: the aligned values of its stored rows, and its blocks. -/
structure BCol where
  cells : List Int
  blocks : List BBlock
  deriving DecidableEq, Repr

/-- The scale record that stands for a format without scales: 1. -/
def unitScale : ScaleRec := { type := 0, rsv := 0, e := 127, m := 0 }

/-- The columns of a resident B. -/
def ResB.columns (b : ResB) : List BCol :=
  (List.range b.cells.length).map fun n =>
    let nan := b.nans.getD n []
    let sc := b.scales.getD n []
    { cells := b.cells.getD n []
      blocks := ((b.exps.getD n []).zipIdx).map fun x =>
        { e := x.1, nan := nan.getD x.2 false, scale := if isBlock b.tag.bfmt then scaleRec (sc.getD x.2 0) else unitScale } }

/-- The columns of 8-bit cells of a half: those of its macros, and for 16-bit B the low bytes, unsigned, in half 0 and the high bytes,
signed, in half 1 (R200, R210). -/
def halfCells (bfmt : Nat) (cells : List (List Int)) (h : Nat) : List (List Int) :=
  if bfmt = 7 then cells.map fun col => col.map fun x => if h = 0 then x % 256 else x / 256
  else (cells.zipIdx.filter fun x => x.2 / 128 == h).map (·.1)

/-- The check column of a half: per stored row the sum of its cells mod 2^16, as a signed number (R210). -/
def checkColumn (bfmt : Nat) (cells : List (List Int)) (rows h : Nat) : List Int :=
  (List.range rows).map fun j => signed 16 (wrap 16 (sumInt ((halfCells bfmt cells h).map fun col => col.getD j 0)))

/-- The resident B that `mloadb` makes of a handle's columns of codes (R210): each block of 32 stored rows aligned, and the check
column. -/
def loadB (tag : BTag) (tab : List T3Entry) (cols scales : List (List Nat)) : ResB :=
  let vals := cols.map fun col => (cut 32 col.length col).map fun blk => blk.map (matValue tag.bfmt tab)
  let al := vals.map fun col => col.map (alignSeg (planesB tag.bfmt) (isIntCode tag.bfmt))
  let cells := al.map fun col => col.flatMap (·.1)
  { tag := tag, cells := cells, exps := al.map fun col => col.map (·.2)
    nans := vals.map fun col => col.map fun blk => blk.any fun v => v.isNone
    scales := scales
    check := [0, 1].map (checkColumn tag.bfmt cells ((cells.headD []).length)) }

/-- The exact product sum of a segment for one column, whose stored rows may lie in two blocks (R212). -/
def segDot (a b : List Int) (pairs : List (Nat × Nat)) : Int :=
  sumInt (pairs.map fun p => a.getD p.1 0 * b.getD p.2 0)

/-- One segment added into one accumulator element (R98, R99).  A segment that meets both what makes a NaN and a scale with E = 0 makes a
NaN.  DEDUCED, log entry 54. -/
def segAdd (i32 : Bool) (acc : Nat) (dot e : Int) (nan : Bool) (sa sb : ScaleRec) : Nat × Flags :=
  let none0 := sa.e == 0 || sb.e == 0
  let none255 := sa.e == 255 || sb.e == 255
  if i32 then (if none0 || none255 then acc else wrap 32 ((acc : Int) + dot), Flags.none)
  else if nan || none255 then (fmtF32.nanCode, Flags.invalid)
  else
    let d : Dyad := if none0 || dot = 0 then Dyad.zero false else
      ((⟨decide (dot < 0), dot.natAbs, e, false⟩ : Dyad).mul sa.scale).mul sb.scale
    let (v, f) := (fmtF32.value acc).add .rne (.fin d)
    let (c, g) := fmtF32.deliver .rne v
    (c, f.or g)

/-- A segment of A: the aligned values with their exponent, which of them are no numbers, and the scale record. -/
structure ASeg where
  a : List Int
  e : Int
  nans : List Bool
  scale : ScaleRec
  deriving DecidableEq, Repr

/-- The elements of one accumulator row after a segment; an element of A that a half's mask drops contributes nothing to that half, a NaN
neither (R99, R212). -/
def segRow (c : MCfg) (b : List BCol) (seg : Seg) (x : ASeg) (acc : List Nat) : List Nat × Flags :=
  let r := (List.zipWith (fun (y : Nat × Nat) (col : BCol) =>
    let blk := col.blocks.getD seg.bblk { e := 0, nan := false, scale := unitScale }
    let pairs := if y.2 < 128 then seg.half0 else seg.half1
    let nan := (pairs.any fun p => x.nans.getD p.1 false) || blk.nan
    segAdd (c.acc == 1) y.1 (segDot x.a col.cells pairs) (x.e + blk.e) nan x.scale blk.scale) acc.zipIdx b)
  (r.map (·.1), Flags.all (r.map (·.2)))

/-- The segments of a row of A, each with its elements aligned (R98). -/
def rowSegs (c : MCfg) (tab : List T3Entry) (masks row scales : List Nat) : List (Seg × ASeg) :=
  let vals := row.map (matValue c.afmt tab)
  (segments c masks).map fun seg =>
    let part := (vals.drop seg.k0).take (seg.k1 - seg.k0)
    let al := alignSeg (planesA c.afmt) (isIntCode c.afmt) part
    (seg, { a := al.1, e := al.2, nans := part.map fun v => v.isNone,
            scale := if isBlock c.afmt then scaleRec (scales.getD seg.ablk 0) else unitScale })

/-- A row of A through every segment (R211). -/
def macRow (c : MCfg) (b : ResB) (segs : List (Seg × ASeg)) (acc : List Nat) : List Nat × Flags :=
  let cols := b.columns
  segs.foldl (fun (r : List Nat × Flags) x =>
    let y := segRow c cols x.1 x.2 r.1
    (y.1, r.2.or y.2)) (acc, Flags.none)

/-- The pairs of a half of a segment. -/
def Seg.half (s : Seg) (h : Nat) : List (Nat × Nat) := if h = 0 then s.half0 else s.half1

/-- P of R215, mod 2^20: the cell products of a pass over the 256 cell columns. -/
def passP (b : ResB) (segs : List (Seg × ASeg)) : Nat :=
  wrap 20 (sumInt ([0, 1].flatMap fun h => (halfCells b.tag.bfmt b.cells h).flatMap fun col => segs.map fun x =>
    segDot x.2.a col (x.1.half h)))

/-- Q of R215, mod 2^20: the aligned values that the pass fed into the stored rows of each half, against the check column. -/
def passQ (b : ResB) (segs : List (Seg × ASeg)) : Nat :=
  wrap 20 (sumInt ([0, 1].flatMap fun h => segs.map fun x => segDot x.2.a (b.check.getD h []) (x.1.half h)))

/-! ## Option words (R211, R213) -/

/-- ROWS. -/
def matRows (o : Word) : Nat := wfld o 0 9
/-- ROW0. -/
def matRow0 (o : Word) : Nat := wfld o 16 12
/-- Z. -/
def matZ (o : Word) : Bool := o.getLsbD 28
/-- SE. -/
def matSe (o : Word) : Bool := o.getLsbD 29
/-- SEM. -/
def matSem (o : Word) : Nat := wfld o 30 4
/-- G. -/
def matG (o : Word) : Bool := o.getLsbD 36
/-- GPITCH. -/
def matPitch (o : Word) : Nat := wfld o 40 24
/-- SCOPE; its codes 6 and 7 are refused at issue. -/
def matScope (o : Word) : Scope := (Scope.ofCode (wfld o 37 3)).getD .sys
/-- The option errors that the two forms share (MX 0x04). -/
def matOptBad (o : Word) : Bool := wfld o 9 7 != 0 || decide (matRows o < 1) || decide (256 < matRows o)

/-! ## The state that accepted operations will leave (R205) -/

/-- The slots and the tag of the resident B after an operation. -/
def viewStep (v : Table (List Byte) × Option BTag) (k : MatKind) : Table (List Byte) × Option BTag :=
  match k with
  | .mcfg n bs => (tset v.1 n bs, v.2)
  | .mloadb n _ =>
    let c := mcfgOf ((tget v.1 n).getD [])
    (v.1, some { slot := n, bfmt := c.bfmt, kk := c.kk, n := c.n, sparse := c.mode == 1, spn := c.spn })
  | .mmac _ _ _ _ _ _ | .mepi _ _ _ _ _ _ _ _ _ | .ctswap _ => v

/-- The slots and the resident B's tag as the accepted operations will leave them. -/
def Cluster.matView (c : Cluster) : Table (List Byte) × Option BTag :=
  let run := match c.mrun with
    | some r =>
      match r.op.k with
      | .mloadb n _ => (viewStep ([(n, r.cfg)], none) r.op.k).2
      | .mcfg _ _ | .mmac _ _ _ _ _ _ | .mepi _ _ _ _ _ _ _ _ _ | .ctswap _ => c.resB.map (·.tag)
    | none => c.resB.map (·.tag)
  c.mops.foldl (fun v o => viewStep v o.k) (c.mslots, run)

/-- The tag that a slot asks of the resident B. -/
def tagOf (slot : Nat) (c : MCfg) : BTag := { slot := slot, bfmt := c.bfmt, kk := c.kk, n := c.n, sparse := c.mode == 1, spn := c.spn }

/-! ## Issue (R205, R208–R214) -/

/-- A matrix instruction (R205): the right of TSW.MX; a cluster whose unit R423 has disabled raises MX 0x05. -/
def State.matIssue (s : State) (f : Env → State) : Out :=
  withEnv s fun e =>
    if !e.line.mx then s.raiseOpen e 0x0B 0x01 0 0xF
    else if (s.cl (clusterOf e.site)).macroOff then s.raiseOpen e 0x0B 0x05 0 0xF
    else f e

/-- What an operation is judged by (R205): its slot's record, and for a multiplication the tag of the resident B. -/
def Cluster.judged (c : Cluster) (k : MatKind) : Option (List Byte) × Option BTag :=
  match k with
  | .mloadb n _ | .mepi n _ _ _ _ _ _ _ _ => (tget c.matView.1 n, none)
  | .mmac _ n _ _ _ _ => (tget c.matView.1 n, c.matView.2)
  | .mcfg _ _ | .ctswap _ => (none, none)

/-- An operation leaves for the unit, and its context waits with kind 9 for acceptance.  DEDUCED, log entry 44. -/
def State.matSend (s : State) (e : Env) (dest : Option Nat) (tabNo : Option Nat) (k : MatKind) : State :=
  let cl := clusterOf e.site
  if tabNo.any fun t => (s.cl cl).t3swap.contains t then s.awaitSwap e (tabNo.getD 0)
  else
    let (id, s) := s.newOp
      { cls := .mx, copy := false, wenq := false, site := e.site, key := e.key, kid := e.line.kid, dest := dest.map fun h => (e.ks, h), cl := cl }
    (s.leave e 9).send (.core e.site) (.engine cl) regVn
      (.matReq { id := id, who := s.who e, k := k, tab := (s.cl cl).table (tabNo.getD 0), tabNo := tabNo, prev := none,
                 after := (s.forkEdge e.key).filter fun i => i != id, seen := (s.cl cl).judged k })

/-- The record of a slot as R205 judges it. -/
def State.slotCfg (s : State) (e : Env) (n : Nat) : Option MCfg := (tget (s.cl (clusterOf e.site)).matView.1 n).map mcfgOf

/-- A matrix operand: OPEN or SEALED, or OPEN for a destination (HANDLE 0x01, 0x02); then its format (0x08), and then its columns and
rows (0x06).  DEDUCED, log entry 51. -/
def matHandle (x : Option Handle) (dest : Bool) (fmt cols rows : Nat) : Except Nat Handle :=
  match copyHandle x dest with
  | .error n => .error n
  | .ok h => if h.fmt ≠ fmt then .error 0x08 else if h.cols ≠ cols ∨ h.rows < rows then .error 0x06 else .ok h

/-- `mcfg mN, [ra]` (R209): the record is read once the issuer's earlier writes are performed (R207).  DEDUCED, log entry 28. -/
def execMcfg (m : Fin 8) (a : Reg) (s : State) : Out :=
  s.matIssue fun e => s.checkedAccess e kLoad 32 (e.reg a) (.load (.mcfg m.val) 32 .rlx .core) [.pwc]

/-- `mloadb mN, hA` (R210). -/
def execMloadb (m : Fin 8) (ha : HNum) (s : State) : Out :=
  s.matIssue fun e =>
    match s.slotCfg e m.val with
    | none => s.raiseOpen e 0x0B 0x03 0 0xF
    | some c =>
      let ks := if c.mode = 1 then c.kk * c.spn / 48 else c.kk
      match matHandle (e.kslot.handle ha.val) false (fmtOfMat c.bfmt) ks c.n with
      | .error n => s.raiseOpen e 0x08 n kEngine 0xF
      | .ok h =>
        if h.rows ≠ c.n then s.raiseOpen e 0x08 0x06 kEngine 0xF
        else s.matSend e none (some (c.qt / 4 % 8)) (.mloadb m.val h)

/-- `mmac` and `mmacs` (R211). -/
def State.issueMac (s : State) (sparse : Bool) (m : Fin 8) (ha hd : HNum) (a : Reg) : Out :=
  s.matIssue fun e =>
    let o := e.reg a
    match s.slotCfg e m.val with
    | none => s.raiseOpen e 0x0B 0x03 0 0xF
    | some c =>
      if sparse != (c.mode == 1) then s.raiseOpen e 0x0B 0x02 0 0xF
      else if (s.cl (clusterOf e.site)).matView.2 ≠ some (tagOf m.val c) then s.raiseOpen e 0x0B 0x05 0 0xF
      else if matOptBad o || wfld o 34 30 != 0 then s.raiseOpen e 0x0B 0x04 0 0xF
      else
        let last := matRow0 o + matRows o
        match matHandle (e.kslot.handle ha.val) false (fmtOfMat c.afmt) c.kk last,
          matHandle (e.kslot.handle hd.val) true (if c.acc = 1 then 1 else 5) c.n last with
        | .error n, _ => s.raiseOpen e 0x08 n kEngine 0xF
        | _, .error n => s.raiseOpen e 0x08 n kEngine 0xF
        | .ok x, .ok d =>
          s.matSend e (some hd.val) (if c.afmt = 3 then some (c.qt / 4 % 8) else none) (.mmac sparse m.val hd.val x d o)

/-- `mmac hD, hA, mN, ra` (R211). -/
def execMmac (m : Fin 8) (ha hd : HNum) (a : Reg) (s : State) : Out := s.issueMac false m ha hd a
/-- `mmacs hD, hA, mN, ra` (R211, R212). -/
def execMmacs (m : Fin 8) (ha hd : HNum) (a : Reg) (s : State) : Out := s.issueMac true m ha hd a

/-- A per-column handle of an epilogue where its enable is set (R213). -/
def sideHandle (k : KSlot) (on : Bool) (h n : Nat) : Except Nat (Option Handle) :=
  if on then
    match matHandle (k.handle h) false 5 n 1 with
    | .error x => .error x
    | .ok y => if y.rows ≠ 1 then .error 0x06 else .ok (some y)
  else .ok none

/-- `mepi hD, hA, mN, ra` (R213). -/
def execMepi (m : Fin 8) (ha hd : HNum) (a : Reg) (s : State) : Out :=
  s.matIssue fun e =>
    let o := e.reg a
    let fail (n : Nat) : State := s.raiseOpen e 0x08 n kEngine 0xF
    match s.slotCfg e m.val with
    | none => s.raiseOpen e 0x0B 0x03 0 0xF
    | some c =>
      if matOptBad o || o.getLsbD 28 || wfld o 34 2 != 0 || (matG o && a.val % 2 == 1) || decide (6 ≤ wfld o 37 3) || hd == ha then
        s.raiseOpen e 0x0B 0x04 0 0xF
      else
        let last := matRow0 o + matRows o
        let k := e.kslot
        match matHandle (k.handle ha.val) false (if c.acc = 1 then 1 else 5) c.n last, matHandle (k.handle hd.val) true c.ofmt c.n last,
          sideHandle k (c.epi / 32 % 2 == 1) c.sch c.n, sideHandle k (c.epi / 64 % 2 == 1) c.bih c.n with
        | .error n, _, _, _ => fail n
        | _, .error n, _, _ => fail n
        | _, _, .error n, _ => fail n
        | _, _, _, .error n => fail n
        | .ok x, .ok d, .ok sc, .ok bi =>
          let addr := e.reg (Reg.succ a)
          match (if matG o then copyAddr (log2Size d.eltBytes) d.eltBytes addr else none) with
          | some f => s.raise e f
          | none =>
            s.matSend e (some hd.val) (if c.ofmt = 10 then some (c.qt / 4 % 8) else none)
              (.mepi m.val ha.val hd.val x d sc bi o (if matG o then addr.toNat else 0))

/-- `ctswap t` (R214): while a swap of the table is pending the context waits, with PC at the instruction. -/
def execCtswap (t : Fin 8) (s : State) : Out :=
  s.matIssue fun e =>
    if (s.cl (clusterOf e.site)).t3swap.contains t.val then s.awaitSwap e t.val else s.matSend e none none (.ctswap t.val)

/-! ## Acceptance and start (R205, R206, R209, R211) -/

/-- Entries of the operation queue (R200). -/
def matQueue : Nat := 16

/-- A request that is not accepted: its context issues the instruction again (R205, R214). -/
def State.reissue (s : State) (o : MatOp) : State :=
  let s := s.endOp o.id
  if s.answers o.who then (s.modLine o.who.key fun l => { l with pc := o.who.pc }).makeReady o.who.key else s

/-- Step MATRIX_ACCEPT (R205, R214): operations are accepted in arrival order while the queue has room; an accepted `ctswap`
marks its table, and one of a marked table goes back and waits at issue.  A request whose slot or B the operations accepted since its
issue have changed is judged again at its core, so that no operation fails a check that it has passed.  The operation that runs and the
epilogue that runs keep their entries of the queue, a pending swap does not.  DEDUCED, log entry 105; DESIGN CHOICE, log entry 109. -/
def execMatrixAccept (m : Nat) (s : State) : Out :=
  match s.engineMsg? m with
  | some { dst := .engine cl, body := .matReq o, .. } =>
    let c := s.cl cl
    let waits := match o.k with
      | .ctswap t => c.t3swap.contains t
      | .mcfg _ _ | .mloadb _ _ | .mmac _ _ _ _ _ _ | .mepi _ _ _ _ _ _ _ _ _ => false
    if waits then .next ((s.drop m).reissue o)
    else if matQueue ≤ c.mops.length + b2n c.mrun.isSome + b2n c.erun.isSome then .next s
    else if o.seen ≠ c.judged o.k then .next ((s.drop m).reissue o)
    else
      let swap := match o.k with
        | .ctswap t => [t]
        | .mcfg _ _ | .mloadb _ _ | .mmac _ _ _ _ _ _ | .mepi _ _ _ _ _ _ _ _ _ => []
      let s := (s.drop m).setCl cl
        { c with mops := c.mops ++ [{ o with prev := c.lastMat }], lastMat := some o.id, t3swap := c.t3swap ++ swap }
      .next (if s.answers o.who then s.decWait o.who.key else s)
  | _ => .next s

/-- An operation as it starts, with the record of its slot. -/
def startRun (c : Cluster) (o : MatOp) (slot : Nat) : MatRun :=
  { op := o, cfg := (tget c.mslots slot).getD [], row := 0, masks := [], masked := false, flags := Flags.none, err := none }

/-- An operation that ends in an asynchronous fault of its issuer; it makes no signal (R211).  The record that R140 has follow it
holds no write data (DEDUCED, log entry 91).  DESIGN CHOICE, log entry 7. -/
def State.matFault (s : State) (cl : Nat) (o : MatOp) (f : Flt) : State :=
  let cid := ((s.line? o.who.key).map (·.cid)).getD 0
  s.answerFault (.engine cl) o.who f true false o.id
    (some (List.replicate 16 0#8 ++ leBytes 4 o.who.enc.toNat ++ leBytes 4 0 ++ leBytes 8 cid)) false

/-- Whether an epilogue runs fused with the operation that runs (R206).  DEDUCED, log entry 53. -/
def fuses (r : MatRun) (o : MatOp) : Bool :=
  match r.op.k, o.k with
  | .mmac _ _ d _ _ _, .mepi _ a _ _ _ _ _ _ _ =>
    a == d && o.prev == some r.op.id && o.who.site == r.op.who.site && o.who.ks == r.op.who.ks
  | _, _ => false

/-- Step MATRIX_OP_START (R206, R207, R209, R211, R214, R238): the operation at the head of the queue captures its slot and starts, once
its issuer's earlier writes are performed; `mcfg` is done at once, a `ctswap` leaves the queue with its swap pending, and an `mmac`
that finds B invalid ends with MX 0x05. -/
def execMatrixOpStart (cl : Nat) (s : State) : Out :=
  let c := s.cl cl
  match c.mops with
  | [] => .next s
  | o :: rest =>
    let s' := s.setCl cl { c with mops := rest }
    let idle := c.mrun.isNone && c.erun.isNone
    if o.after.any fun i => (tget s.ops i).isSome then .next s
    else
    match o.k with
    | .ctswap n => .next (s.setCl cl { c with mops := rest, swapOps := tset c.swapOps n o.id })
    | .mcfg n bs =>
      if idle then .next (((s.setCl cl { c with mops := rest, mslots := tset c.mslots n bs })).endOp o.id) else .next s
    | .mloadb n _ => if idle then .next (s.setCl cl { c with mops := rest, mrun := some (startRun c o n) }) else .next s
    | .mmac _ n _ _ _ _ =>
      if idle then
        let r := startRun c o n
        if (c.resB.map (·.tag)) = some (tagOf n (mcfgOf r.cfg)) then .next (s.setCl cl { c with mops := rest, mrun := some r })
        else .next (s'.matFault cl o { cls := 0x0B, sub := 0x05, kind := kEngine, size := 0xF, faddr := 0#64 })
      else .next s
    | .mepi n _ _ _ _ _ _ _ _ =>
      if idle || (c.erun.isNone && c.mrun.any fun r => fuses r o) then
        .next (s.setCl cl { c with mops := rest, erun := some (startRun c o n) })
      else .next s

/-! ## `mloadb` (R210) -/

/-- The scale records of a row, one per 32 elements. -/
def rowScales (m : Mem) (k : KSlot) (h : Handle) (r : Nat) : List Nat :=
  (List.range (h.cols / 32)).map fun i => leNat (memRead m (scaleAddr k h r (32 * i)) 2)

/-- The subclass of FMT that a scale record raises under a required type (R97, R204). -/
def scaleFault (code x : Nat) : Option Nat :=
  if (scaleRec x).rsv ≠ 0 then some 0x01 else if (scaleRec x).type ≠ code then some 0x04 else none

/-- Every macro maps its failing rows onto its spare rows (R423). -/
def Cluster.mapRows (c : Cluster) : Cluster := { c with macroMapped := c.macroRows.map fun x => (x.1, x.2.length) }

/-- Step MLOADB_EXECUTE (R204, R210, R423): B is loaded, or a bad scale record leaves it invalid; failing rows are mapped.
DEDUCED, log entry 51; DEDUCED, log entry 54. -/
def execMloadbExecute (cl : Nat) (s : State) : Out :=
  let c := s.cl cl
  match c.mrun with
  | none => .next s
  | some r =>
    match r.op.k with
    | .mloadb n h =>
      let cfg := mcfgOf r.cfg
      let core := s.core r.op.who.site
      let k := core.ks.getD r.op.who.ks KSlot.reset
      let rows := List.range h.rows
      let scales := if isBlock cfg.bfmt then rows.map (rowScales core.scratch k h) else rows.map fun _ => []
      let s := s.setCl cl { c with mrun := none }
      match (scales.flatten).findSome? (scaleFault cfg.bfmt) with
      | some sub =>
        .next ((({ s with free := s.free + 1 }).modCl cl fun x => { x.mapRows with resB := none }).matFault cl r.op
          { cls := 0x07, sub := sub, kind := kEngine, size := 0xF, faddr := Config.freeWord s.free })
      | none =>
        let b := loadB (tagOf n cfg) r.op.tab (rows.map (rowElems core.scratch k h)) scales
        .next ((s.modCl cl fun x => { x.mapRows with resB := some b }).endOp r.op.id)
    | .mcfg _ _ | .mmac _ _ _ _ _ _ | .mepi _ _ _ _ _ _ _ _ _ | .ctswap _ => .next s

/-! ## Masks (R212, R322) -/

/-- The fault of a popped mask entry.  DEDUCED, log entry 54. -/
def maskFault (spn e : Nat) : Option Nat :=
  if popCount 48 (e % 2 ^ 48) ≠ spn ∨ popCount 48 (e / 2 ^ 48 % 2 ^ 48) ≠ spn then some 0x02
  else if e / 2 ^ 96 ≠ 0 then some 0x03 else none

/-- Step MASK_POP (R212, R322): `mmacs` pops the entries it still needs, as far as the metadata queue holds them, and checks
them all before the first pass. -/
def execMaskPop (cl : Nat) (s : State) : Out :=
  let c := s.cl cl
  match c.mrun with
  | none => .next s
  | some r =>
    match r.op.k with
    | .mmac true _ _ _ _ _ =>
      if r.masked || r.err.isSome then .next s
      else
        let cfg := mcfgOf r.cfg
        let q := cfg.qt % 4
        let need := cfg.kk / 48
        let have_ := tgetD c.mqueues q []
        let n := need - r.masks.length
        let r := { r with masks := r.masks ++ (have_.take n).map leNat }
        let c := { c with mqueues := tset c.mqueues q (have_.drop n) }
        if r.masks.length < need then .next (s.setCl cl { c with mrun := some r })
        else
          match r.masks.findSome? (maskFault cfg.spn) with
          | some sub =>
            .next (({ s with free := s.free + 1 }).setCl cl { c with mrun := some { r with
              err := some { cls := 0x07, sub := sub, kind := kEngine, size := 0xF, faddr := Config.freeWord s.free } } })
          | none => .next (s.setCl cl { c with mrun := some { r with masked := true } })
    | .mmac false _ _ _ _ _ | .mcfg _ _ | .mloadb _ _ | .mepi _ _ _ _ _ _ _ _ _ | .ctswap _ => .next s

/-! ## Passes (R211, R216, R217) -/

/-- Rows of the replay store (R216). -/
def replayRows : Nat := 16

/-- What a pass over a row comes to: the subclass of FMT that its scale records raise, or the row's bytes with the flags and the two sums of
its check. -/
def passRow (core : Core) (k : KSlot) (cfg : MCfg) (b : ResB) (o : MatOp) (masks : List Nat) (hA hD : Handle) (z : Bool) (row : Nat) :
    Except Nat (List Byte × Flags × Nat × Nat) :=
  let scales := if isBlock cfg.afmt then rowScales core.scratch k hA row else []
  match scales.findSome? (scaleFault cfg.afmt) with
  | some sub => .error sub
  | none =>
    let acc := if z then List.replicate cfg.n 0 else rowElems core.scratch k hD row
    let segs := rowSegs cfg o.tab masks (rowElems core.scratch k hA row) scales
    let r := macRow cfg b segs acc
    .ok (rowOf hD.fmt r.1, r.2, passP b segs, passQ b segs)

/-- Step MATRIX_PASS (R84, R93, R98, R99, R211, R215–R217, R425): a row whose check failed is passed again, or the next row is
passed while the replay store has room; a pass starts while the cluster's account is positive, and debits it. -/
def execMatrixPass (cl : Nat) (s : State) : Out :=
  let c := s.cl cl
  match c.mrun, c.resB with
  | some r, some b =>
    match r.op.k with
    | .mmac sparse _ d hA hD o =>
      let site := r.op.who.site
      let core := s.core site
      let k := core.ks.getD r.op.who.ks KSlot.reset
      let cfg := mcfgOf r.cfg
      let pass (row : Nat) := passRow core k cfg b r.op r.masks hA hD (matZ o) row
      if c.account = 0 then .next s
      else
      let c := c.debit r.op.id
      match c.unchecked.find? fun u => u.opId == r.op.id && u.pending with
      | some u =>
        match pass u.row with
        | .error _ => .next s
        | .ok (bs, f, p, q) =>
          let turn (v : Unchecked) : Unchecked := if v = u then { v with pending := false, p := p, q := q } else v
          let s := s.setCl cl { c with unchecked := c.unchecked.map turn, mrun := some { r with flags := r.flags.or f } }
          .next (s.modCore site fun x => { x with scratch := memWrite x.scratch u.at_ bs })
      | none =>
        if (sparse && !r.masked) || r.err.isSome || decide (matRows o ≤ r.row) || decide (replayRows ≤ c.unchecked.length) then .next s
        else
          let row := matRow0 o + r.row
          match pass row with
          | .error sub =>
            .next (s.setCl cl { c with mrun := some { r with
              err := some { cls := 0x07, sub := sub, kind := kEngine, size := 0xF, faddr := W row } } })
          | .ok (bs, f, p, q) =>
            let at_ := k.rowAt hD row
            let u : Unchecked :=
              { opId := r.op.id, site := site, ks := r.op.who.ks, h := d, row := row, at_ := at_,
                prior := memRead core.scratch at_ hD.rowBytes, epiH := none, failed := false, pending := false, redo := false,
                lost := false, p := p, q := q, slot := r.op.who.slot, pc := r.op.who.pc }
            let s := s.setCl cl { c with unchecked := c.unchecked ++ [u], mrun := some { r with row := r.row + 1, flags := r.flags.or f } }
            .next (s.modCore site fun x => { x with scratch := memWrite x.scratch at_ bs })
    | .mcfg _ _ | .mloadb _ _ | .mepi _ _ _ _ _ _ _ _ _ | .ctswap _ => .next s
  | _, _ => .next s

/-! ## Epilogues (R213, R216, R441) -/

/-- Whether a number lies below another, −0 below +0. -/
def FVal.below (x y : FVal) : Bool :=
  x.cmp y == .lt || (match x, y with
    | .fin a, .fin b => a.isZero && b.isZero && a.neg && !b.neg
    | _, _ => false)

/-- The activation of an exact value (R213).  The clamp takes −0 as below +0, as R87 orders them, so a zero bound gives the result its
sign.  DEDUCED, log entry 104. -/
def activate (c : MCfg) (y : FVal) : FVal :=
  if y.isNan then y
  else if c.epi % 4 = 1 then (if y.cmp (.fin (Dyad.zero false)) == .gt then y else .fin (Dyad.zero false))
  else if c.epi % 4 = 2 then
    let lo := fmtF32.value c.clo
    let hi := fmtF32.value c.chi
    let y := if y.below lo then lo else y
    if hi.below y then hi else y
  else y

/-- One element of an epilogue: scaled, biased, activated and rounded (R213).  DEDUCED, log entry 52. -/
def epiElem (c : MCfg) (r : Rounding) (tab : List T3Entry) (rec_ : ScaleRec) (x sc bi : FVal) : Nat × Flags :=
  let rm := match r with
    | .field rm => rm
    | .sr _ => Round.rne
  let (p, f) := x.mul sc
  let (y, g) := p.add rm bi
  let y := activate c y
  let (v, h) :=
    if c.ofmt = 10 then toBlockCode rec_ tab r y
    else if isIntFmt c.ofmt then fpToInt false (eltBits c.ofmt) rm y
    else (fmtOfCode c.ofmt).convert (decide (8 ≤ c.ofmt)) r y
  (v, (f.or g).or h)

/-- One row of an epilogue, with the flags and the LFSR afterwards.  DEDUCED, log entry 52. -/
def epiRow (core : Core) (k : KSlot) (c : MCfg) (o : MatOp) (hA hD : Handle) (sc bi : Option Handle) (row : Nat) :
    List Nat × Flags × BitVec 32 :=
  let side (h : Option Handle) (other : FVal) (i : Nat) : FVal := match h with
    | some h => fmtF32.value (elemAt core.scratch k h 0 i)
    | none => other
  let rm := (Round.ofCode (c.epi / 4 % 4)).getD .rne
  let one (r : Rounding) (i : Nat) : Nat × Flags :=
    epiElem c r o.tab (if hD.fmt = 10 then scaleAt core.scratch k hD row i else unitScale) (elemValue hA.fmt (elemAt core.scratch k hA row i))
      (side sc (.fin (Dyad.ofInt 1)) i) (side bi (.fin (Dyad.zero false)) i)
  let (xs, l) := cvtRow one rm (c.epi / 16 % 2 == 1) core.lfsr (List.range c.n)
  (xs.map (·.1), Flags.all (xs.map (·.2)), l)

/-- Epilogue rows of a core whose source rows are checked leave the hold buffer for global memory, in order (R213, R216). -/
def State.releaseEpi (s : State) (cl site : Nat) : State :=
  let out := (s.core site).hold.filter fun h => h.epi && h.deps.isEmpty
  let s := s.modCore site fun c => { c with hold := c.hold.filter fun h => !(h.epi && h.deps.isEmpty) }
  out.foldl (fun s h =>
    let sc := match h.k with
      | .eng _ sc => sc
      | _ => Scope.sys
    let cat := Cat.engWrite (sc == .recov)
    let stopped := (s.cl cl).erun.any fun r => r.op.id == h.tok && r.err.isSome
    if stopped then s
    else
      match s.engCheck h.who cat [] (linesOf h.va h.bytes.length) with
      | .error f =>
        s.modCl cl fun c => { c with erun := c.erun.map fun r => { r with
          err := r.err.or (some { cls := f.1, sub := f.2.1, kind := kEngine, size := 0xF, faddr := W f.2.2 }) } }
      | .ok s => s.sendWrites h.who cat h.va h.bytes sc h.tok) s

/-- The lines of 64 bytes that a row of an epilogue takes in the hold buffer, with their dependence. -/
def epiHolds (o : MatOp) (va : Nat) (bs : List Byte) (sc : Scope) (deps : List (Nat × Nat)) : List HeldWrite :=
  (linesOf (va % 2 ^ 64) bs.length).map fun x =>
    { who := o.who, va := x.1, k := .eng [] sc, bytes := (bs.drop (x.1 - va % 2 ^ 64)).take x.2, tok := o.id, deps := deps, epi := true }

/-- A scale record with a reserved bit among the rows of an epilogue into FMT 10 (R97, R213).  DEDUCED, log entry 51. -/
def epiScaleBad (m : Mem) (k : KSlot) (h : Handle) (row0 rows : Nat) : Bool :=
  h.fmt == 10 && (List.range rows).any fun r => (rowScales m k h (row0 + r)).any fun x => (scaleRec x).rsv != 0

/-- A row of an epilogue converted and written; with G its bytes join the hold buffer.  `again` says that the row runs again; with SR = 1 it
then steps on from the LFSR as it is.  DEDUCED, log entry 53; DESIGN CHOICE, log entry 110. -/
def State.epiStep (s : State) (cl : Nat) (r : MatRun) (hA hD : Handle) (d : Nat) (sc bi : Option Handle) (o : Word) (addr row : Nat)
    (again : Bool) : State :=
  let site := r.op.who.site
  let core := s.core site
  let k := core.ks.getD r.op.who.ks KSlot.reset
  let cfg := mcfgOf r.cfg
  let (xs, f, l) := epiRow core k cfg r.op hA hD sc bi row
  let bs := rowOf hD.fmt xs
  let src := (s.cl cl).unchecked.filter fun u => u.site == site && u.ks == r.op.who.ks && u.row == row && (match r.op.k with
    | .mepi _ a _ _ _ _ _ _ _ => u.h == a
    | .mcfg _ _ | .mloadb _ _ | .mmac _ _ _ _ _ _ | .ctswap _ => false)
  let pitch := if matPitch o = 0 then hD.rowBytes else matPitch o
  let held := if matG o then epiHolds r.op (addr + (row - matRow0 o) * pitch) bs (matScope o) (src.map fun u => (u.opId, u.row)) else []
  if holdSize < core.heldLines + held.length then s
  else
    let s := s.setCore site { core with scratch := memWrite core.scratch (k.rowAt hD row) bs, lfsr := l, hold := core.hold ++ held }
    let turn (u : Unchecked) : Unchecked := if src.contains u then { u with epiH := some d, redo := false } else u
    (s.modCl cl fun c =>
      { c with
        unchecked := c.unchecked.map turn
        erun := some { r with row := if again then r.row else r.row + 1, flags := r.flags.or f } }).releaseEpi cl site

/-- Whether the pass of a row that a fused epilogue needs has not been written (R206). -/
def rowAwaited (c : Cluster) (e : MatRun) (row : Nat) : Bool :=
  match c.mrun with
  | none => false
  | some r =>
    fuses r e.op && match r.op.k with
      | .mmac _ _ _ _ _ o => r.err.isNone && decide (matRow0 o + r.row ≤ row) && decide (row < matRow0 o + matRows o)
      | .mcfg _ _ | .mloadb _ _ | .mepi _ _ _ _ _ _ _ _ _ | .ctswap _ => false

/-- Step EPILOGUE_ROW (R85, R88–R91, R96, R206, R213, R216, R217, R441): a row whose pass was replayed runs again, or the next
row is converted once its pass has written it. -/
def execEpilogueRow (cl : Nat) (s : State) : Out :=
  let c := s.cl cl
  match c.erun with
  | none => .next s
  | some r =>
    match r.op.k with
    | .mepi _ _ d hA hD sc bi o addr =>
      if r.err.isSome then .next s
      else
        match c.unchecked.find? fun u => u.redo && !u.pending && u.epiH == some d with
        | some u => .next (s.epiStep cl r hA hD d sc bi o addr u.row true)
        | none =>
          let row := matRow0 o + r.row
          let core := s.core r.op.who.site
          let k := core.ks.getD r.op.who.ks KSlot.reset
          if matRows o ≤ r.row || rowAwaited c r row || (c.unchecked.any fun u => u.pending && u.row == row) then .next s
          else if r.row = 0 ∧ epiScaleBad core.scratch k hD (matRow0 o) (matRows o) then
            .next (({ s with free := s.free + 1 }).setCl cl { c with erun := some { r with
              err := some { cls := 0x07, sub := 0x01, kind := kEngine, size := 0xF, faddr := Config.freeWord s.free } } })
          else .next (s.epiStep cl r hA hD d sc bi o addr row false)
    | .mcfg _ _ | .mloadb _ _ | .mmac _ _ _ _ _ _ | .ctswap _ => .next s

/-! ## Checks (R215–R217, R390) -/

/-- A dependence on a checked row ends in every holder and every held write (R216).  DEDUCED, log entry 55. -/
def clearDep (d : Nat × Nat) (c : Core) : Core :=
  { c with
    holders := c.holders.map fun h => (h.1, h.2.filter fun x => x != d)
    hold := c.hold.map fun h => { h with deps := h.deps.filter fun x => x != d } }

/-- Every held write that depends on a row is discarded, and each context whose writes were discarded receives CHECK 0x02; any other
context that depends on the row waits for the check of its replay (R216, R217).  DESIGN CHOICE, log entry 18. -/
def State.taint (s : State) (site : Nat) (d : Nat × Nat) : State :=
  let c := s.core site
  let lost := c.hold.filter fun h => h.deps.contains d
  let who := ((lost.filter fun h => !h.epi).map fun h => h.who.key).eraseDups
  let s := s.modCore site fun c =>
    { c with
      hold := c.hold.filter fun h => !(h.deps.contains d)
      holders := c.holders.map fun h => if who.contains h.1 then (h.1, h.2.filter fun x => x != d) else h }
  let s := lost.foldl (fun s h => if h.epi then s else ((if h.k.counts then s.decPwc h.who.key else s).endOp h.tok)) s
  who.foldl (fun s key =>
    ({ s with free := s.free + 1 }).faultLine key site false false true 0#32 0 none
      { cls := 0x0C, sub := 0x02, kind := kEngine, size := 0xF, faddr := Config.freeWord s.free } none) s

/-- The macros of a pass, for the Regulator (R200, R217): 16 along K in each half, and the cluster above them.
DEDUCED, log entry 55. -/
def passMacros (cl : Nat) (c : MCfg) : Nat :=
  let rows := if c.mode = 1 then c.kk * c.spn / 48 else c.kk
  let along := 2 ^ ((rows + 127) / 128) - 1
  cl * 2 ^ 32 + (if 128 < c.n ∨ c.bfmt = 7 then along * 2 ^ 16 else 0) + along

/-- A failing row of a macro is counted (R423): one not mapped yet counts once, and a third turns the unit off.
DEDUCED, log entry 55. -/
def Cluster.failRow (c : Cluster) (macro_ row : Nat) : Cluster :=
  let rows := (tget c.macroRows macro_).getD []
  if (rows.drop ((tget c.macroMapped macro_).getD 0)).contains row then c
  else { c with macroRows := tset c.macroRows macro_ (rows ++ [row]), macroOff := c.macroOff || decide (2 ≤ rows.length) }

/-- Step PASS_CHECK (R215–R217, R389, R390, R423): the check of the oldest unchecked row that is not being replayed: it passes when
P = Q mod 2^20, with what an upset of the unit adds to P, and the second aligner agrees.  After a second
failure the row stays unchecked until its core is contained.  DESIGN CHOICE, log entry 18; DEDUCED, log entry 55. -/
def execPassCheck (cl : Nat) (x : PassUpset) (s : State) : Out :=
  let c := s.cl cl
  match c.unchecked.find? fun u => !u.lost && !u.pending && !(u.redo && c.erun.any fun r => r.err.isNone) with
  | none => .next s
  | some u =>
    let d := (u.opId, u.row)
    if (u.p + x.sum) % 2 ^ 20 = u.q % 2 ^ 20 ∧ x.align = false then
      .next (((s.setCl cl { c with unchecked := c.unchecked.filter fun v => v != u }).modCore u.site (clearDep d)).releaseEpi cl u.site)
    else
      let s := (s.noteMismatch u.site { slot := some u.slot, unit_ := 1, at_ := u.pc.toNat }).taint u.site d
      let s := s.modCore u.site fun x => { x with scratch := memWrite x.scratch u.at_ u.prior }
      if u.failed then
        let turn (v : Unchecked) : Unchecked := if v = u then { v with lost := true } else v
        let macros := passMacros cl ((c.mrun.map fun r => mcfgOf r.cfg).getD (mcfgOf []))
        .next (((s.modCl cl fun y => { y.failRow x.macro_ x.row with unchecked := y.unchecked.map turn }).logEvent
          (.core u.site) 0x0C 2 macros).stopCore u.site)
      else
        let turn (v : Unchecked) : Unchecked :=
          if v = u then { v with failed := true, pending := true, redo := v.epiH.isSome } else v
        .next (s.modCl cl fun x => { x with unchecked := x.unchecked.map turn })

/-- Step HELD_RELEASE (R68, R141, R216): every row a context depends on is checked; its held writes leave in program order, and
TSW.HELD becomes 0. -/
def execHeldRelease (c l : Nat) (s : State) : Out :=
  let core := s.core c
  match tget core.holders l with
  | some [] =>
    let out := core.hold.filter fun h => !h.epi && h.who.key == l
    let s := s.setCore c { core with holders := tdel core.holders l, hold := core.hold.filter fun h => h.epi || h.who.key != l }
    let s := s.modLine l fun x => x.setTsw 5 1 0
    .next (out.foldl (fun s h => s.access h.who h.va h.k (some h.tok)) s)
  | _ => .next s

/-! ## Completion (R100, R207) -/

/-- The end of an operation without an error: its flags leave for its issuer, and what observes the completion follows them; it posts its
semaphore (R100, R207, R219).  DEDUCED, log entry 53. -/
def State.matDone (s : State) (cl : Nat) (r : MatRun) (o : Word) : State :=
  if r.flags ≠ Flags.none then
    s.send (.engine cl) (.line r.op.who.key) vnReply
      (.opFlags r.op.who r.flags r.op.id (if matSe o then some (cl, matSem o) else none))
  else if matSe o then s.send (.engine cl) (.engine cl) vnControl (.semPost cl (matSem o) r.op.id) else s.endOp r.op.id

/-- Whether every row that an operation has written is checked, and its global writes are performed. -/
def State.settled (s : State) (cl : Nat) (r : MatRun) : Bool :=
  let c := s.cl cl
  let core := s.core r.op.who.site
  !(c.unchecked.any fun u => u.opId == r.op.id || (match r.op.k with
    | .mepi _ _ d _ _ _ _ _ _ => u.epiH == some d
    | .mcfg _ _ | .mloadb _ _ | .mmac _ _ _ _ _ _ | .ctswap _ => false)) &&
    !(core.hold.any fun h => h.epi && h.tok == r.op.id) && !(s.writing r.op.id)

/-- Step MATRIX_COMPLETE (R86, R100, R206, R207, R220): the running operation, or the epilogue, is complete once every row is
written, every pass checked and every global write performed; one that met an error ends with its fault. -/
def execMatrixComplete (cl : Nat) (s : State) : Out :=
  let c := s.cl cl
  let mac : Option (State × MatRun × Word) := match c.mrun with
    | some r =>
      match r.op.k with
      | .mmac _ _ _ _ _ o =>
        if (r.err.isSome || decide (matRows o ≤ r.row)) && s.settled cl r then some (s.setCl cl { c with mrun := none }, r, o) else none
      | .mcfg _ _ | .mloadb _ _ | .mepi _ _ _ _ _ _ _ _ _ | .ctswap _ => none
    | none => none
  let epi : Option (State × MatRun × Word) := match c.erun with
    | some r =>
      match r.op.k with
      | .mepi _ _ _ _ _ _ _ o _ =>
        if (r.err.isSome || decide (matRows o ≤ r.row)) && s.settled cl r then some (s.setCl cl { c with erun := none }, r, o) else none
      | .mcfg _ _ | .mloadb _ _ | .mmac _ _ _ _ _ _ | .ctswap _ => none
    | none => none
  match mac.or epi with
  | none => .next s
  | some (s, r, o) =>
    match r.err with
    | some f => .next (s.matFault cl r.op f)
    | none => .next (s.matDone cl r o)

/-! ## Type 3 tables (R94, R95, R214) -/

/-- Whether a typed load or store on its way captured a table of a cluster.  DEDUCED, log entry 50. -/
def ReqKind.captures (k : ReqKind) (t : Nat) : Bool :=
  match k with
  | .load (.typed _ _ _ _ _ _ no) _ _ _ => no == some t
  | .stashFill (.load (.typed _ _ _ _ _ _ no) _ _ _) => no == some t
  | .stt _ _ _ _ _ _ no _ | .stashFill (.stt _ _ _ _ _ _ no _) => no == some t
  | _ => false

/-- Whether an operation that captured a table has not completed (R95, R214).  DEDUCED, log entry 50. -/
def State.captured (s : State) (cl t : Nat) : Bool :=
  let c := s.cl cl
  let mine (w : Who) : Bool := clusterOf w.site == cl
  (c.mops.any fun o => o.tabNo == some t) || (c.mrun.any fun r => r.op.tabNo == some t) || (c.erun.any fun r => r.op.tabNo == some t) ||
    (s.cores.any fun x => clusterOf x.1 == cl &&
      ((x.2.hold.any fun h => h.k.captures t) || (x.2.tvq.any fun o => o.tabNo == some t) || x.2.tvRun.any fun r => r.op.tabNo == some t)) ||
    (s.net.any fun y => match y.body with
      | .req w _ k _ _ => mine w && k.captures t
      | .acc a | .hostReq _ _ a | .bisnp _ _ (some a) => mine a.w && a.k.captures t
      | .matReq o => mine o.who && o.tabNo == some t
      | _ => false) ||
    (s.lines.any fun l => match l.2.pend with
      | some { who := w, act := .send _ k, .. } => mine w && k.captures t
      | _ => false)

/-- Step TABLE_SWAP (R94, R95, R214): a pending swap is done once every operation that captured the active copy has
completed: the copies exchange roles. -/
def execTableSwap (cl t : Nat) (s : State) : Out :=
  let c := s.cl cl
  if !c.t3swap.contains t || s.captured cl t then .next s
  else
    let isSwap (o : MatOp) : Bool := match o.k with
      | .ctswap n => n == t
      | .mcfg _ _ | .mloadb _ _ | .mmac _ _ _ _ _ _ | .mepi _ _ _ _ _ _ _ _ _ => false
    let s := ((c.mops.filter isSwap).map (·.id) ++ (tget c.swapOps t).toList).foldl (fun s i => s.endOp i) s
    .next (s.setCl cl { c with
      t3 := tset c.t3 t (c.shadow t), t3shadow := tset c.t3shadow t (c.table t), t3swap := c.t3swap.filter fun x => x != t,
      mops := c.mops.filter fun o => !isSwap o, swapOps := tdel c.swapOps t })

/-! ## Semaphores (R218–R220) -/

/-- The oldest waiter of a semaphore. -/
def Cluster.semHead (c : Cluster) (n : Nat) : Option SemWait := c.semWait.find? fun x => x.sem == n

/-- A post: the oldest waiter is granted, or the count rises; none at 255 (R219). -/
def State.post (s : State) (cl n : Nat) : Option State :=
  let c := s.cl cl
  match c.semHead n with
  | some w =>
    some ((s.setCl cl { c with semWait := c.semWait.filter fun x => x != w }).send (.engine cl) (.line w.key) vnReply (.semGrant w.key n))
  | none =>
    let v := tgetD c.sems n 0
    if 255 ≤ v then none else some (s.setCl cl { c with sems := tset c.sems n (v + 1) })

/-- `msem.wait semN` (R219). -/
def execMsemWait (g : Guard) (n : Fin 16) (s : State) : Out :=
  guarded g s fun e =>
    let cl := clusterOf e.site
    let c := s.cl cl
    let v := tgetD c.sems n.val 0
    if 0 < v then (s.put (e.adv 4)).setCl cl { c with sems := tset c.sems n.val (v - 1) }
    else
      let s := s.put (((e.note s).adv 4).wait s.gtime 8 n.val)
      s.setCl cl { c with semWait := c.semWait ++ [{ sem := n.val, key := e.key }] }

/-- `msem.post semN` (R219): a release at cluster scope, so it waits for PWC = 0 first.  DEDUCED, log entry 28. -/
def execMsemPost (g : Guard) (n : Fin 16) (s : State) : Out :=
  guarded g s fun e => s.issueWait e 1 [.pwc] (.semPost n.val)

/-- The post of `msem.post` once its wait is over (R219); the wait is for PWC = 0, so the count is unchanged at 255. -/
def State.semPostNow (s : State) (w : Who) (n : Nat) : State :=
  match s.post (clusterOf w.site) n with
  | some s => s.makeReady w.key
  | none =>
    ({ s with free := s.free + 1 }).faultAt w { cls := 0x0B, sub := 0x06, kind := 0, size := 0xF, faddr := Config.freeWord s.free }

/-- `mdrain` (R220): the operations that the unit has accepted. -/
def execMdrain (g : Guard) (s : State) : Out :=
  guarded g s fun e =>
    let cl := clusterOf e.site
    let sent (id : Nat) : Bool := s.net.any fun y => match y.body with
      | .matReq o => o.id == id
      | _ => false
    s.issueWait e 9 [.ops ((s.opsWhere fun o => o.cls == .mx && o.cl == cl).filter fun id => !sent id)] .go

/-- Step SEMAPHORE_GRANT (R68, R219): the grant ends the wait of a context. -/
def execSemaphoreGrant (m : Nat) (s : State) : Out :=
  match s.find? m with
  | some (.semGrant key n) =>
    let s := s.drop m
    match s.line? key with
    | some l => if l.life == .live && l.wtKind == 8 && l.wtDetail % 16 == n then .next (s.makeReady key) else .next s
    | none => .next s
  | _ => .next s

/-- Step ENGINE_SEMAPHORE_POST (R188, R219): a post of a copy or of a matrix operation waits at 255; the operation's completion
waits with it. -/
def execEngineSemaphorePost (m : Nat) (s : State) : Out :=
  match s.find? m with
  | some (.semPost cl n op) =>
    match (s.drop m).post cl n with
    | some s => .next (s.doneOp op)
    | none => .next s
  | _ => .next s

end Sys2Proof.Machine
end

