-- ==== Sys2Proof/Machine/Recovery.lean ====
section
/-! DEFINITION. The checker's thresholds, containment, die reset, the checkpoint domain and recovery streams (R377,
R389–R407, R423). -/

namespace Sys2Proof.Machine

/-! ## `rcommit` and `rmark` (R399–R404) -/

/-- A REC fault of a commit.  DEDUCED, log entry 24. -/
def recFlt (sub : Nat) (faddr : Nat) : Flt := { cls := 0x10, sub := sub, kind := kStore, size := 5, faddr := W faddr }

/-- The number of covered lines and the address of the first (R399). -/
def coverN (c : Word) : Nat := wfld c 54 10
/-- The first covered address. -/
def coverL (c : Word) : Nat := wfld c 6 48 * 64

/-- The first covered address of each covered page.  DESIGN CHOICE, log entry 82. -/
def coverPages (c : Word) : List Nat :=
  let lo := coverL c
  let n := 64 * coverN c
  if n = 0 then [] else (List.range ((lo + n - 1) / 4096 - lo / 4096 + 1)).map fun i => max lo ((lo / 4096 + i) * 4096)

/-- `rcommit s, [ra], rb` (R401): the checks of its core, and then the release at rec.  DEDUCED, log entry 56. -/
def execRcommit (g : Guard) (st : Fin 8) (a b : Reg) (s : State) : Out :=
  guarded g s fun e =>
    let ea := e.reg a
    let cover := e.reg b
    let hdr := ((s.part e.line.part).kernel? e.line.kid).map (·.hdr)
    match eaFault kStore 32 ea with
    | some f => s.raise e f
    | none =>
      if wfld cover 0 6 ≠ 0 then s.raise e (recFlt 0x01 ea.toNat)
      else if hdr.any fun h => h.rse && h.rs != st.val then s.raise e (recFlt 0x04 ea.toNat)
      else
        let e := (e.trace s.gtime 3 ea.toNat).at ea.toNat (.rcommit st.val cover)
        s.issueWait e 1 [.pwc, .pdc] (.send ea.toNat (.rcommit st.val cover))

/-- `rmark rd, s` (R403).  DESIGN CHOICE, log entry 82. -/
def execRmark (g : Guard) (st : Fin 8) (d : Reg) (s : State) : Out :=
  guarded g s fun e =>
    let next := ((s.part e.line.part).stream st.val).next
    (s.leave e 1).send .regulator (.line e.key) vnReply
      (.reply (s.who e) { regs := [(d, W next)], flags := Flags.none, p15 := none } false false 0)

/-- The covered pages translated in increasing address, with each page's leaf. -/
def State.xlateCover (s : State) (w : Who) (ps : List Nat) : Except (Nat × Nat × Nat) (State × List (Nat × Leaf)) :=
  match ps with
  | [] => .ok (s, [])
  | va :: rest =>
    if 2 ^ 54 ≤ va then .error (0x04, 0x01, va)
    else
      match s.xlate w.part w.asid w.priv va .commitR with
      | .error f => .error (f.1, f.2, va)
      | .ok (s, l) =>
        match s.xlateCover w rest with
        | .error f => .error f
        | .ok (s, ls) => .ok (s, (va, l) :: ls)

/-- The covered lines, each with the leaf of its page among the leaves of the covered pages. -/
def coverLines (ls : List (Nat × Leaf)) (lo n : Nat) : List (Nat × Leaf) :=
  (linesOf lo n).filterMap fun y => (ls.find? fun x => x.1 / 4096 == y.1 / 4096).map fun x => (y.1, x.2)

/-- A commit record (R399). -/
def commitRecord (mark : Nat) (prev cover : Word) (st asid : Nat) (data : List Byte) : List Byte :=
  let head := leBytes 8 mark ++ leBytes 8 prev.toNat ++ leBytes 8 cover.toNat ++ leBytes 4 (st * 2 ^ 16 + asid)
  head ++ leBytes 4 (crc32c (data ++ head))

/-- The die on which the mirror frame of a partition's line lies (R12). -/
def State.mirrorDie (s : State) (part ga : Nat) : Nat := partner (dieOfCl ((s.part part).home ga))

/-- Whether the mirror has not acknowledged a line that its home has written (R396). -/
def State.mirrorLate (s : State) (gline : Nat) : Bool :=
  s.net.any fun y => match y.body with
    | .mirrorPend g _ => g == gline
    | _ => false

/-- Whether a write performed on a line is not durable yet: the mirror has not acknowledged it (R241, R402). -/
def State.undurable (s : State) (gline : Nat) : Bool :=
  ((tget s.slices gline).any fun x => x.writers.any fun a => a.1.leaf.durable) || s.mirrorLate gline || s.net.any fun y => match y.body with
    | .commit _ c => c.grp.isSome && c.ga / 64 == gline
    | _ => false

/-- A commit that fails after its mark is taken: the mark is consumed, `$rcpS` keeps its value, and the issuer receives REC 0x05 (R401). -/
def State.abandonCommit (s : State) (m : Nat) (w : Who) (c : CommitRun) : State :=
  (s.drop m).answerFault .regulator w (recFlt 0x05 c.va) false false c.tok none false

/-- A covered line read once, at its home or at the append home of its page, when every write performed on it is durable; a home that
answers NET abandons the commit (R401, R402, R439).  DEDUCED, log entry 71. -/
def State.commitLine (s : State) (m : Nat) (w : Who) (c : CommitRun) (va : Nat) (l : Leaf) (rest : List (Nat × Leaf)) : State :=
  let ga := l.ga va
  let a := unitAcc w va ga l [] 64 false
  if s.unitWaits w .commitR l ga then s
  else if (s.unreached (dieOf w.site) (s.unitHome w .commitR l ga)).isSome then s.abandonCommit m w c
  else
    let s := (s.recallStashes (ga / 64) none false).recallOwned (ga / 64) none
    if s.undurable (ga / 64) then s
    else
      match s.readyLine a false with
      | .wait t => s.keepMsgs t
      | .fault _ _ _ => s.abandonCommit m w c
      | .ok t =>
        let (t, bs) := t.homeRead w.site a 64
        t.rebody m (.commit w { c with lines := rest, data := c.data ++ bs })

/-- The record written at its home (R399, R401). -/
def State.commitWrite (s : State) (m : Nat) (w : Who) (c : CommitRun) (mark : Nat) (prev : Word) : State :=
  let data := commitRecord mark prev c.cover c.st w.asid c.data
  let a := unitAcc w c.va c.ga c.leaf data 32 true
  let home := (s.part w.part).home c.ga
  if s.pathWaits (dieOf w.site) (dieOfCl home) then s
  else if (s.unreached (dieOf w.site) home).isSome then s.abandonCommit m w c
  else
    match s.readyLine a true with
    | .wait t => s.keepMsgs t
    | .fault _ _ _ => s.abandonCommit m w c
    | .ok t =>
      let (t, grp) := t.performWrite home (t.via a) a data
      t.rebody m (.commit w { c with grp := some grp })

/-- The recovery-point unit goes on with the commit whose turn it is (R401, R402): it takes the mark, reads the covered lines one by one,
writes the record, and, once that is performed and durable, the stream points at it and the answer leaves (R396).
DEDUCED, log entry 71. -/
def State.commitStep (s : State) (m : Nat) (w : Who) (c : CommitRun) : State :=
  let x := (s.part w.part).stream c.st
  let set (s : State) (y : Stream) : State := s.modPart w.part fun p => { p with streams := tset p.streams c.st y }
  match c.mark, c.lines, c.grp with
  | none, _, _ => (set s { x with next := x.next + 1 }).rebody m (.commit w { c with mark := some (x.next, x.rcp) })
  | some _, (va, l) :: rest, _ => s.commitLine m w c va l rest
  | some (mark, prev), [], none => s.commitWrite m w c mark prev
  | some _, [], some grp =>
    if s.openGroup grp || s.mirrorLate (c.ga / 64) || s.mirrorDieAway (s.mirrorDie w.part c.ga) then s
    else
      (set (s.drop m) { x with rcp := W (2 ^ 63 + c.ga) }).send .regulator (.line w.key) vnReply (.reply w Answer.none false false c.tok)

/-- Step COMMIT_RECORD of a commit on its way to the recovery-point unit (R401): its pages are translated and checked, and it takes its
place among what has reached the unit.  DEDUCED, log entry 71. -/
def State.startCommit (s : State) (m : Nat) : Out :=
  match s.reqMsg? m with
  | some { dst := .slice sl, body := .req w va (.rcommit st cover) tok _, .. } =>
    let fail (s : State) (f : Flt) : Out := .next ((s.drop m).answerFault (.slice sl) w f false false tok none false)
    let lo := coverL cover
    let n := 64 * coverN cover
    if s.pathWaits (dieOf w.site) (dieOfCl sl) then .next s
    else
    match s.unreached (dieOf w.site) sl with
    | some sub => fail s { cls := 0x12, sub := sub, kind := kStore, size := 5, faddr := W va }
    | none =>
      match s.xlate w.part w.asid w.priv va .commitW with
      | .error f => fail s { cls := f.1, sub := f.2, kind := kStore, size := 5, faddr := W va }
      | .ok (t, l) =>
        match t.xlateCover w (coverPages cover) with
        | .error f => fail t { cls := f.1, sub := f.2.1, kind := kLoad, size := 0xF, faddr := W f.2.2 }
        | .ok (t, ls) =>
          match (if l.cls ≠ 2 then some (va, l) else ls.find? fun x => !x.2.durable) with
          | some p => fail t (recFlt 0x02 (p.1 / p.2.span * p.2.span))
          | none =>
            if va < lo + n ∧ lo < va + 32 then fail t (recFlt 0x03 va)
            else
              .next ((t.drop m).send (.slice sl) .regulator vnReply (.commit w
                { va := va, ga := l.ga va, leaf := l, st := st, cover := cover, lines := coverLines ls lo n, data := [], mark := none,
                  grp := none, tok := tok }))
  | _ => .next s

/-- Step COMMIT_RECORD (R401, R402), in all its parts.  DEDUCED, log entry 71. -/
def execCommitRecord (m : Nat) (s : State) : Out :=
  match s.find? m with
  | some (.commit w c) => if s.committing w.part c.st m then .next s else .next (s.commitStep m w c)
  | _ => s.startCommit m

/-! ## What starts a containment (R377, R390, R392, R423) -/

/-- A core stops issue: its containment starts (R392). -/
def State.startContain (s : State) (site : Nat) : State := s.stopCore site

/-- Step MISMATCH_THRESHOLD (R423): sixteen corrected mismatches of a core within one second. -/
def execMismatchThreshold (c : Nat) (s : State) : Out :=
  if 16 ≤ ((s.core c).mism.filter fun t => decide (s.gtime < t + 1000000000)).length then .next (s.startContain c) else .next s

/-- A core consumes an uncorrectable error: it halts, claims no PC, and reports (R377). -/
def State.machineCheck (s : State) (c bank synd kind size : Nat) (pa : Word) : State :=
  if !(s.core c).serves then s
  else
    let f : Flt := { cls := 0x11, sub := 0x01, kind := kind % 16, size := size % 16, faddr := pa }
    let enc := BitVec.ofNat 32 (bank % 2 ^ 16 * 2 ^ 16 + synd % 2 ^ 16)
    let s := s.logEvent (.core c) 0x11 0x01 pa.toNat
    (s.pushFault c none none (s.partOf c) 0 (mkCause enc 0 true false f) pa none).startContain c

/-- Step MACHINE_CHECK (R377). -/
def execMachineCheck (c bank synd kind size : Nat) (pa : Word) (s : State) : Out := .next (s.machineCheck c bank synd kind size pa)

/-! ## Containment (R393, R394) -/

/-- The dirty data of a core is lost: stash lines, owned lines and the check-hold buffer (R393 step 3).
DEDUCED, log entry 72. -/
def State.loseDirty (s : State) (site : Nat) : State :=
  let c := s.core site
  let s := (c.stash.filter fun x => x.dirty).foldl (fun s x => s.loseStash site x) s
  let s := (c.owned.filter fun o => o.dirty).foldl (fun s o => s.loseOwned site o) s
  let s := c.hold.foldl (fun s h =>
    s.loseWrite (.core site) { who := h.who, tok := h.tok, ends := false, va := h.va, k := h.k } (h.k.counts && !h.epi) false) s
  let s := c.holders.foldl (fun s h => s.modLine h.1 fun l => l.setTsw 5 1 0) s
  s.modCore site fun c => { c with stash := [], owned := [], hold := [], holders := [] }

/-- The mailbox home of a LOST line sets CLOSED in its descriptor (R393 step 4), after the host's copy of the line is invalidated (R363). -/
def State.closeMailbox (s : State) (l : Line) : State :=
  match s.xlate l.part l.asid 2 (l.cid * 128 + 128) .context with
  | .error _ => s
  | .ok (s, leaf) =>
    let va := l.cid * 128 + 128
    let ga := leaf.ga va + 10
    if (tget s.hostHeld (ga / 64)).isNone then s.pokeGa l.part (l.anchor.getD 0) ga (leBytes 1 (s.rdNat ga 1 ||| 1))
    else
      let home := (s.part l.part).home ga
      let w := unitWho (l.anchor.getD 0) l.part l.asid 2 0
      let a : Acc :=
        { w := w, va := va + 8, ga := ga - 2, leaf := leaf, k := .amo .or .i32 (2 ^ 16) 0 none .rlx .sys false, tok := 0, snooped := false }
      s.send (.slice home) (.slice home) regVn (.acc a)

/-- A line becomes LOST by containment, and its mailbox is closed.  Until the containment ends it is kept under its core, whose LOST
messages are still to be pushed (R392). -/
def State.loseTo (s : State) (key site : Nat) (l : Line) : State :=
  let s := (s.loseLine key).closeMailbox l
  match s.line? key with
  | some x => s.moveLine key { x with place := .l1 site, touched := false }
  | none => s

/-- A line of a contained core's L1: LOST if it has changed since its fill, and in a die reset in any case; a clean one goes
back to the copy in the context L2 or in memory; the line of a double fault is LOST already (R371, R394, R395).  DEDUCED, log entry 72; DEDUCED, log entry 88. -/
def State.containLine (site : Nat) (all : Bool) (s : State) (e : Nat × Line) : State :=
  let l := e.2
  if l.life = .exited then s.moveLine e.1 { l with place := .mem, bound := none }
  else if l.life = .lost then (if l.touched then s.loseTo e.1 site l else s)
  else if l.touched || all then s.loseTo e.1 site l
  else
    let cl := clusterOf site
    s.moveLine e.1 { l with bound := none, place := if (s.linesIn (.l2 cl)).length < l2Size then .l2 cl else .mem }

/-- The word that the placer puts in place of a contained node's own, combined with those of the children that have
reported (R283). -/
def standInNode (nodes : List TreeNode) (j : Nat) (n : TreeNode) : TreeNode :=
  let kids := (childrenOf j nodes.length).filterMap fun i => nodes[i]?
  let kids := kids.filter fun c => c.doneSent
  { n with
    live := 0, untrig := 0, standIn := true
    maxcls := kids.foldl (fun m c => max m c.maxcls) 0x11
    err := kids.foldl (fun m c => m ||| c.err) 2
    exits := kids.foldl (fun m c => m + c.exits) 0 }

/-- The placer stands in for the nodes of a contained core (R283). -/
def Part.standIn (p : Part) (site : Nat) : Part :=
  let turn (k : Kernel) : Kernel :=
    { k with nodes := (List.range k.nodes.length).filterMap fun j => (k.nodes[j]?).map fun n =>
        if n.site = site ∧ n.standIn = false ∧ n.doneSent = false then standInNode k.nodes j n else n }
  { p with kernels := p.kernels.map turn }

/-- Whether the source or the target of a copy is its core's scratchpad (R198). -/
def Copy.needsCore (c : Copy) : Bool :=
  match c.op with
    | .t2g | .t2t | .sca | .gat | .apnd => true
    | .g2t => optMask c.opt == 0
    | .g2g | .g2q => false

/-- NET 0x01 of an operation whose rule names no address. -/
def State.netOpen (s : State) (src : Node) (w : Who) (kind tok : Nat) : State :=
  ({ s with free := s.free + 1 }).answerFault src w
    { cls := 0x12, sub := 0x01, kind := kind, size := 0xF, faddr := Config.freeWord s.free } false false tok none false

/-- The tile vector operations of a contained core, and the divides and square roots it had begun, end in NET 0x01 (R198,
R393). -/
def State.loseTv (s : State) (site : Nat) : State :=
  let c := s.core site
  let ops := (c.tvRun.map (·.op)).toList ++ c.tvq
  let s := ops.foldl (fun s o => s.netOpen (.core site) o.who kEngine o.id) s
  let s := s.modCore site fun c => { c with tvq := [], tvRun := none }
  let long := s.net.filterMap fun y => match y.body with
    | .longDone w _ _ _ => if w.site = site then some (y.id, w) else none
    | _ => none
  long.foldl (fun s x => (s.drop x.1).netOpen (.core site) x.2 0 0) s

/-- The copies of a core that need its scratchpad stop with NET 0x01, accepted or not (R198). -/
def State.loseCopies (s : State) (site : Nat) (all : Bool) : State :=
  let cl := clusterOf site
  let hit (c : Copy) : Bool := c.who.site == site && (c.needsCore || all)
  let flt (c : Copy) : Flt := { cls := 0x12, sub := 0x01, kind := kEngine, size := 0xF, faddr := W c.src }
  let s := s.modCl cl fun x => { x with copies := x.copies.map fun c => if hit c then { c with err := c.err.or (some (flt c)) } else c }
  let reqs := s.net.filterMap fun y => match y.body with
    | .copyReq c => if hit c then some (y.id, c) else none
    | _ => none
  reqs.foldl (fun s x => (s.drop x.1).answerFault (.engine cl) x.2.who (flt x.2) false false x.2.id none false) s

/-- The type 3 table that a discarded operation would have swapped. -/
def MatOp.swaps (o : MatOp) (t : Nat) : Bool :=
  match o.k with
  | .ctswap x => x == t
  | _ => false

/-- The matrix unit discards the accepted operations of a contained core, with no completion signal, a pending post among them, and requests that it has
not accepted end in NET 0x01 (R222). -/
def State.loseMatrix (s : State) (site : Nat) : State :=
  let cl := clusterOf site
  let mine (o : MatOp) : Bool := o.who.site == site
  let c := s.cl cl
  let gone := (c.mops ++ (c.mrun.map (·.op)).toList ++ (c.erun.map (·.op)).toList).filter mine
  let owns (op : Nat) : Bool := (tget s.ops op).any fun o => o.cls == .mx && o.site == site
  let posts := s.net.filterMap fun y => match y.body with
    | .semPost n _ op | .opFlags _ _ op (some (n, _)) => if n == cl && owns op then some (y.id, op) else none
    | _ => none
  let swaps := c.swapOps.filter fun e => owns e.2
  let s := posts.foldl (fun s x => (s.drop x.1).endOp x.2) s
  let s := (gone.map (·.id) ++ swaps.map (·.2)).foldl (fun s i => s.endOp i) s
  let s := s.modCl cl fun x =>
    { x with
      mops := x.mops.filter fun o => !mine o
      mrun := x.mrun.filter fun r => !mine r.op
      erun := x.erun.filter fun r => !mine r.op
      unchecked := x.unchecked.filter fun u => u.site != site
      swapOps := x.swapOps.filter fun e => !(swaps.contains e)
      t3swap := x.t3swap.filter fun t => !(gone.any fun o => o.swaps t) && !(swaps.any fun e => e.1 == t) }
  let reqs := s.net.filterMap fun y => match y.body with
    | .matReq o => if mine o then some (y.id, o) else none
    | _ => none
  reqs.foldl (fun s x => (s.drop x.1).netOpen (.engine cl) x.2.who kEngine x.2.id) s

/-- The copy engine and the matrix unit of a cluster without an enabled core are disabled (R15): what they still hold ends as it does for
a contained core (R198, R222), and a post that waits is not made.  DEDUCED, log entry 106. -/
def State.disableEngines (s : State) (cl : Nat) : State :=
  let s := (List.range 16).foldl (fun s i => (s.loseCopies (siteOf cl i) true).loseMatrix (siteOf cl i)) s
  let posts := s.net.filterMap fun y => match y.body with
    | .semPost n _ op => if n == cl then some (y.id, op) else none
    | _ => none
  posts.foldl (fun s x => (s.drop x.1).endOp x.2) s

/-- The barrier file of a contained core is sealed: its waiters receive BAR 0x0C (R344). -/
def State.sealBars (s : State) (site : Nat) : State :=
  (s.core site).bars.foldl (fun s b => if b.2.state = 1 then s.invalidateBar site b.1 0x0C else s) s

/-- The steps of R393 on a core that has stopped; `all` says that its die is reset.  DEDUCED, log entry 72. -/
def State.contain (s : State) (site : Nat) (all : Bool) : State :=
  let s := s.loseDirty site
  let s := (s.linesIn (.l1 site)).foldl (State.containLine site all) s
  let s := s.modCore site fun c => { c with bound := [], streak := [] }
  let s := (((s.sealBars site).loseTv site).loseCopies site all).loseMatrix site
  { s with parts := s.parts.map fun p => (p.1, p.2.standIn site) }

/-- Step CONTAIN (R393). -/
def execContain (c : Nat) (s : State) : Out :=
  if (s.core c).life = .containing then .next ((s.contain c false).logEvent (.core c) 0x11 0x00 0) else .next s

/-- A LOST 0x02 message for a line (R377): a report under its context ID, to the descriptor that R370 gives its context.
DESIGN CHOICE, log entry 7; DEDUCED, log entry 60. -/
def State.lostMessage (s : State) (site : Nat) (l : Line) : State :=
  let desc := if l.svc then 0 else 0x11
  let f : Flt := { cls := 0x11, sub := 0x02, kind := 0, size := 0xF, faddr := Config.freeWord s.free }
  ({ s with free := s.free + 1 }).pushFault site (some l) none l.part desc (mkCause 0#32 0 true l.svc f) f.faddr none

/-- Step CONTAINMENT_COMPLETE (R392): whatever of R393 is left is done, the LOST messages are pushed, and the core is
CONTAINED.  DEDUCED, log entry 72. -/
def execContainmentComplete (c : Nat) (s : State) : Out :=
  if (s.core c).life = .containing then
    let s := s.contain c false
    let lost := s.lines.filter fun e => e.2.life == .lost && e.2.place == .l1 c
    let s := lost.foldl (fun s e => (s.lostMessage c e.2).moveLine e.1 { e.2 with place := .mem }) s
    .next (s.modCore c fun x => { x with life := .contained })
  else .next s

/-! ## The end of a kernel by request, and restartable kernels (R406) -/

/-- The continuation records of a kernel are discarded; each new context among them counts at its anchor as one that is
LOST.  DEDUCED, log entry 66. -/
def State.discardConts (s : State) (p kid : Nat) : State :=
  let mine (r : Cont) : Bool := r.part == p && r.kid == kid
  let recs := s.clusters.flatMap fun c => c.2.conts.flatMap fun q => q.2.filter fun r => mine r && !r.resume
  let s := recs.foldl (fun s r => s.modNode p kid r.anchor fun n =>
    if n.standIn then n else { n with live := n.live - 1, untrig := n.untrig - b2n (!r.trg), err := n.err ||| 1 }) s
  let purge (q : Nat × List Cont) : Nat × List Cont := (q.1, q.2.filter fun r => !(mine r))
  { s with clusters := s.clusters.map fun c => (c.1, { c.2 with conts := c.2.conts.map purge }) }

/-- END KERNEL (R406): every live line of the kernel becomes LOST, its records are discarded, its placement stops, and it ends
FAULTED with ERR LOST; one that is not placed ends at once. -/
def State.endKernel (s : State) (p kid : Nat) : State :=
  match (s.part p).kernel? kid with
  | none => s
  | some k =>
    if k.state = .queued then
      let s := match k.gang.bind (·.who) with
        | some w => s.send (.placer p) (.line w.key) vnReply (.gangGrant w.key)
        | none => s
      s.finishKernel p k 0 1 0
    else
      let live := s.lines.filter fun e => e.2.life == .live && !e.2.away && e.2.part == p && e.2.kid == kid
      let s := (live.foldl (fun s e => s.loseLine e.1) s).discardConts p kid
      s.modKernel p kid fun k =>
        { k with
          ending := true, nextSeed := k.hdr.count
          nodes := match k.nodes with
            | [] => []
            | n :: rest => { n with err := n.err ||| 1 } :: rest }

/-- A kernel with RSE = 1 that has a LOST context and has not been ended (R406). -/
def State.toEnd (s : State) : Option (Nat × Kernel) :=
  s.parts.findSome? fun p =>
    (p.2.kernels.find? fun k => k.hdr.rse && !k.ending && k.state != .queued && k.lost).map fun k => (p.1, k)

/-- The device ends restartable kernels that have lost a context, and reports each with REC 0x06 (R406). -/
def State.endRestartable (s : State) : State :=
  match s.toEnd with
  | none => s
  | some (p, k) =>
    (s.endKernel p k.hdr.kid).report (k.hosts.headD 0) p 0 0
      { cls := 0x10, sub := 0x06, kind := 0, size := 0xF, faddr := W (k.hdr.rs * 2 ^ 16 + k.hdr.kid) }

/-! ## Die reset (R395, R267) -/

/-- The context L2s of a die are lost: every live line in them becomes LOST, and its message is pushed. -/
def State.loseL2 (s : State) (die : Nat) : State :=
  (s.lines.filter fun e => match e.2.place with
    | .l2 cl => e.2.life != .lost && dieOfCl cl == die
    | .l1 _ | .mem => false).foldl (fun s e =>
      if e.2.life = .exited then s.moveLine e.1 { e.2 with place := .mem }
      else (((s.loseLine e.1).closeMailbox e.2).lostMessage (siteNo die 0 0) e.2)) s

/-- A cluster of a reset die loses its SRAM: every operation its engines hold ends, its waiters fault and its records are
discarded; the power state is the Escapement's. -/
def State.resetCluster (s : State) (cl : Nat) : State :=
  let c := s.cl cl
  let s := c.copies.foldl (fun s x =>
    s.answerFault (.engine cl) x.who { cls := 0x12, sub := 0x01, kind := kEngine, size := 0xF, faddr := W x.src } (x.op != .apnd) false
      x.id (if x.op = .apnd then none else some (x.record x.cid)) false) s
  let s := c.semWait.foldl (fun s x =>
    match s.line? x.key with
    | none => s
    | some l =>
      s.netOpen (.engine cl)
        { key := x.key, gen := l.gen, site := siteOf cl 0, slot := l.lastSlot, ks := 0, part := l.part, asid := l.asid, priv := l.priv,
          pc := l.ipc, enc := l.ienc, len := l.ilen } kEngine 0) s
  let recs := (c.conts.flatMap (·.2)).filter fun r => !r.resume
  let s := recs.foldl (fun s r => s.modNode r.part r.kid r.anchor fun n =>
    if n.standIn then n else { n with live := n.live - 1, untrig := n.untrig - b2n (!r.trg), err := n.err ||| 1 }) s
  s.setCl cl { Cluster.reset with account := c.account, grant := c.grant, temp := c.temp }

/-- A write lost with its slice: its writer receives NET 0x01, in place of the acknowledgement of a mirror that is still to come (R242,
R393, R395). -/
def State.loseWriter (s : State) (die : Nat) (a : Acc) : State :=
  let late := (s.net.find? fun y => match y.body with
    | .dack w tok _ counted => w.key == a.w.key && tok == a.tok && counted
    | .mirror w tok _ _ counted => w.key == a.w.key && tok == a.tok && counted
    | _ => false).map (·.id)
  let s := match late with
    | some i => s.drop i
    | none => s
  if a.w.key = noKey then s
  else s.answerFault (.die die) a.w (netFlt a.k a.va) true false 0 (some (deferredRecord s a.w a.k)) (a.leaf.durable && late.isSome)

/-- Slice data of a die that is not in HBM, or whose mirror has not acknowledged it, is lost, and each writer receives NET 0x01 (R242,
R395 step 2); `keep` names the lines that survive all the same.  DESIGN CHOICE, log entry 35. -/
def State.loseSlices (s : State) (die : Nat) (keep : List Nat) : State :=
  let here (e : Nat × SliceLine) : Bool := dieOfCl (s.homeAt e.2.part e.1) == die
  let mine := s.slices.filter here
  let s : State := { s with slices := s.slices.filter fun e => !(here e) }
  (mine.filter fun e => !keep.contains e.1).foldl (fun s e =>
    let s : State :=
      { s with
        mem := memWrite s.mem (e.1 * 64) e.2.hbm
        net := s.net.filter fun y => match y.body with
          | .mirrorPend g _ => g != e.1
          | _ => true }
    e.2.writers.foldl (fun s a => s.loseWriter die a.1) s) s

/-- The replicas that lay on a die are gone, and their append homes say so; the append homes of the die reload NX from the recovered tail,
and whoever waits there receives a NET fault (R265, R267). -/
def State.reloadAppends (s : State) (die : Nat) : State :=
  (s.appends.foldl (fun s e => s.dropReplica e.1 die) s).appends.foldl (fun s e =>
    let x := e.2
    if dieOfCl (s.homeAt x.part (e.1 * 64)) = die then
      let s := x.segs.foldl (fun s g =>
        s.answerFault (.die die) g.who { cls := 0x12, sub := 0x01, kind := kAppend, size := log2Size g.len,
                                         faddr := ((s.line? g.who.key).map (·.waitAddr)).getD 0#64 } false false 0 none false) s
      let s := x.seals.foldl (fun s w =>
        s.answerFault (.die die) w { cls := 0x12, sub := 0x01, kind := kAppend, size := 0xF,
                                     faddr := ((s.line? w.key).map (·.waitAddr)).getD 0#64 } false false 0 none false) s
      { s with appends := tset s.appends e.1 { x with nx := (s.adesc x.part (e.1 * 4096)).tail, segs := [], seals := [] } }
    else s) (s.appends.foldl (fun s e => s.dropReplica e.1 die) s)

/-- Reservation queues and held requests of a die's slices are lost with its SRAM: their requests receive NET 0x01. -/
def State.loseQueues (s : State) (die : Nat) : State :=
  let resvHere (e : Nat × ResvQ) : Bool := dieOfCl (s.homeAt ((e.2.entries.head?.map (·.who.part)).getD 0) e.1) == die
  let heldHere (e : Nat × List HeldReq) : Bool := dieOfCl (s.homeAt ((e.2.head?.map (·.who.part)).getD 0) e.1) == die
  let rs := s.resv.filter resvHere
  let hs := s.heldQ.filter heldHere
  let s : State := { s with resv := s.resv.filter fun e => !(resvHere e), heldQ := s.heldQ.filter fun e => !(heldHere e) }
  let s := rs.foldl (fun s e => e.2.entries.foldl (fun s x =>
    s.answerFault (.die die) x.who (netFlt (.ldrw x.dst) x.acc.va) false false 0 none false) s) s
  hs.foldl (fun s e => e.2.foldl (fun s h => match h.msg with
    | some m => s.send (.die die) (.desc m.part) vnService (.msg m)
    | none => s.answerFault (.die die) h.who (netFlt h.k h.va) false h.k.counts h.tok none false) s) s

/-- Visitor copies of lines homed on a die, and those that the die itself holds, are dropped (R395 step 3). -/
def State.dropDieVisitors (s : State) (die : Nat) : State :=
  { s with visitors := s.visitors.filter fun e =>
      !(e.1 % 4 == die || dieOfCl (s.homeAt (s.partOfCl e.2.1) (e.1 / 4)) == die) }

/-- The reset of the home or of the mirror die of a record abandons a commit that is under way (R401).  DEDUCED, log entry 71. -/
def State.abandonCommits (s : State) (die : Nat) : State :=
  s.net.foldl (fun t x => match x.body with
    | .commit w c =>
      if c.mark.isSome ∧ (dieOfCl ((s.part w.part).home c.ga) = die ∨ s.mirrorDie w.part c.ga = die) then t.abandonCommit x.id w c else t
    | _ => t) s

/-- Step DIE_RESET (R395).  DESIGN CHOICE, log entry 35. -/
def execDieReset (d : Nat) (keep : List Nat) (s : State) : Out :=
  if 4 ≤ d ∨ s.reg.resetDies.contains d then .next s
  else
    let sites := (List.range 1024).map fun i => d * 1024 + i
    let cores := sites.filter fun c => s.enabled c
    let s := cores.foldl (fun s c => (s.startContain c).contain c true) s
    let s := s.loseL2 d
    let cls := (s.clusters.filter fun c => dieOfCl c.1 == d).map (·.1)
    let s := cls.foldl State.resetCluster s
    let s := ((((s.loseSlices d keep).loseQueues d).reloadAppends d).dropDieVisitors d).abandonCommits d
    let s : State := { s with reg := { s.reg with resetDies := s.reg.resetDies ++ [d] } }
    .next (s.parts.foldl (fun s p =>
      s.report (siteNo d 0 0) p.1 0 0 { cls := 0x11, sub := 0x01, kind := 0, size := 0xF, faddr := W d }) s)

/-! ## Loss of a stack, loss of power (R396) -/

/-- Whether a byte of HBM lies on a stack, 2 × die and one more for the second stack of the die, and only there: its line is not
mirrored.  The line belongs to the partition that wrote it last.  DESIGN CHOICE, log entry 36. -/
def State.onStack (s : State) (st a : Nat) : Bool :=
  let part := ((tget s.lastBy (a / 64)).map s.partOf).getD 0
  let die := dieOfCl (s.homeAt part (a / 64))
  decide (a < hbmEnd) && 2 * die + b2n (Config.upperStack (a / 64)) == st && !s.mirrored.contains (a / 64)

/-- The bytes of a list of cells replaced by free values where a test holds.
DESIGN CHOICE, log entry 2; DESIGN CHOICE, log entry 36; DESIGN CHOICE, log entry 37. -/
def freeCells (p : Nat → Bool) (n : Nat) (m : Mem) (cells : Mem) : Mem :=
  match cells with
  | [] => m
  | c :: rest => if p c.1 then freeCells p (n + 1) (memSet m c.1 (Config.freeByte n)) rest else freeCells p n m rest

/-- Step STACK_LOSS (R396): lines of REC pages are served from their mirrors, and the other lines of the stack are lost: their
bytes are free values.  DESIGN CHOICE, log entry 36; DESIGN CHOICE, log entry 37. -/
def execStackLoss (st : Nat) (s : State) : Out :=
  .next { s with
    mem := freeCells (s.onStack st) s.free s.mem s.mem
    free := s.free + s.mem.length
    slices := s.slices.filter fun e => !(s.onStack st (e.1 * 64)) }

/-- The package without power: everything that it holds is lost, HBM among it; host memory and peers keep theirs, and so does
what the Regulator stores for good (R396, R417, R427). -/
def State.powerDown (s : State) : State :=
  { State.reset with
    cycle := s.cycle, agenda := s.agenda, free := s.free, nextId := s.nextId, fused := s.fused, peerNo := s.peerNo, cxl := s.cxl
    mem := s.mem.filter fun c => (decide (gHost ≤ c.1) && decide (c.1 < gDev)) || decide (gPeer 0 ≤ c.1)
    parts := [(0, { Part.reset 0xFFFF with patchMin := (s.part 0).patchMin })]
    reg := { Regulator.reset with
      slotA := s.reg.slotA, slotB := s.reg.slotB, fwMin := s.reg.fwMin, retired := s.reg.retired, stored := s.reg.stored,
      powered := false } }

/-- Step POWER_LOSS (R396). -/
def execPowerLoss (s : State) : Out := .next s.powerDown

end Sys2Proof.Machine
end

