-- ==== Sys2Proof/Machine/Links.lean ====
section
/-! DEFINITION. Die edges, Troty ports and injectors (R345–R352, R355, R356).  Directions of links are numbered: 2e and 2e + 1
of die edge e, 100 + p for what port p sends and 120 + p for what it receives; injector i sits at direction i. -/

namespace Sys2Proof.Machine

/-- A direction that nothing has enabled.  DESIGN CHOICE, log entry 14. -/
def Link.reset : Link :=
  { st := .down, txSeq := 0, rxSeq := 0, replay := [], fails := 0, again := false, asked := false, held := none, resend := none, queue := [], partly := [], sentAt := 0,
    since := 0, bad := [], corrected := 0 }
/-- The direction of a number.  DESIGN CHOICE, log entry 74. -/
def State.link (s : State) (lk : Nat) : Link := tgetD s.links lk Link.reset
/-- The state with a direction replaced. -/
def State.setLink (s : State) (lk : Nat) (l : Link) : State := { s with links := tset s.links lk l }

/-- Whether traffic flows (R350). -/
def Link.flows (l : Link) : Bool := l.st == .up || l.st == .degraded

/-- The replay buffer holds 128 flits (R349). -/
def replaySize : Nat := 128
/-- Issue cycles without an acknowledgement before a replay (R349). -/
def replayTime : Nat := 4096
/-- Consecutive failed replays that retrain a link (R349). -/
def retrainFails : Nat := 16
/-- Nanoseconds that training may take (R350). -/
def trainNs : Nat := 20000

/-! ## Where a flit goes (R12, R13, R347, R348) -/

/-- The sites that link i of a die edge joins: those of a row of the western and the eastern die, or of a column of the northern
and the southern die (R12). -/
def edgeEnds (e i : Nat) : Nat × Nat :=
  if e < 2 then (siteNo (2 * e) 31 i, siteNo (2 * e + 1) 0 i) else (siteNo (e - 2) i 31, siteNo e i 0)

/-- The link of a die edge that a flit crosses: along X it stays in its source's row, and along Y it is in its destination's column
(R12, R13). -/
def edgeRow (lk : Nat) (f : FlitBody) : Nat := if lk / 2 < 2 then siteY f.src else siteX f.dst

/-- Whether dimension-order routing takes a flit over a direction of a die edge (R13). -/
def crosses (lk : Nat) (f : FlitBody) : Bool :=
  (edgesBetween (dieOf f.src) (dieOf f.dst)).contains (lk / 2) &&
    decide (lk % 2 = if lk / 2 < 2 then dieOf f.src % 2 else dieOf f.src / 2)

/-- The link, or for a Troty port the port, within a direction that a flit takes: a link that is spared gives its traffic to the
spare, number 32 (R347, R348). -/
def Link.lane (l : Link) (lk : Nat) (f : FlitBody) : Nat :=
  if 100 ≤ lk then 0 else if l.bad.contains (edgeRow lk f) then 32 else edgeRow lk f

/-- Whether a flit passes the lane of an injector: a Troty flit is striped across the lanes in use, a die-edge flit takes one
link; a spare carries traffic once it is mapped in (R347, R348, R356). -/
def Link.carries (l : Link) (lk : Nat) (f : FlitBody) (lane : Nat) : Bool :=
  if 100 ≤ lk then (if lane = 8 then !l.bad.isEmpty else decide (lane < 8) && !l.bad.contains lane) else l.lane lk f == lane

/-- Which 64 bits of a flit pass a lane: lane j of a Troty port carries bits [64j + 63 : 64j], and its spare those of the lane it
stands in for; a link of a die edge carries the whole flit, whose first 64 bits are taken (R348, R356).
DESIGN CHOICE, log entry 74. -/
def Link.stripe (l : Link) (lk lane : Nat) : Nat :=
  if 100 ≤ lk then (if lane = 8 then l.bad.headD 0 else lane) else 0

/-! ## Flits on the wire (R346, R348, R349) -/

/-- The payload of a flit in bytes: 56 on a Troty port, whose last eight bytes hold the CRC and the sequence number (R348), and all
64 on a die edge, whose CRC and sequence number travel beside them.  DESIGN CHOICE, log entry 74. -/
def payloadSize (lk : Nat) : Nat := if 100 ≤ lk then 56 else 64

/-- The bytes of a flit as they are sent: its payload, a CRC-32C over payload and sequence number, and the sequence number (R346, R348).
DESIGN CHOICE, log entry 74. -/
def flitWire (lk sq : Nat) (f : FlitBody) : List Byte :=
  let data := fitBytes (payloadSize lk) f.data
  data ++ leBytes 4 (crc32c (data ++ leBytes 4 sq)) ++ leBytes 4 sq

/-- Bytes with a disturbance XORed in from byte n on. -/
def disturb (bs : List Byte) (n : Nat) (noise : List Byte) : List Byte :=
  (List.range bs.length).map fun i => bs.getD i 0#8 ^^^ (if n ≤ i then noise.getD (i - n) 0#8 else 0#8)

/-- Whether the CRC of received bytes is right. -/
def crcGood (lk : Nat) (bs : List Byte) : Bool :=
  let n := payloadSize lk
  decide (leField bs n 4 = crc32c (bs.take n ++ (bs.drop (n + 4)).take 4) % 2 ^ 32)

/-- Whether a flit may be sent next: its direction is on its way, and it does not fall between the flits of another message of its
link and network (R13, R346). -/
def Link.fits (l : Link) (lk : Nat) (f : FlitBody) : Bool :=
  decide (f.vn < 4) && decide (f.last ≤ 4) && decide (f.idx ≤ f.last) && (decide (100 ≤ lk) || crosses lk f) &&
    (match tget l.partly (l.lane lk f * 4 + f.vn) with
      | none => f.idx == 0
      | some (m, i) => f.msg == m && f.idx == i)

/-- Whether a flit is the one of another device that goes on next over a port; poison may join it (R352, R356). -/
def Link.isNext (l : Link) (f : FlitBody) : Bool := l.queue.head?.any fun q => { q with poison := f.poison } == f

/-- A flit leaves for the first time and stays in the replay buffer (R349).  DESIGN CHOICE, log entry 74. -/
def Link.transmit (l : Link) (lk now : Nat) (f : FlitBody) : Link :=
  let k := l.lane lk f * 4 + f.vn
  { l with
    txSeq := l.txSeq + 1, replay := l.replay ++ [{ sq := l.txSeq, body := f }]
    sentAt := if l.replay.isEmpty then now else l.sentAt
    queue := if l.isNext f then l.queue.drop 1 else l.queue
    partly := if f.idx = f.last then tdel l.partly k else tset l.partly k (f.msg, f.idx + 1) }

/-- The contents of a flit that has been sent before. -/
def Link.kept (l : Link) (sq : Nat) (f : FlitBody) : FlitBody := ((l.replay.find? fun x => x.sq == sq).map (·.body)).getD f

/-- Whether a flit that has been sent before arrives next: the held one once its delay is over, or else the next of a replay (R349, R356). -/
def Link.comes (l : Link) (sq now : Nat) : Bool :=
  match l.held with
  | some (h, till) => sq == h && decide (till ≤ now)
  | none => l.resend == some sq

/-- The sender's side after such a flit. -/
def Link.after (l : Link) (sq : Nat) : Link :=
  if l.held.isSome then { l with held := none } else { l with resend := if sq + 1 < l.txSeq then some (sq + 1) else none }

/-- The port and direction on which a flit that another peer is to have leaves again (R352); none for one that stays, or with no route. -/
def State.onward (s : State) (lk : Nat) (f : FlitBody) : Option Nat :=
  if 120 ≤ lk ∧ f.dst ≠ s.peerNo ∧ s.peerRoute f.dst = true then some (100 + tgetD s.reg.routes f.dst 0 % 16) else none

/-- Whether the port a flit goes on over has room for it: until then credits keep it at its sender (R350, R352).
DESIGN CHOICE, log entry 74. -/
def State.canForward (s : State) (lk : Nat) (f : FlitBody) : Bool :=
  match s.onward lk f with
  | none => true
  | some out => decide ((s.link out).queue.length < replaySize)

/-- A core consumes poisoned data (R346, R377): KIND, SIZE and virtual address of the consuming access, where it has one, whose physical
address the report holds.  DEDUCED, log entry 73; DESIGN CHOICE, log entry 7. -/
def State.poisonedCore (s : State) (site kind size : Nat) (at_ : Option (Line × Nat)) : State :=
  match at_.map fun x => s.xlate x.1.part x.1.asid x.1.priv x.2 (.load false) with
  | some (.ok (_, l)) => s.machineCheck site 0 0 kind size (W (l.pa + (at_.map (·.2)).getD 0 % 4096))
  | some (.error _) | none => ({ s with free := s.free + 1 }).machineCheck site 0 0 kind size (Config.freeWord s.free)

/-- An accepted flit is poisoned: a core whose line or scratchpad the message is for consumes an uncorrectable error and halts
(R377), a home answers the request with NET 0x23 (R354), and any other consumer has it logged.  DEDUCED, log entry 73. -/
def State.poisoned (s : State) (lk : Nat) (f : FlitBody) : State :=
  match s.net.find? fun x => x.id == f.msg with
  | none => s.logEvent (.link lk) 0x12 0x23 f.msg
  | some x =>
    match x.dst, x.body with
    | .slice sl, .acc a => (s.drop x.id).accFault sl a (0x12, 0x23)
    | .slice sl, .req w va k tok _ => (s.drop x.id).refuse sl w va k tok (0x12, 0x23)
    | .core site, .mcast _ _ _ _ _ _ _ _ _ => (s.drop x.id).poisonedCore site kEngine 0xF none
    | .core site, _ => (s.drop x.id).poisonedCore site 0 0xF none
    | .line key, _ =>
      match s.line? key with
      | some l =>
        match l.place with
        | .l1 site => s.poisonedCore site l.waitKs.1 l.waitKs.2 (some (l, l.waitAddr.toNat))
        | .l2 _ | .mem => s.logEvent (.link lk) 0x12 0x23 f.msg
      | none => s.logEvent (.link lk) 0x12 0x23 f.msg
    | _, _ => s.logEvent (.link lk) 0x12 0x23 f.msg

/-- What an accepted flit does: poison reaches its consumer, a flit for another peer waits to go on over the port of its route or, with
no route, is answered with NET 0x20, and an answer to a peer has left with its last flit (R346, R351, R352). -/
def State.deliver (s : State) (lk : Nat) (f : FlitBody) : State :=
  if 120 ≤ lk ∧ f.dst ≠ s.peerNo then
    match s.onward lk f with
    | some out => s.setLink out { s.link out with queue := (s.link out).queue ++ [f] }
    | none => (s.logEvent (.link lk) 0x12 0x20 f.dst).answerPeer f.src 0x20
  else
    let s := if f.poison then s.poisoned lk f else s
    match s.net.find? fun x => x.id == f.msg with
    | some { body := .peerAnswer _ _, .. } => if 100 ≤ lk ∧ lk < 120 ∧ f.idx = f.last then s.drop f.msg else s
    | _ => s

/-- A flit reaches the receiver of a direction, with a disturbance from byte n on (R346, R349): a bad CRC or a gap discards it, asks for a
replay and is a corrected error, which is logged and counted; a duplicate is discarded; the expected one is accepted. -/
def State.receive (s : State) (lk : Nat) (l : Link) (sq : Nat) (f : FlitBody) (n : Nat) (noise : List Byte) : State :=
  let reject (s : State) : State :=
    (s.setLink lk { l with asked := true, corrected := l.corrected + 1 }).logEvent (.link lk) 0x12 0x00 sq
  if !crcGood lk (disturb (flitWire lk sq f) n noise) then reject s
  else if l.rxSeq < sq then (if l.asked then s.setLink lk l else reject s)
  else if sq < l.rxSeq then s.setLink lk l
  else (s.setLink lk { l with rxSeq := sq + 1, fails := 0, again := false, asked := false }).deliver lk f

/-! ## Injectors (R355, R356) -/

/-- Whether an armed injector counts the first transmission of a flit. -/
def State.counts (s : State) (lk : Nat) (f : FlitBody) : Bool :=
  let x := s.inj lk
  x.ctl.getLsbD 0 && (s.link lk).carries lk f (wfld x.ctl 24 8)

/-- The injector after it has fired: it clears ARM, or reloads N. -/
def Injector.fire (x : Injector) : Injector :=
  if x.ctl.getLsbD 1 then { x with fired := x.fired + 1, left := wfld x.ctl 32 32 }
  else { x with fired := x.fired + 1, left := 0, ctl := wput x.ctl 0 1 0 }

/-- Step INJCTL_WRITE (R355). -/
def execInjctlWrite (i : Nat) (v : Word) (s : State) : Out := .next (s.writeInjctl i v)

/-- Whether a direction can send a flit for the first time: a replay or a held flit goes first, a flit on a die edge belongs to a message on
its way, and one of another device comes from the head of its port's queue (R346, R349, R352, R356). -/
def State.sendable (s : State) (lk : Nat) (f : FlitBody) : Bool :=
  let l := s.link lk
  let mine := if lk < 100 then s.net.any (fun x => x.id == f.msg) else decide (120 ≤ lk) || f.src == s.peerNo || l.isNext f
  l.flows && l.held.isNone && l.resend.isNone && decide (l.replay.length < replaySize) && l.fits lk f && s.canForward lk f && mine

/-- Step INJECTOR_FIRE (R356): the next flit of the direction is the Nth first transmission: it arrives with the mask XORed into a
lane's 64 bits, or poisoned with a correct CRC, or it is not sent, or the link holds it and every flit behind it for DELAY issue
cycles.  DESIGN CHOICE, log entry 74. -/
def execInjectorFire (y : InjectedFlit) (s : State) : Out :=
  let i := y.link
  let f := y.flit
  let x := s.inj i
  let l := s.link i
  if !(s.sendable i f) || !(s.counts i f) || 1 < x.left then .next s
  else
    let act := wfld x.ctl 2 2
    let f := { f with poison := f.poison || act == 1 }
    let t := l.transmit i s.cycle f
    let s : State := { s with injectors := tset s.injectors i x.fire }
    .next (if act = 0 then s.receive i t l.txSeq f (8 * l.stripe i (wfld x.ctl 24 8)) (leBytes 8 x.mask.toNat)
      else if act = 1 then s.receive i t l.txSeq f 0 []
      else if act = 2 then s.setLink i t
      else s.setLink i { t with held := some (l.txSeq, s.cycle + wfld x.ctl 8 16) })

/-! ## Flits (R349) -/

/-- Step FLIT_RECEIVE (R349): a flit arrives, sent for the first time, or as the next of a replay, or once its delay is over, with whatever
the wire has done to it.  A first transmission that an injector's count is due for is INJECTOR_FIRE's.  DESIGN CHOICE, log entry 74. -/
def execFlitReceive (lk sq : Nat) (f : FlitBody) (noise : List Byte) (s : State) : Out :=
  let l := s.link lk
  let first := decide (sq = l.txSeq)
  let due := first && s.counts lk f && decide ((s.inj lk).left ≤ 1)
  let f := if first then f else l.kept sq f
  if !l.flows || due || !(if first then s.sendable lk f else l.comes sq s.cycle) || !(s.canForward lk f) then .next s
  else
    let l' := if first then l.transmit lk s.cycle f else l.after sq
    let s : State := if first && s.counts lk f then
        { s with injectors := tset s.injectors lk { s.inj lk with left := (s.inj lk).left - 1 } }
      else s
    .next (s.receive lk l' sq f 0 noise)

/-- A replay begins at a flit of the buffer; one that begins before the last has brought the missing flit makes that one a failed replay
(R349). -/
def Link.replayFrom (l : Link) (sq now : Nat) : Link :=
  { l with fails := if l.again then l.fails + 1 else l.fails, again := true, asked := false, resend := some sq, sentAt := now }

/-- Step REPLAY_REQUEST (R349): the receiver has discarded a flit and asks for the first missing sequence number, from which the
transmitter resends in order; nothing leaves the buffer. -/
def execReplayRequest (lk sq : Nat) (s : State) : Out :=
  let l := s.link lk
  if !l.flows || !l.asked || sq ≠ l.rxSeq || !(l.replay.any fun f => f.sq == sq) then .next s
  else .next (s.setLink lk (l.replayFrom sq s.cycle))

/-- Step LINK_ACK (R349): an acknowledgement frees the flits up to a sequence number that the receiver has accepted. -/
def execLinkAck (lk sq : Nat) (s : State) : Out :=
  let l := s.link lk
  if l.flows && decide (sq < l.rxSeq) then
    .next (s.setLink lk { l with
      replay := l.replay.filter fun f => decide (sq < f.sq), sentAt := s.cycle
      resend := (l.resend.map fun r => max r (sq + 1)).filter fun r => decide (r < l.txSeq) })
  else .next s

/-- Step REPLAY_TIMEOUT (R346, R349): no acknowledgement within 4,096 issue cycles: the transmitter replays its buffer unasked, and what the
link still holds would arrive as a duplicate (R356).  A flit that only this replay brings is a corrected error. -/
def execReplayTimeout (lk : Nat) (s : State) : Out :=
  let l := s.link lk
  match l.replay.head? with
  | none => .next s
  | some x =>
    if l.flows && decide (l.sentAt + replayTime ≤ s.cycle) then
      let l' := { l.replayFrom x.sq s.cycle with held := none }
      if !l.asked && decide (l.rxSeq < l.txSeq) then
        .next ((s.setLink lk { l' with corrected := l.corrected + 1 }).logEvent (.link lk) 0x12 0x00 l.rxSeq)
      else .next (s.setLink lk l')
    else .next s

/-- Step LINK_RETRAIN (R349, R350): sixteen consecutive replays of the missing flit have failed; the replay buffer is kept. -/
def execLinkRetrain (lk : Nat) (s : State) : Out :=
  let l := s.link lk
  if l.flows && decide (retrainFails ≤ l.fails) then
    .next (s.setLink lk { l with
      st := .training, since := s.gtime, fails := 0, again := false, asked := false, held := none, resend := l.replay.head?.map (·.sq) })
  else .next s

/-! ## States (R350–R352) -/

/-- Whether a message is a request, which an error reply answers where it is next looked at (R351). -/
def Body.isRequest (b : Body) : Bool :=
  match b with
  | .req _ _ _ _ _ | .acc _ | .hostReq _ _ _ | .bisnp _ _ _ => true
  | _ => false

/-- What a direction's buffers still held: the requests of other devices are answered with NET 0x20, and messages that are no requests are
gone with their flits (R351).  DEDUCED, log entry 73. -/
def State.loseFlits (s : State) (lk : Nat) (l : Link) : State :=
  let fs := (l.replay.filter fun x => decide (l.rxSeq ≤ x.sq)).map (·.body) ++ l.queue
  if lk < 100 then
    (fs.map (·.msg)).eraseDups.foldl (fun s m => if s.net.any fun x => x.id == m && x.body.isRequest then s else s.drop m) s
  else
    ((fs.filter fun f => f.src != s.peerNo && f.vn == 0).map fun f => (f.src, f.msg)).eraseDups.foldl (fun s x => s.answerPeer x.1 0x20) s

/-- A direction goes FAULTED: its buffers are discarded, the routes over the port become invalid, and the Regulator logs it.
Requests over it receive NET 0x20 where they are next looked at.  DEDUCED, log entry 73. -/
def State.linkFault (s : State) (lk : Nat) : State :=
  let s := s.loseFlits lk (s.link lk)
  let s := (s.setLink lk { s.link lk with
    st := .faulted, replay := [], held := none, resend := none, queue := [], partly := [], again := false, asked := false,
    fails := 0 }).logEvent (.link lk) 0x12 0x20 lk
  if 100 ≤ lk then
    let p := (lk - 100) % 20
    { s with reg := { s.reg with routes := s.reg.routes.map fun r => (r.1, if r.2 % 16 = p then r.2 % 128 else r.2) } }
  else s

/-- Whether a number names a direction of the four die edges or of the twelve Troty ports (R12, R14). -/
def isLink (lk : Nat) : Bool := decide (lk < 8) || (decide (100 ≤ lk) && decide ((lk - 100) % 20 < 12) && decide (lk < 140))

/-- Step LINK_ENABLE (R350): the Regulator enables a link that is DOWN. -/
def State.linkEnable (s : State) (lk : Nat) : State :=
  let l := s.link lk
  if l.st = .down ∧ isLink lk then s.setLink lk { Link.reset with st := .training, since := s.gtime, corrected := l.corrected } else s

/-- Step LINK_ENABLE (R350). -/
def execLinkEnable (lk : Nat) (s : State) : Out := .next (s.linkEnable lk)

/-- A FAULTED link is disabled (R350). -/
def State.linkDisable (s : State) (lk : Nat) : State :=
  let l := s.link lk
  if l.st = .faulted then s.setLink lk { l with st := .down } else s

/-- Step LINK_DISABLE (R350). -/
def execLinkDisable (lk : Nat) (s : State) : Out := .next (s.linkDisable lk)

/-- Step TRAINING_COMPLETE (R350): within 20 µs all lanes are trained; a link that uses its spare is DEGRADED. -/
def execTrainingComplete (lk : Nat) (s : State) : Out :=
  let l := s.link lk
  if l.st = .training ∧ s.gtime ≤ l.since + trainNs then
    .next (s.setLink lk { l with st := if l.bad.isEmpty then .up else .degraded })
  else .next s

/-- Step TRAINING_TIMEOUT (R350). -/
def execTrainingTimeout (lk : Nat) (s : State) : Out :=
  let l := s.link lk
  if l.st = .training ∧ l.since + trainNs < s.gtime then .next (s.linkFault lk) else .next s

/-- A lane or link of a direction is spared, and a message that a die edge's link is in the middle of goes on over the spare; a second one
makes the direction FAULTED (R347, R350). -/
def State.spare (s : State) (lk lane : Nat) : State :=
  let l := s.link lk
  if l.bad.contains lane then s
  else if l.bad.isEmpty then
    let moved := if lk < 100 then l.partly.filter fun e => e.1 / 4 == lane else []
    let partly := moved.foldl (fun t e => tset (tdel t e.1) (32 * 4 + e.1 % 4) e.2) l.partly
    s.setLink lk { l with st := .degraded, bad := [lane], partly := partly }
  else s.linkFault lk

/-- Step LANE_DEGRADE (R350): the corrected error rate of a lane or link exceeds the Regulator's threshold. -/
def execLaneDegrade (lk lane : Nat) (s : State) : Out := if (s.link lk).flows then .next (s.spare lk lane) else .next s

/-- Step LANE_TRAINING_FAILURE (R350): a lane or link fails training. -/
def execLaneTrainingFailure (lk lane : Nat) (s : State) : Out :=
  let l := s.link lk
  if l.st = .training ∨ l.st = .degraded then .next (s.spare lk lane) else .next s

end Sys2Proof.Machine
end

