-- ==== Sys2Proof/Machine/Host.lean ====
section
/-! DEFINITION. The host port (R353–R364): register space as the host writes it, host accesses to HBM, snoops both ways, and
the flips of a page's bias. -/

namespace Sys2Proof.Machine

/-! ## Requests of the device to the host (R361) -/

/-- The access that waits for a line of the host. -/
def State.hostReq? (s : State) (m : Nat) : Option (Nat × Nat × Bool × Acc) :=
  match s.net.find? fun x => x.id == m with
  | some { dst := .slice sl, body := .hostReq g own a, .. } => some (sl, g, own, a)
  | _ => none

/-- A completion error of the host (R354): the access that waits ends in NET 0x24. -/
def State.hostError (s : State) (m : Nat) : State :=
  match s.hostReq? m with
  | some (sl, _, _, a) => (s.drop m).accFault sl a (0x12, 0x24)
  | none => s

/-- Step HOST_RESPONSE (R14, R361, R354): the line reaches its home slice, shared or owned, where a way is made free for it, and the
access goes on; or the host answers with an error. -/
def execHostResponse (m : Nat) (d : List Byte) (err : Bool) (s : State) : Out :=
  match s.hostReq? m with
  | some (sl, g, own, a) =>
    if err then .next (s.hostError m)
    else if s.allPinned sl g then .next s
    else
      let s := s.sliceRoom sl g
      let s : State := { s with
        mem := memWrite s.mem (g * 64) (fitBytes 64 d)
        hostHeld := tset s.hostHeld g (if own then .modified else .shared) }
      .next (s.rebody m (.acc a))
  | none => .next s

/-- Step HOST_COMPLETION_TIMEOUT (R354): a request to the host receives no completion in time. -/
def execHostCompletionTimeout (m : Nat) (s : State) : Out := .next (s.hostError m)

/-! ## Snoops of the host (R362) -/

/-- The number of a line of host memory. -/
def hostLine (pa : Nat) : Nat := (gHost + pa) / 64

/-- Step SNP_INV (R362): every visitor copy is invalidated, dirty data is returned, and the line is dropped. -/
def execSnpInv (pa : Nat) (s : State) : Out :=
  let g := hostLine pa
  let s := ((s.recallStashes g none true).recallOwned g none).dropVisitors g
  .next { s with hostHeld := tdel s.hostHeld g }

/-- Step SNP_DATA (R362): the data is returned and the line stays shared. -/
def execSnpData (pa : Nat) (s : State) : Out :=
  let g := hostLine pa
  let s := s.recallStashes g none false
  match tget s.hostHeld g with
  | some _ => .next { s with hostHeld := tset s.hostHeld g .shared }
  | none => .next s

/-- Step SNP_CUR (R362): the data is returned and no state changes; what a stash holds dirty is written back for it.
DEDUCED, log entry 75. -/
def execSnpCur (pa : Nat) (s : State) : Out := .next (s.recallStashes (hostLine pa) none false)

/-! ## Host accesses to HBM (R357, R363) -/

/-- Whether a page is being flipped in some partition, or one of the lines is bound in a core (R70, R364). -/
def State.hostWaits (s : State) (pa n : Nat) : Bool :=
  ((List.range ((pa + n - 1) / 4096 - pa / 4096 + 1)).any fun i => s.flipping (pa / 4096 + i)) ||
    (List.range ((pa + n - 1) / 128 - pa / 128 + 1)).any fun i =>
      match s.line? (pa / 128 + i) with
      | some l => l.bound.isSome && l.life == .live
      | none => false

/-- The first partition whose clusters hold the homes of HBM for the host. -/
def State.hostPart (s : State) : Nat := (s.parts.head?.map (·.1)).getD 0

/-- A host access to one line, as a device access of the same size at the home slice.  DEDUCED, log entry 75. -/
def State.hostLineAccess (s : State) (part : Nat) (x : Nat × List Byte) (wr : Bool) : State :=
  let g := x.1 / 64
  if wr then s.pokeGa part (siteNo 0 0 0) x.1 x.2
  else (s.recallStashes g none false).recallOwned g none

/-- A host access to bytes of HBM, line by line; a read through CXL leaves the host with a shared copy on a page in device
bias, and on one in host bias the device tracks nothing. -/
def State.hostAccess (s : State) (pa : Nat) (wr : Bool) (d : List Byte) (tracks : Bool) : State :=
  let part := s.hostPart
  (splitLines (d.length + 1) pa d).foldl (fun s x =>
    if s.slDown ((s.part part).home x.1) then s
    else
      let s := s.hostLineAccess part x wr
      if tracks && !wr && !(s.hostBias part x.1) then { s with hostHeld := tset s.hostHeld (x.1 / 64) .shared } else s) s

/-- Whether a device access to the same lines waits at their home since before a message (R364). -/
def State.deviceFirst (s : State) (m pa n : Nat) : Bool :=
  s.net.any fun y => decide (y.id < m) && match y.body with
    | .acc a => (glines pa n).contains (a.ga / 64)
    | .hostAcc pa' _ d _ => (glines pa n).any fun g => (glines pa' d.length).contains g
    | _ => false

/-- A host access as it arrives or, when it has waited, as its turn comes: what its lines wait for makes it wait at their home, in arrival
order with the device's accesses (R70, R364).  DEDUCED, log entry 75. -/
def State.hostArrive (s : State) (pa : Nat) (wr : Bool) (d : List Byte) (tracks : Bool) : State :=
  match s.net.find? fun y => y.body == .hostAcc pa wr d tracks with
  | some y => if s.hostWaits pa d.length || s.deviceFirst y.id pa d.length then s else (s.drop y.id).hostAccess pa wr d tracks
  | none =>
    if s.hostWaits pa d.length || s.net.any (fun y => match y.body with
        | .hostAcc pa' _ d' _ => (glines pa d.length).any fun g => (glines pa' d'.length).contains g
        | _ => false) then
      s.send (.port 0) (.slice ((s.part s.hostPart).home pa)) regVn (.hostAcc pa wr d tracks)
    else s.hostAccess pa wr d tracks

/-- Step HOST_MEM_ACCESS (R363): a CXL.mem access. -/
def execHostMemAccess (pa : Nat) (wr : Bool) (d : List Byte) (s : State) : Out :=
  if !s.cxl || decide (hbmEnd < pa + d.length) then .next s else .next (s.hostArrive pa wr d true)

/-- Step BAR2_ACCESS (R357): without CXL, BAR 2 maps HBM from PA 0; bytes above read as zero and drop writes.
DESIGN CHOICE, log entry 33. -/
def execBar2Access (off : Nat) (wr : Bool) (d : List Byte) (s : State) : Out :=
  let d := d.take (hbmEnd - off)
  if s.cxl then .next s else .next (s.hostArrive off wr d false)

/-! ## Back-invalidate snoops and bias flips (R363, R364) -/

/-- Step BIRSP (R364): the host answers a snoop: dirty data is written to the line, an invalidation ends its copy, and the
access that waited goes on. -/
def execBirsp (m : Nat) (d : List Byte) (s : State) : Out :=
  match s.net.find? fun x => x.id == m with
  | some { body := .bisnp g inv a, .. } =>
    let s : State := if d.isEmpty then s else { s with mem := memWrite s.mem (g * 64) (fitBytes 64 d) }
    let s : State := if inv then { s with hostHeld := tdel s.hostHeld g } else s
    match a with
    | some a => .next (s.rebody m (.acc { a with snooped := true }))
    | none => .next (s.drop m)
  | _ => .next s

/-- Step BIAS_FLIP_HOST (R364): GO with DIR 1. -/
def execBiasFlipHost (p : Nat) (s : State) : Out := .next (s.biasGo p true)

/-- Step BIAS_FLIP_DEVICE (R364): GO with DIR 0. -/
def execBiasFlipDevice (p : Nat) (s : State) : Out := .next (s.biasGo p false)

/-- Step FLIP_COMPLETE (R364): when every snoop of the page is answered, the coordinating home writes the bias bit, clears BUSY
and raises the flip-done cause. -/
def execFlipComplete (p : Nat) (s : State) : Out :=
  let x := s.part p
  match x.flip with
  | none => .next s
  | some (page, dir) =>
    let snooping := s.net.any fun y => match y.body with
      | .bisnp g _ _ => g / 64 == page
      | _ => false
    if snooping then .next s
    else
      let done (s : State) : Out := .next ((s.modPart p fun y => { y with flip := none, bfctl := y.bfctl &&& 11 }).causeBit p 16)
      let base := wfld x.biasbase 12 40 * 4096
      let at_ := base + page / 8
      let old := s.rdNat at_ 1
      let bit := 2 ^ (page % 8)
      let new := if dir = 1 then old ||| bit else old &&& (255 ^^^ bit)
      if base = 0 then done s
      else
        match s.outerReady p [(at_, leBytes 1 new)] true with
        | .ok t => done (t.pokeGa p (siteNo 0 0 0) at_ (leBytes 1 new))
        | .wait t => .next (s.keepMsgs t)
        | .fault _ _ _ => .next s

/-! ## Register space (R358, R359) -/

/-- Step INTERRUPT_CAUSE_WRITE (R359). -/
def execInterruptCauseWrite (p : Nat) (v : Word) (s : State) : Out := .next (s.writeCause p v.toNat)

/-- Where the MSI-X table of a virtual function is kept; BAR 0 of function 0 does not show it (R357, R358).
DESIGN CHOICE, log entry 74. -/
def vfTable (fn : Nat) : Nat := gDev + 2 ^ 41 + fn * 2 ^ 20

/-- Step REGISTER_WRITE (R358): a write of 1, 2, 4 or 8 aligned bytes by function 0, or by virtual function fn, which maps the
window of partition fn − 1 and has its own MSI-X table. -/
def execRegisterWrite (fn off size : Nat) (v : Word) (s : State) : Out :=
  let bs := leBytes size v.toNat
  if !([1, 2, 4, 8].contains size) || off % size != 0 || decide (16 < fn) then .next s
  else if fn = 0 then (if off < 0x4000000 then .next (s.regWrite .function0 off bs) else .next s)
  else if off < 0xF0000 then .next (s.regWrite .function0 (0x100000 + (fn - 1) * 0x100000 + off) bs)
  else if off < 0xF0800 then .next { s with mem := memWrite s.mem (vfTable fn + (off - 0xF0000)) bs }
  else .next s

end Sys2Proof.Machine
end

