-- ==== Sys2Proof/Machine/Regulator.lean ====
section
/-! DEFINITION. The Regulator's requests and steps (R382, R392, R406, R416–R427): merge and split, kernels ended, patch images,
cores restarted and retired, attestation, firmware, links, object readback, temperature and power. -/

namespace Sys2Proof.Machine

/-! ## Mailbox requests (R421) -/

/-- How far round the mailboxes a number lies behind the one served last. -/
def Regulator.rank (r : Regulator) (box : Nat) : Nat := (box + 16 - r.lastBox) % 17

/-- The request that is served next, round-robin over the mailboxes: its mailbox, its partition and its arguments. -/
def State.regReq? (s : State) (m code : Nat) : Option (Nat × Nat × List Nat) :=
  match s.find? m with
  | some (.reg box cmd args) =>
    let earlier := s.net.any fun y => match y.body with
      | .reg b _ _ => decide (s.reg.rank b < s.reg.rank box)
      | _ => false
    if cmd % 256 = code && !earlier then some (box, cmd / 256 % 256, args) else none
  | _ => none

/-- A request ends: done, or refused with a reason. -/
def State.regEnd (s : State) (m box : Nat) (reason : Option Nat) : State :=
  let s := s.drop m
  ({ s with reg := { s.reg with lastBox := box } }).mailDone box reason

/-- The reason codes of R421.  DESIGN CHOICE, log entry 76. -/
def rBusy : Nat := 1
/-- Quiesce failed. -/
def rQuiesce : Nat := 2
/-- Signature. -/
def rSignature : Nat := 3
/-- Version. -/
def rVersion : Nat := 4
/-- Operand. -/
def rOperand : Nat := 5

/-- A mailbox request: what it does, or the reason of its refusal.  DESIGN CHOICE, log entry 76. -/
def serve (m code : Nat) (s : State) (f : Nat → Nat → List Nat → Except Nat State) : Out :=
  match s.regReq? m code with
  | none => .next s
  | some (box, p, args) =>
    match f box p args with
    | .ok t => .next (t.regEnd m box none)
    | .error r => .next (s.regEnd m box (some r))

/-! ## Quiet partitions, homes that move (R382, R386) -/

/-- Whether every queue of the service table is EMPTY.  DEDUCED, log entry 77. -/
def State.servicesEmpty (s : State) (p : Nat) : Bool :=
  let base := wfld (s.part p).svcq 11 43 * 2048
  base == 0 || (List.range 32).all fun i =>
    match s.xlate p (wfld (s.part p).sasid 0 16) 2 (base + 64 * i) .descRead with
    | .ok (t, l) => (t.desc (l.ga (base + 64 * i))).c == 0
    | .error _ => true

/-- Whether every queue of R382 of a partition is EMPTY and its placer's tables are empty. -/
def State.partEmpty (s : State) (p : Nat) : Bool :=
  let x := s.part p
  x.kernels.isEmpty && x.replays.isEmpty && (x.rings.all fun r => r.2.d == 0) &&
    (x.clusters.all fun c => ((s.cl c).conts.all fun q => q.2.isEmpty) && (s.cl c).mqueues.all fun q => q.2.isEmpty) &&
    (s.heldQ.all fun q => q.2.all fun h => h.who.part != p) && s.servicesEmpty p

/-- Whether a partition is quiesced: a switch runs, or nothing is placed and nothing is queued.  DEDUCED, log entry 77. -/
def State.quiet (s : State) (p : Nat) : Bool := (s.part p).gsstat.toNat % 4 == 2 || s.partEmpty p

/-- The stash and the owned lines of a core are written back and dropped. -/
def State.emptyStash (s : State) (site : Nat) : State :=
  let s := (s.core site).stash.foldl (fun s x => s.recallStash site x false) s
  s.modCore site fun c => { c with owned := [] }

/-- HOME_MOVE (R386): every slice of a partition writes its dirty lines back and drops what it caches; the copies that cores
and other slices hold are written back and dropped; the granule takes effect; reservation queues stay with their lines, and
the append homes reload their descriptors.  DESIGN CHOICE, log entry 76. -/
def State.moveHomes (s : State) (p : Nat) : State :=
  let x := s.part p
  let s := x.sites.foldl State.emptyStash s
  let mine (e : Nat × SliceLine) : Bool := e.2.part == p
  let reload (e : Nat × Append) : Nat × Append :=
    if e.2.part = p then (e.1, { e.2 with nx := (s.adesc p (e.1 * 4096)).tail }) else e
  let s := (s.appends.filter fun e => e.2.part == p).foldl (fun s e => s.dropReplicas e.1) s
  let flush (e : Nat × Cluster) : Nat × Cluster := if x.clusters.contains e.1 then (e.1, { e.2 with tcache := [] }) else e
  let s : State := { s with
    slices := s.slices.filter fun e => !(mine e)
    visitors := s.visitors.filter fun e => !(x.clusters.contains e.2.1)
    appends := s.appends.map reload
    clusters := s.clusters.map flush }
  s.modPart p fun x => { x with ilvNow := wfld x.ilv 0 1 }

/-- What concerns one partition concerns another from now on: its append homes and its written lines. -/
def State.rename (s : State) (q p : Nat) : State :=
  let app (e : Nat × Append) : Nat × Append := if e.2.part = q then (e.1, { e.2 with part := p }) else e
  let slice (e : Nat × SliceLine) : Nat × SliceLine := if e.2.part = q then (e.1, { e.2 with part := p }) else e
  { s with appends := s.appends.map app, slices := s.slices.map slice }

/-- The translation caches of a partition dropped. -/
def State.dropTranslations (s : State) (p : Nat) : State :=
  (s.part p).clusters.foldl (fun s c => s.modCl c fun x => { x with tcache := [] }) s

/-- A partition's homes move when the granule that takes effect differs from the one in force (R386); its slice data is kept
otherwise. -/
def State.regrain (s : State) (p granule : Nat) : State :=
  if (s.part p).ilvNow = granule then s.dropTranslations p else s.moveHomes p

/-- Step MERGE (R382, R386): the partition that the first argument names joins the request's, which takes its quarters under the granule
that it asks for.  DESIGN CHOICE, log entry 76. -/
def execMerge (m : Nat) (s : State) : Out :=
  serve m 1 s fun box p args =>
    let q := args.getD 0 0
    if box < 16 ∨ p = q ∨ (tget s.parts p).isNone ∨ (tget s.parts q).isNone then .error rOperand
    else if !(s.partEmpty p && s.partEmpty q) then .error rQuiesce
    else
      let granule := wfld (s.part p).ilv 0 1
      let s := ((s.regrain p granule).regrain q granule).rename q p
      let mask := (s.part p).mask ||| (s.part q).mask
      .ok (({ s with parts := tdel s.parts q }).modPart p fun x => { x with mask := mask, ilvNow := granule })

/-- Step SPLIT (R382): the quarters of the second argument leave for a new partition that the first one numbers.
DESIGN CHOICE, log entry 76. -/
def execSplit (m : Nat) (s : State) : Out :=
  serve m 2 s fun box p args =>
    let q := args.getD 0 0
    let mask := args.getD 1 0
    let old := (s.part p).mask
    if box < 16 ∨ (tget s.parts p).isNone ∨ 16 ≤ q ∨ (tget s.parts q).isSome ∨ mask = 0 ∨ mask &&& old ≠ mask ∨ mask = old then
      .error rOperand
    else if !s.partEmpty p then .error rQuiesce
    else
      let s := s.moveHomes p
      .ok ((s.modPart p fun x => { x with mask := old ^^^ mask }).setPart q (Part.reset mask))

/-! ## Kernels and cores (R392, R406, R423) -/

/-- Step END_KERNEL (R406).  DEDUCED, log entry 65. -/
def execEndKernel (m : Nat) (s : State) : Out :=
  serve m 3 s fun _ p args =>
    match (s.part p).kernel? (args.getD 0 0) with
    | none => .error rOperand
    | some k => .ok (s.endKernel p k.hdr.kid)

/-- The core that a request names, within the partition of its mailbox. -/
def State.namedCore (s : State) (box n : Nat) : Option Nat :=
  (s.siteOfLogical n).filter fun c => decide (16 ≤ box) || s.inPart box c

/-- The enabled cores of a die. -/
def State.enabledIn (s : State) (die : Nat) : Nat :=
  ((List.range 1024).filter fun i => s.enabled (die * 1024 + i)).length

/-- A contained core is retired; during its die's flood that takes effect at the next boot only (R429).  A cluster left with no
enabled core has its copy engine and its matrix unit disabled (R15), and a die left with fewer than 1,008 enabled cores is logged as
degraded (R16, R19, R423).  R16 gives
that report no form; the model logs class 0 and subclass 0 of the core, with the number of the die as detail.
DESIGN CHOICE, log entry 94. -/
def State.retire (s : State) (c : Nat) : State :=
  let flooding := (s.flood (dieOf c)).state != 0 && !(s.flood (dieOf c)).imgDone
  let s := if flooding then s else s.modCore c fun x => { x with life := .retired }
  let s : State := { s with reg := { s.reg with retired := s.reg.retired.filter (· != c) ++ [c] } }
  let s := if s.populated (clusterOf c) then s else s.disableEngines (clusterOf c)
  if s.enabledIn (dieOf c) < 1008 then s.logEvent (.core c) 0 0 (dieOf c) else s

/-- A core returns to ACTIVE (R392): kernel slots free, scratchpad, handles, barriers and trace clear, its position kept; its
die is ACTIVE again.  What a halted core holds dirty is written back first.  DEDUCED, log entry 77. -/
def State.returnCore (s : State) (c : Nat) : State :=
  let s := if (s.core c).life = .halted then (s.emptyStash c).contain c false else s
  let x := s.core c
  let s := s.setCore c { Core.reset with pos := x.pos, mism := x.mism }
  { s with reg := { s.reg with resetDies := s.reg.resetDies.filter fun d => d != dieOf c } }

/-- Step RESTART_CORE (R376, R392, R423): the self-test returns a contained or halted core, or retires a contained one.
DEDUCED, log entry 77. -/
def execRestartCore (m : Nat) (pass : Bool) (s : State) : Out :=
  match s.regReq? m 5 with
  | none => .next s
  | some (box, _, args) =>
    match s.namedCore box (args.getD 0 0) with
    | none => .next (s.regEnd m box (some rOperand))
    | some c =>
      let life := (s.core c).life
      if life ≠ .contained ∧ life ≠ .halted then .next (s.regEnd m box (some rOperand))
      else if pass then .next ((s.returnCore c).regEnd m box none)
      else if life = .contained then .next ((s.retire c).regEnd m box (some rOperand))
      else .next (s.regEnd m box (some rOperand))

/-- Step RETIRE_CORE (R423): a contained core is retired. -/
def execRetireCore (m : Nat) (s : State) : Out :=
  serve m 6 s fun box _ args =>
    match s.namedCore box (args.getD 0 0) with
    | none => .error rOperand
    | some c => if (s.core c).life = .contained then .ok (s.retire c) else .error rOperand

/-! ## Patch images (R416–R418) -/

/-- The halfword that pads a 16-bit instruction.  DEDUCED, log entry 78. -/
def nopN : Nat := 0x0220

/-- Whether an instruction may stand in a sequence (R413): one of a fixed latency, a load or store of 1 to 8 bytes, or a branch
forward within the sequence; `i` is its place among `n`.  DEDUCED, log entry 78. -/
def seqAllowed (w i n : Nat) : Bool :=
  let major := fld w 1 6
  match decodeWord w with
  | .error _ => false
  | .ok x =>
    if w % 2 = 0 then w / 2 ^ 16 == nopN
    else if major = 0x11 then fld w 24 5 == 2 || fld w 24 5 == 3
    else if major = 0x18 ∨ major = 0x19 then
      match x with
      | .ld _ z _ _ _ _ => z != .q
      | .st _ z _ _ _ => z != .q
      | _ => false
    else if major = 0x14 then
      match x with
      | .br _ off => decide (0 < off.toInt) && off.toInt % 2 == 0 && decide (off.toInt / 2 + i < n)
      | _ => false
    else decide (major ≤ 0x07) || (decide (0x09 ≤ major) && decide (major ≤ 0x10)) || major == 0x12

/-- The words of a sequence of an image.  DESIGN CHOICE, log entry 4; DEDUCED, log entry 78. -/
def imageSeq (bs : List Byte) (i : Nat) : List Nat := (List.range 16).map fun j => leField bs (0x440 + 64 * i + 4 * j) 4

/-- Whether a slot record obeys R408 and R417. -/
def slotOk (bs r : List Byte) (nseq : Nat) : Bool :=
  let f := leField r
  let act := slotAct r
  let mat := f 0 4
  let mask := f 4 4
  let enc := decide (act ≤ 2)
  let seq := f 18 1
  let n := f 19 1
  decide (act ≤ 3) && leNat (r.drop 20) == 0 && (act == 1 || f 12 4 == 0) &&
  (!(enc && !slotShort r) || (mask.testBit 0 && mat.testBit 0)) &&
  (!(enc && slotShort r) || (mask.testBit 0 && !mat.testBit 0 && mat / 2 ^ 16 == 0 && mask / 2 ^ 16 == 0)) &&
  (act != 1 || f 12 4 % 2 == 1 || f 8 4 % 2 == mat % 2) &&
  (act != 2 || (decide (seq < nseq) && decide (1 ≤ n) && decide (n ≤ 16) &&
    (List.range n).all fun i => seqAllowed ((imageSeq bs seq).getD i 0) i n)) &&
  (act != 3 || (mat / 2 ^ 16 == 0 && mask / 2 ^ 16 == 0 && !([0x11, 0x0C, 0x10].contains (mat % 256)) &&
    (decide (f 8 1 < 32) || f 8 1 == 0xFF)))

/-- Whether the reserved fields of a slot record, valid or not, are as R408 has them (R417). -/
def slotReserved (r : List Byte) : Bool :=
  let f := leField r
  let act := slotAct r
  decide (act ≤ 3) && leNat (r.drop 20) == 0 && (act == 1 || f 12 4 == 0) &&
    (act != 3 || (f 0 4 / 2 ^ 16 == 0 && f 4 4 / 2 ^ 16 == 0))

/-- The keys of the Regulator's key store: for patches and for firmware (R417, R427). -/
def patchKey : Nat := 0
/-- The firmware key. -/
def firmwareKey : Nat := 1

/-- The end of a signed object: 64 bytes over the SHA-256 of every earlier byte.  DESIGN CHOICE, log entry 4. -/
def signedOk (key : Nat) (bs : List Byte) : Bool :=
  Config.signed key (Config.sha256 (bs.take (bs.length - 64))) (bs.drop (bs.length - 64))

/-- An image verified (R417): the reason of its rejection, or what the fabrics take.
DESIGN CHOICE, log entry 4; DEDUCED, log entry 77. -/
def verifyImage (bs : List Byte) (minimum : Nat) : Except Nat Image :=
  let nseq := leField bs 8 2
  let ver := leField bs 4 4
  let rec_ (i : Nat) : List Byte := (bs.drop (0x40 + 32 * i)).take 32
  if !signedOk patchKey bs then .error rSignature
  else if ver < minimum then .error rVersion
  else if leField bs 0 4 ≠ 1 ∨ 64 < nseq ∨ leField bs 10 54 ≠ 0 ∨
      ((List.range 32).all fun i => slotReserved (rec_ i) && (!slotV (rec_ i) || slotOk bs (rec_ i) nseq)) = false then .error rOperand
  else .ok { slots := (List.range 32).map fun i => (i, rec_ i), seqs := (List.range nseq).map fun i => (i, imageSeq bs i), ver := ver,
             hash := Config.sha256 bs }

/-- Bytes of HBM that the Regulator reads, as the homes hold them. -/
def State.regFetch (s : State) (pa n : Nat) : State × List Byte :=
  let s := s.hostAccess pa false (List.replicate n 0#8) false
  (s, s.rd pa n)

/-- Whether bytes lie within HBM. -/
def inHbm (pa n : Nat) : Bool := decide (pa + n ≤ hbmEnd)

/-- Step LOAD_PATCH_IMAGE (R417, R418): a quiesced partition takes the image at once, one with a switch pending at step 5 of
R385; another refuses it.  DEDUCED, log entry 77. -/
def execLoadPatchImage (m : Nat) (s : State) : Out :=
  serve m 4 s fun _ p args =>
    let pa := args.getD 0 0
    let x := s.part p
    let pending := x.gsstat.toNat % 4 = 1
    if (tget s.parts p).isNone ∨ inHbm pa 0x480 = false then .error rOperand
    else if !(pending || s.quiet p) then .error rQuiesce
    else
      let (s, head) := s.regFetch pa 16
      let n := 0x440 + 64 * leField head 8 2 + 64
      if !inHbm pa n ∨ 64 < leField head 8 2 then .error rOperand
      else
        let (s, bs) := s.regFetch pa n
        match verifyImage bs x.patchMin with
        | .error r => .error r
        | .ok i => .ok (s.modPart p fun x => if pending then { x with imageNext := some i } else { x with image := i })

/-! ## Attestation and firmware (R426, R427) -/

/-- The image that runs as Regulator firmware. -/
def Regulator.running (r : Regulator) : List Byte := if r.runsB then r.slotB else r.slotA

/-- The report of R426 without its signature, in the order in which the rule names its parts.
DESIGN CHOICE, log entry 4; DEDUCED, log entry 78. -/
def State.report426 (s : State) (nonce : List Byte) : List Byte :=
  let parts := (List.range 16).map fun p => s.part p
  let sites (l : List Nat) : List Byte := leBytes 2 l.length ++ l.flatMap (leBytes 2)
  nonce ++ leBytes 32 (Config.sha256 s.reg.running) ++ leBytes 32 (Config.sha256 s.reg.device) ++
    parts.flatMap (fun p => leBytes 32 p.image.hash) ++ parts.flatMap (fun p => leBytes 2 p.mask) ++ sites s.fused ++ sites s.reg.retired

/-- Step ATTEST (R426): the nonce at ARG0, the signed report at ARG1. -/
def execAttest (m : Nat) (s : State) : Out :=
  serve m 7 s fun _ _ args =>
    let at_ := args.getD 1 0
    if !inHbm (args.getD 0 0) 32 then .error rOperand
    else
      let (s, nonce) := s.regFetch (args.getD 0 0) 32
      let body := s.report426 nonce
      let data := body ++ fitBytes 64 (Config.deviceSign (Config.sha256 body))
      if inHbm at_ data.length then .ok (s.hostAccess at_ true data false) else .error rOperand

/-- The VERSION of a firmware image. -/
def fwVersion (bs : List Byte) : Nat := leField bs 0 4

/-- Step UPDATE_FIRMWARE (R427): an image that verifies goes to the slot that does not run, and raises the minimum. -/
def execUpdateFirmware (m : Nat) (s : State) : Out :=
  serve m 8 s fun _ _ args =>
    let n := args.getD 1 0
    if n < 68 ∨ inHbm (args.getD 0 0) n = false then .error rOperand
    else
      let (s, bs) := s.regFetch (args.getD 0 0) n
      if !signedOk firmwareKey bs then .error rSignature
      else if fwVersion bs < s.reg.fwMin then .error rVersion
      else
        let r := { s.reg with fwMin := fwVersion bs }
        .ok { s with reg := if r.runsB then { r with slotA := bs } else { r with slotB := bs } }

/-! ## Links and objects (R350, R424) -/

/-- The two directions of an edge, 0 to 3, or of port p of the twelve, 16 + p (R12, R14). -/
def directionsOf (n : Nat) : List Nat :=
  if n < 4 then [2 * n, 2 * n + 1] else if 16 ≤ n ∧ n < 28 then [100 + (n - 16), 120 + (n - 16)] else []

/-- Step LINK_STATE (R350): ARG1 is 0 for DOWN and 1 for enable.  DESIGN CHOICE, log entry 76. -/
def execLinkState (m : Nat) (s : State) : Out :=
  serve m 9 s fun _ _ args =>
    let ds := directionsOf (args.getD 0 0)
    match ds.isEmpty, args.getD 1 0 with
    | false, 0 => .ok (ds.foldl State.linkDisable s)
    | false, 1 => .ok (ds.foldl State.linkEnable s)
    | _, _ => .error rOperand

/-- Step OBJECT_SELECT (R424): a selector names the object that the window shows. -/
def execObjectSelect (v : Word) (s : State) : Out := .next { s with reg := { s.reg with selector := v } }

/-! ## Temperature and power (R422, R425) -/

/-- 1/64 W in the floor of a cluster with an enabled core, and in the budget of the package. -/
def powerFloor : Nat := 160
/-- The package's budget in 1/64 W. -/
def powerBudget : Nat := 128000

/-- Step POWER_GRANT_STEP (R425): the floors, and the rest of the budget in proportion to the requests, which are given in
1/64 W above the floor; a cluster above 105 °C receives its floor alone, and the last step's account lapses.
DESIGN CHOICE, log entry 79. -/
def execPowerGrantStep (req : List Nat) (s : State) : Out :=
  let cls := (List.range 256).filter s.populated
  let want (c : Nat) : Nat := if 105 * 16 < (s.cl c).temp then 0 else req.getD c 0
  let total := cls.foldl (fun n c => n + want c) 0
  let rest := powerBudget - powerFloor * cls.length
  let share (c : Nat) : Nat := if total ≤ rest then want c else want c * rest / total
  .next ((List.range 256).foldl (fun s c =>
    let g := if cls.contains c then powerFloor + share c else 0
    s.modCl c fun x => { x with grant := g, account := g }) s)

/-- Step THERMAL_LIMIT (R422): a sensor reads a temperature, in 1/16 °C; above 115 °C the event is logged and power removed.
DESIGN CHOICE, log entry 79. -/
def execThermalLimit (cl temp : Nat) (s : State) : Out :=
  let s := s.modCl cl fun x => { x with temp := temp }
  if 115 * 16 < temp then .next (s.logEvent (.cluster cl) 0 0 temp).powerDown else .next s

end Sys2Proof.Machine
end

