-- ==== Sys2Proof/Machine/Switch.lean ====
section
/-! DEFINITION. The gang switch of a partition: stop, save, restore and re-inject (R385–R388; R107, R198, R222, R267, R292, R328,
R344). -/

namespace Sys2Proof.Machine

/-! ## The messages of a partition (R387) -/

/-- The partition of the line at a key. -/
def State.keyPart (s : State) (key : Nat) : Option Nat := (s.line? key).map (·.part)

/-- The partition that a message belongs to; none for what the device itself exchanges. -/
def State.partOfBody (s : State) (b : Body) : Option Nat :=
  match b with
  | .req w _ _ _ _ | .reply w _ _ _ _ | .record w _ _ | .longDone w _ _ _ | .opDone w _ | .opFlags w _ _ _ | .ack w _ _ _ _ | .dack w _ _ _
  | .fault w _ _ _ _ _ _ | .wenqPush w _ _ _ _ _ | .xinv w _ _ _ _ _ | .xinvAck w _ _ _ _ | .rcp w _ _ _ | .commit w _
  | .mcast _ _ _ w _ _ _ _ _ | .eack w _ _ _ _ _ => some w.part
  | .acc a | .hostReq _ _ a | .bisnp _ _ (some a) => some a.w.part
  | .msg m => some m.part
  | .copyReq c => some c.who.part
  | .matReq o => some o.who.part
  | .gangWithdraw _ _ p | .trigEvent _ _ p _ | .bytes _ p _ _ _ _ _ => some p
  | .notif site _ | .notifNet site _ | .ctbl site _ _ => some (s.partOf site)
  | .barDone key _ _ _ _ | .semGrant key _ | .joinDone key | .gangGrant key => s.keyPart key
  | .semPost cl _ _ => some (s.partOfCl cl)
  | .hostAcc _ _ _ _ | .peerAnswer _ _ | .mirrorPend _ _ | .mirror _ _ _ _ _ | .inval _ _ _ _ | .bisnp _ _ none | .reg _ _ _ | .present _ _ | .floodDone _ _ _ _
  | .image _ _ _ _ _ _ _ => none

/-- What the switch waits for: completions of long and engine operations and of commits, and answers of the host (R107, R198,
R222, R401). -/
def Body.finishes (b : Body) : Bool :=
  match b with
  | .longDone _ _ _ _ | .opDone _ _ | .opFlags _ _ _ _ | .semPost _ _ _ | .hostReq _ _ _ | .bisnp _ _ _ | .mcast _ _ _ _ _ _ _ _ _
  | .commit _ _ => true
  | _ => false

/-- What stays in the slice that has accepted it. -/
def Body.inSlice (b : Body) : Bool :=
  match b with
  | .wenqPush _ _ _ _ _ _ => true
  | _ => false

/-- A request as its slice meets it anew. -/
def Msg.rewound (x : Msg) : Msg :=
  match x.body with
  | .req w va k tok _ => { x with body := .req w va k tok false }
  | _ => x

/-- The cluster at which a node of the networks lies. -/
def State.nodeCl (s : State) (n : Node) : Nat :=
  match n with
  | .core site => clusterOf site
  | .slice cl | .engine cl => cl
  | .line key => match s.line? key with
    | some l => match l.place with
      | .l1 c => clusterOf c
      | .l2 cl => cl
      | .mem => s.homeAt l.part (2 * key)
    | none => 0
  | .die d => 64 * d
  | .placer p | .desc p => (s.part p).clusters.headD 0
  | .regulator | .port _ => 0

/-- The hops that a message has to go (R387).  DEDUCED, log entry 5. -/
def State.hopsOf (s : State) (x : Msg) : Nat := hops (s.nodeCl x.src) (s.nodeCl x.dst)

/-! ## Save areas (R388) -/

/-- The size of a save area, and the numbers of sites and clusters that it covers. -/
def Part.areaSites (p : Part) : Nat := p.sites.length
/-- The size of a save area in bytes. -/
def Part.areaSize (p : Part) : Nat := 65536 + (20480 + 524288) * p.areaSites + 2097152 * p.clusters.length

/-- Whether every page of an area may be used: NORMAL pages of the supervisor's address space (R384, R388).
DEDUCED, log entry 84. -/
def State.areaOk (s : State) (p : Nat) (base : Nat) (c : Cat) (pages : Nat) : Bool :=
  (List.range pages).all fun i =>
    let va := base + 4096 * i
    decide (va < 2 ^ 54) && match s.xlate p (wfld (s.part p).sasid 0 16) 2 va c with
      | .ok (_, l) => l.cls == 0 && !l.peer && !s.slDown ((s.part p).home (l.ga va))
      | .error _ => false

/-- The global address of a save area's header. -/
def State.areaGa (s : State) (p base : Nat) (c : Cat) : Nat :=
  match s.xlate p (wfld (s.part p).sasid 0 16) 2 base c with
  | .ok (_, l) => l.ga base
  | .error _ => 0

/-- The header that the device writes (R388). -/
def State.areaHeader (s : State) (p ejected : Nat) : List Byte :=
  let x := s.part p
  leBytes 8 x.gswt.toNat ++ leBytes 8 s.gtime ++ leBytes 2 x.areaSites ++ leBytes 2 x.clusters.length ++ leBytes 4 ejected ++ leBytes 1 1

/-- Whether the area at an address holds a state of the partition's shape. -/
def State.areaValid (s : State) (p ga : Nat) : Bool :=
  let x := s.part p
  s.rdNat (ga + 24) 1 == 1 && s.rdNat (ga + 16) 2 == x.areaSites % 65536 && s.rdNat (ga + 18) 2 == x.clusters.length && (tget x.saved ga).isSome

/-! ## Stopping (R385 steps 1 and 2) -/

/-- Whether a cluster's engines have completed every accepted operation (R198, R222). -/
def Cluster.idle (c : Cluster) : Bool :=
  c.copies.isEmpty && c.mops.isEmpty && c.mrun.isNone && c.erun.isNone && c.unchecked.isEmpty && c.t3swap.isEmpty

/-- Whether an operation is one of an engine: a copy, a tile vector or a matrix operation (R198, R222). -/
def OpInfo.engine (o : OpInfo) : Bool := o.copy || o.cls == .tv || o.cls == .mx

/-- Messages that a router ejects at most (R387). -/
def ejectRoom : Nat := 64

/-- Whether no router holds more messages of a partition than it ejects: while one does, the messages still go their way (R387).
DESIGN CHOICE, log entry 62. -/
def State.ejectable (s : State) (p : Nat) : Bool :=
  let at_ := (s.net.filter fun y => s.partOfBody y.body == some p).map fun y => s.nodeCl y.src
  at_.eraseDups.all fun c => decide (at_.count c ≤ ejectRoom)

/-- Whether the partition has finished what R385 step 1 names. -/
def State.finished (s : State) (p : Nat) : Bool :=
  let x := s.part p
  (x.clusters.all fun c => (s.cl c).idle) && !(s.ops.any fun o => o.2.engine && x.clusters.contains o.2.cl) && (x.sites.all fun c => (s.core c).tvq.isEmpty && (s.core c).tvRun.isNone) &&
    (s.appends.all fun a => a.2.part != p || a.2.segs.isEmpty) &&
    !(s.net.any fun y => y.body.finishes && s.partOfBody y.body == some p)

/-- The cores stop binding, and every line in a context L1 or L2 of the partition goes to memory with its state; the lines are
put away. -/
def State.stopLines (s : State) (p : Nat) : State :=
  let x := s.part p
  let s : State := x.sites.foldl (fun s c => (List.range 8).foldl (fun s k => s.unbind c k false) s) s
  let out (l : Line) : Line :=
    if l.part != p then l
    else
      let l := { l with away := true }
      match l.place with
      | .l1 c => if (s.core c).serves then { l with place := .mem, lastCl := clusterOf c } else l
      | .l2 cl => { l with place := .mem, lastCl := cl }
      | .mem => l
  { s with lines := s.lines.map fun e => (e.1, out e.2) }

/-! ## Saving and restoring (R385 steps 3 to 5) -/

/-- The partition's state as the switch saves it.  DESIGN CHOICE, log entry 62; DESIGN CHOICE, log entry 63. -/
def State.savePart (s : State) (p : Nat) (ejected : List Msg) : SavedPart :=
  let x := s.part p
  let sites := x.sites
  let core (e : Nat × Core) : Nat × Core := (e.1, { e.2 with icache := [], imaged := [] })
  let cl (e : Nat × Cluster) : Nat × Cluster := (e.1, { e.2 with tcache := [] })
  { cores := (s.cores.filter fun e => sites.contains e.1 && e.2.serves).map core
    clusters := (s.clusters.filter fun e => x.clusters.contains e.1).map cl
    kernels := x.kernels, replays := x.replays, placerAt := x.placerAt, lastTaken := x.lastTaken, reserve := x.reserve, rings := x.rings
    heldQ := s.heldQ.filter fun e => e.2.any fun h => h.who.part == p
    ejected := ejected
    ops := s.ops.filter fun e => sites.contains e.2.site
    lines := (s.lines.filter fun e => e.2.part == p).map (·.1) }

/-- The state of a partition in which every kernel slot is free.  DESIGN CHOICE, log entry 63; DEDUCED, log entry 84. -/
def SavedPart.fresh : SavedPart :=
  { cores := [], clusters := [], kernels := [], replays := [], placerAt := [], lastTaken := none, reserve := none, rings := [], heldQ := [], ejected := [], ops := [], lines := [] }

/-- A core takes a saved record; what belongs to the device stays, and a core that does not serve is left out. -/
def Core.load (c saved : Core) : Core :=
  if c.serves then { saved with life := c.life, pos := c.pos, mism := c.mism } else c

/-- A cluster takes a saved record. -/
def Cluster.load (c saved : Cluster) : Cluster :=
  { saved with tcache := [], account := c.account, grant := c.grant, temp := c.temp, macroRows := c.macroRows, macroMapped := c.macroMapped, macroOff := c.macroOff }

/-- The partition takes a saved state, and its ejected messages wait for their rounds; what a slice had accepted is there
again.  DESIGN CHOICE, log entry 62; DESIGN CHOICE, log entry 63. -/
def State.loadPart (s : State) (p : Nat) (v : SavedPart) : State :=
  let x := s.part p
  let s : State := x.sites.foldl (fun s c => s.modCore c fun k => k.load (tgetD v.cores c Core.reset)) s
  let s : State := x.clusters.foldl (fun s c => s.modCl c fun k => k.load (tgetD v.clusters c Cluster.reset)) s
  let back (e : Nat × Line) : Nat × Line := if v.lines.contains e.1 then (e.1, { e.2 with away := false }) else e
  let held := s.heldQ.filter fun e => !(e.2.any fun h => h.who.part == p)
  let s : State := { s with
    lines := s.lines.map back
    heldQ := v.heldQ.foldl (fun t e => tset t e.1 e.2) held
    ops := v.ops.foldl (fun t e => tset t e.1 e.2) (s.ops.filter fun e => !(x.sites.contains e.2.site))
    net := s.net ++ v.ejected.filter fun y => y.body.inSlice }
  let s := s.modPart p fun x => { x with
    kernels := v.kernels, replays := v.replays, rings := v.rings, placerAt := v.placerAt, lastTaken := v.lastTaken, reserve := v.reserve, reinject := v.ejected.filter fun y => !y.body.inSlice,
    round := [], image := x.imageNext.getD x.image, imageNext := none }
  (x.sites.filter fun c => !(s.core c).serves).foldl (fun s c => s.modPart p fun x => x.standIn c) s

/-- The status of the switch (R383). -/
def Part.setGs (p : Part) (st : Nat) : Part := { p with gsstat := wput p.gsstat 0 2 st }

/-- A switch that a fault on a save area aborts: the partition goes on as it was, with ERR (R388).  DEDUCED, log entry 61. -/
def State.abortSwitch (s : State) (p : Nat) : State :=
  s.modPart p fun x => { x.setGs 0 with gsstat := wput (wput x.gsstat 0 2 0) 2 1 1 }

/-- The switch itself: stop, eject, save, move the homes for a new granule, restore, and re-inject.
DESIGN CHOICE, log entry 62. -/
def State.switch (s : State) (p gaIn : Nat) : State :=
  let x := s.part p
  let out := x.gsout.toNat
  let s := s.stopLines p
  let mine (y : Msg) : Bool := s.partOfBody y.body == some p
  let ejected := (s.net.filter mine).map Msg.rewound
  let s : State := { s with net := s.net.filter fun y => !mine y }
  let s := x.sites.foldl State.emptyStash s
  let saved := s.savePart p ejected
  let w := s.svcWho p (x.sites.headD 0)
  let s := s.poke w (.engWrite false) out (s.areaHeader p ejected.length)
  let ga := s.areaGa p out (.engWrite false)
  let s := s.modPart p fun x => { x with saved := tset x.saved ga saved }
  let s := (s.appends.filter fun e => e.2.part == p).foldl (fun s e => s.dropReplicas e.1) s
  let s := if wfld x.ilv 0 1 = x.ilvNow then s else s.moveHomes p
  let v := if x.gsin = 0#64 then SavedPart.fresh else tgetD (s.part p).saved gaIn SavedPart.fresh
  let s := s.loadPart p v
  s.modPart p fun x => x.setGs (if x.reinject.isEmpty then 3 else 2)

/-- Step GANG_SWITCH (R385): at the agreed time, once everything accepted has completed.  DESIGN CHOICE, log entry 62. -/
def execGangSwitch (p : Nat) (s : State) : Out :=
  let x := s.part p
  if x.gsstat.toNat % 4 ≠ 1 ∨ s.gtime < x.gswt.toNat ∨ s.finished p = false ∨ s.ejectable p = false then .next s
  else
    let pages := x.areaSize / 4096
    let inOk := x.gsin == 0#64 || (s.areaOk p x.gsin.toNat .engRead pages &&
      (x.gsin == x.gsout || s.areaValid p (s.areaGa p x.gsin.toNat .engRead)))
    if s.areaOk p x.gsout.toNat (.engWrite false) pages && inOk then .next (s.switch p (s.areaGa p x.gsin.toNat .engRead))
    else .next (s.abortSwitch p)

/-- Whether a message of a round has been accepted: it is gone, or its slice holds it. -/
def State.accepted (s : State) (id : Nat) : Bool :=
  match s.net.find? fun y => y.id == id with
  | none => true
  | some y => match y.body with
    | .req _ _ _ _ _ | .acc _ | .hostReq _ _ _ | .bisnp _ _ _ => true
    | _ => false

/-- Step REINJECT_ROUND (R387): once the previous round is accepted, the messages of fewest remaining hops are re-injected in
ejection order; after the last round the switch is done.  DESIGN CHOICE, log entry 62. -/
def execReinjectRound (p : Nat) (s : State) : Out :=
  let x := s.part p
  if x.gsstat.toNat % 4 ≠ 2 ∨ (x.round.all s.accepted) = false then .next s
  else if x.reinject.isEmpty then .next (s.setPart p { x.setGs 3 with round := [] })
  else
    let least := x.reinject.foldl (fun n y => min n (s.hopsOf y)) (s.hopsOf (x.reinject.headD { id := 0, src := .regulator, dst := .regulator, vn := 0, body := .joinDone 0 }))
    let go := x.reinject.filter fun y => s.hopsOf y == least
    let s : State := { s with net := s.net ++ go }
    .next (s.setPart p { x with reinject := x.reinject.filter fun y => s.hopsOf y != least, round := go.map (·.id) })

end Sys2Proof.Machine
end

