-- ==== Sys2Proof/Machine/Boot.lean ====
section
/-! DEFINITION. The boot (R427–R429, R435–R438): firmware, boot cores, the discovery flood, the logical map and the image. -/

namespace Sys2Proof.Machine

/-! ## The boot ROM (R435) -/

/-- The guard that always holds, and one on a predicate. -/
def guardAlways : Guard := { n := false, p := 0 }
/-- A guard on a predicate. -/
def guardOn (p : Pred) : Guard := { n := false, p := p }

/-- The listing of the boot ROM, kernel `disc`.  DESIGN CHOICE, log entry 80. -/
def romListing : List Instr :=
  [ .ld guardAlways .d false 4 10 0#8, .andi guardAlways 4 4 3#12, .cmpi guardAlways .ne 1 4 2#8,
    .br (guardOn 1) 0xFFFFA#20, .movi 0 0x0#16 0, .movi 1 0x0#16 0,
    .movi 6 0x400#16 0, .shri guardAlways .i64 2 0 4, .andi guardAlways 3 2 7#12,
    .shli guardAlways .i64 3 3 2, .andi guardAlways 4 0 3#12, .add guardAlways .i64 3 3 4,
    .shri guardAlways .i64 2 2 3, .shli guardAlways .i64 2 2 2, .shri guardAlways .i64 4 0 2,
    .andi guardAlways 4 4 3#12, .add guardAlways .i64 2 2 4, .lea guardAlways 2 3 2 5,
    .shri guardAlways .i64 4 2 6, .lea guardAlways 4 8 4 3, .ld guardAlways .d false 4 4 0#8,
    .shr guardAlways .i64 4 4 2, .andi guardAlways 4 4 1#12, .cmpi guardAlways .eq 1 4 0#8,
    .br (guardOn 1) 0x8#20, .lea guardAlways 5 9 1 1, .st guardAlways .h 2 5 0#8,
    .addi guardAlways 1 1 1#12, .addi guardAlways 0 0 1#12, .dbnz guardAlways 6 0xFFD7#16,
    .mov guardAlways .i64 2 1, .movi 4 0x400#16 0, .sub guardAlways .i64 4 4 1,
    .cmpi guardAlways .eq 1 4 0#8, .br (guardOn 1) 0xC#20, .movi 7 0xFFFF#16 0,
    .lea guardAlways 5 9 2 1, .st guardAlways .h 7 5 0#8, .addi guardAlways 2 2 1#12,
    .dbnz guardAlways 4 0xFFFA#16, .st guardAlways .d 9 10 1#8, .movi 4 0x8000#16 1,
    .or guardAlways .i64 4 4 1, .addi guardAlways 5 10 16#12, .stOrd .d .rel .dev 5 4,
    .ld guardAlways .d false 4 10 0#8, .andi guardAlways 5 4 16#12, .cmpi guardAlways .ne 2 5 0#8,
    .trap (guardOn 2) 2#12, .andi guardAlways 4 4 8#12, .cmpi guardAlways .eq 1 4 0#8,
    .br (guardOn 1) 0xFFFF4#20, .st guardAlways .d 11 10 3#8, .movi 4 0x8000#16 1,
    .movk 4 0x4000#16 0, .st guardAlways .d 4 10 4#8, .ld guardAlways .d false 4 10 0#8,
    .andi guardAlways 4 4 32#12, .cmpi guardAlways .eq 1 4 0#8, .br (guardOn 1) 0xFFFFA#20,
    .jmp guardAlways 11 ]

/-- The 16-bit word of a form that fits one (R34). -/
def shortWord (op : Nat) (t : LaneType) (d b : Reg) : Nat := t.code * 2 ^ 13 + b.val * 2 ^ 9 + d.val * 2 ^ 5 + op * 2

/-- The 16-bit form that the assembler picks for an unguarded `mov`, or for an `add`, `sub`, `or` or `shr` onto its first
operand (R55). -/
def shortForm (i : Instr) : Option Nat :=
  match i with
  | .mov g t d a => if g = guardAlways then some (shortWord 0 t d a) else none
  | .add g t d a b => if g = guardAlways ∧ d = a then some (shortWord 1 t d b) else none
  | .sub g t d a b => if g = guardAlways ∧ d = a then some (shortWord 2 t d b) else none
  | .or g t d a b => if g = guardAlways ∧ d = a then some (shortWord 4 t d b) else none
  | .shr g t d a b => if g = guardAlways ∧ d = a then some (shortWord 7 t d b) else none
  | _ => none

/-- The bytes of the listing as the assembler lays them out (R55). -/
def romBytes : List Byte := romListing.flatMap fun i =>
  match shortForm i with
  | some w => leBytes 2 w
  | none => leBytes 4 (encode i)

/-- The address at which the boot core fetches its ROM. -/
def romBase : Nat := Config.romPage % 2 ^ 40 * 4096

/-- Lines of 64 bytes put into an instruction cache, tagged with ASID 0 and exempt from replacement (R438).
DESIGN CHOICE, log entry 103. -/
def Core.cacheLines (c : Core) (va : Nat) (bs : List Byte) : Core :=
  (splitLines (bs.length + 1) va bs).foldl (fun c x =>
    let key := ikey 0 x.1
    let c := c.cacheLine key (fitBytes 64 x.2)
    if (tget c.icache key).isSome && !c.imaged.contains key then { c with imaged := c.imaged ++ [key] } else c) c

/-! ## The device firmware image (R428, R435) -/

/-- The device firmware image, in the layout of the model's log: VERSION, BCTX, MAP, IMG and the digest of its code in a header
of 64 bytes, the code, and the signature.
DESIGN CHOICE, log entry 8; DESIGN CHOICE, log entry 33; DESIGN CHOICE, log entry 34; DEDUCED, log entry 38; DESIGN CHOICE,
log entry 80; DESIGN CHOICE, log entry 82. -/
structure Device where
  bctx : Nat
  map : Nat
  img : Nat
  digest : Nat
  code : List Byte
  deriving DecidableEq, Repr

/-- The fields of a device firmware image.  DESIGN CHOICE, log entry 80. -/
def parseDevice (bs : List Byte) : Device :=
  { bctx := leField bs 8 8 / 65536 * 65536, map := leField bs 16 8 / 2048 * 2048, img := leField bs 24 8 / 64 * 64,
    digest := leField bs 32 32, code := (bs.drop 64).take (bs.length - 128) }

/-- The kernel that stands for a boot context: record `0` of its arena is its record in the boot context region. -/
def bootKernel (part base : Nat) : Kernel :=
  { hdr := { parseHeader [] with ctxbase := base, priv := 2 }, state := .running, part := part, asid := 0, since := 0, templates := [],
    hosts := [], nodes := [], nextSeed := 0, gang := none, replay := none, ending := false, no := 0 }

/-- A boot context starts on a core (R435, R438): kernel slot 0 hosts it, with s0 to s3 as the ROM sets them.  A line that cannot be
written yet is written by a later step of the boot block.  DESIGN CHOICE, log entry 80. -/
def State.startBoot (s : State) (site record pc : Nat) : State :=
  let d := parseDevice s.reg.device
  let die := dieOf site
  let part := s.partOf site
  let bootb := 0x008000008000 + 0x800 * die
  let k := bootKernel part (d.bctx + 768 * record)
  let ks : KSlot := { KSlot.reset with kid := some 0, part := part, s := [W (bootb + 0x80), W d.map, W bootb, W d.img] ++ List.replicate 4 0#64 }
  let s := s.modCore site fun c => c.setKs 0 ks
  let b : Birth := { pc := W pc, wid := 0#64, link := 0#64, anchor := site, by_ := site, trg := false, bindCode := 4,
                     bindUnit := site, place := .l1 site, seeded := true }
  match s.materialise k 0 b with
  | .ok s => s
  | .wait s => s.setFlood die { s.flood die with starts := (s.flood die).starts ++ [(site, record, pc)] }
  | .fault _ _ _ => s

/-! ## Power-up (R427, R428) -/

/-- Whether a firmware image verifies.  DEDUCED, log entry 85. -/
def firmwareOk (bs : List Byte) : Bool := signedOk firmwareKey bs

/-- Which slot the boot ROM runs, and whether the one of higher VERSION failed; none when both fail. -/
def Regulator.chooseSlot (r : Regulator) : Option (Bool × Bool) :=
  let bFirst := decide (fwVersion r.slotA < fwVersion r.slotB)
  let first := if bFirst then r.slotB else r.slotA
  let other := if bFirst then r.slotA else r.slotB
  if firmwareOk first then some (bFirst, false) else if firmwareOk other then some (!bFirst, true) else none

/-- The in-die ports of a router: west, north, east and south are 0 to 3. -/
def portsOf (r : Nat) : List Nat :=
  (if 0 < r % 32 then [0] else []) ++ (if 0 < r / 32 then [1] else []) ++ (if r % 32 < 31 then [2] else []) ++ (if r / 32 < 31 then [3] else [])

/-- The router beyond a port. -/
def beyond (r port : Nat) : Nat :=
  match port with
  | 0 => r - 1
  | 1 => r - 32
  | 2 => r + 1
  | _ => r + 32

/-- The port that faces a port. -/
def facing (port : Nat) : Nat := (port + 2) % 4

/-- The boot core of a die: the enabled site of lowest 32 × y + x.  DEDUCED, log entry 84. -/
def State.bootCore (s : State) (die : Nat) : Option Nat := (List.range 1024).find? fun i => s.enabled (die * 1024 + i)

/-- The Regulator releases a die's boot core: the flood starts, and the ROM runs (R435, R436). -/
def State.releaseBoot (s : State) (die : Nat) : State :=
  match s.bootCore die with
  | none => s
  | some b =>
    let r : Router := { parent := none, got := [], dones := [], sum := 0, sent := false, at_ := s.cycle }
    let s := s.setFlood die { Flood.reset with state := 1, boot := b, routers := [(b, r)], present := [b] }
    let s := s.modCore (die * 1024 + b) fun c => c.cacheLines romBase romBytes
    s.startBoot (die * 1024 + b) (4096 + die) romBase

/-- The package as the Regulator finds it at power-up: sites retired in the field join the fused-off set, the die edges are UP,
each die is a partition of its own, the device image is in memory, and
`$gtime` starts at 0.  DESIGN CHOICE, log entry 111. -/
def State.powered (s : State) (img : List Byte) (runsB : Bool) : State :=
  let t := s.powerDown
  let d := parseDevice img
  let up (i : Nat) : Nat × Link := (i, { Link.reset with st := .up })
  { t with
    cycle := 0
    fused := t.fused ++ t.reg.retired.filter fun c => !t.fused.contains c
    parts := (List.range 4).map fun i => (i, { Part.reset (15 * 2 ^ (4 * i)) with rom := true })
    links := (List.range 8).map up
    mem := memWrite t.mem d.img d.code
    reg := { t.reg with powered := true, booted := true, booting := true, runsB := runsB, device := img } }

/-- The partitions after the boot: the stored map's, or partition 0 as the whole package (R428 step 5). -/
def Regulator.partitions (r : Regulator) : Table Part :=
  let rom (p : Part) : Part := { p with rom := true }
  if r.stored.isEmpty then [(0, rom (Part.reset 0xFFFF))] else r.stored.foldl (fun t e => tset t e.1 (rom (Part.reset e.2))) []

/-- The partition of a table that a site lies in. -/
def partIn (t : Table Part) (site : Nat) : Nat := ((t.find? fun e => e.2.mask.testBit (clusterOf site / 16)).map (·.1)).getD 0

/-- The last step of the boot: the partitions are the stored map's, or partition 0 is the whole package; a boot context belongs to
the partition of its core, and the host port opens (R428 step 5).  DESIGN CHOICE, log entry 80. -/
def State.wholePackage (s : State) : State :=
  let parts := s.reg.partitions
  let core (e : Nat × Core) : Nat × Core := (e.1, { e.2 with ks := e.2.ks.map fun k => { k with part := partIn parts e.1 } })
  let line (e : Nat × Line) : Nat × Line := (e.1, { e.2 with space := wput e.2.space 16 8 (partIn parts (e.2.anchor.getD 0)) })
  let flush (e : Nat × Cluster) : Nat × Cluster := (e.1, { e.2 with tcache := [] })
  { s with
    parts := parts, reg := { s.reg with booting := false }
    cores := s.cores.map core, lines := s.lines.map line, clusters := s.clusters.map flush, slices := [], visitors := [] }

/-- Whether every die that has a boot core has finished its boot, and nothing of its contexts is on its way.
DESIGN CHOICE, log entry 80. -/
def State.bootOver (s : State) : Bool :=
  s.reg.booting && !s.floods.isEmpty && (s.floods.all fun f => f.2.imgDone && f.2.starts.isEmpty) &&
    !(s.net.any fun y => (s.partOfBody y.body).isSome) && s.lines.all fun l => l.2.pend.isNone

/-- Step POWER_UP (R427, R428): the Regulator's firmware and the device image are verified, links come up and the boot cores are
released; and, when the floods are done, partition 0 becomes the whole package.  DESIGN CHOICE, log entry 15. -/
def execPowerUp (img : List Byte) (s : State) : Out :=
  if s.reg.booted && s.reg.powered then (if s.bootOver then .next s.wholePackage else .next s)
  else
    match s.reg.chooseSlot with
    | none => .next { s with reg := { s.reg with powered := true, booted := true, failed := true } }
    | some (runsB, spare) =>
      let t := s.powered img runsB
      let t := if spare then t.logEvent (.core 0) 0 0 0 else t
      if firmwareOk img then .next ((List.range 4).foldl State.releaseBoot t)
      else .next { t with reg := { t.reg with failed := true } }

/-! ## The discovery flood (R436) -/

/-- A router of a flood. -/
def Flood.router? (f : Flood) (r : Nat) : Option Router := tget f.routers r

/-- A router sends DONE to its parent once each of its other ports has delivered a probe or a DONE, and the issue cycle of its
first probe, in which its parent may still change, is over.  DEDUCED, log entry 81. -/
def State.tryDone (s : State) (die r : Nat) : State :=
  let f := s.flood die
  match f.router? r with
  | none => s
  | some x =>
    match x.parent with
    | none => s
    | some p =>
      if !x.sent && x.at_ != s.cycle && (portsOf r).all fun q => q == p || x.got.contains q then
        let n := x.sum + b2n (s.enabled (die * 1024 + r))
        (s.setFlood die { f with routers := tset f.routers r { x with sent := true } }).send (.core (die * 1024 + r))
          (.core (die * 1024 + beyond r p)) vnControl (.floodDone die (beyond r p) (facing p) n)
      else s

/-- The flood is done when the boot core holds a DONE on each port and the counts agree with the PRESENT map, in which the boot
core stands itself.  DEDUCED, log entry 81. -/
def Flood.check (f : Flood) : Flood :=
  match f.router? f.boot with
  | some x =>
    if f.state = 1 ∧ (portsOf f.boot).all (fun q => x.dones.contains q) ∧ x.sum + 1 = f.present.length then { f with state := 2 } else f
  | none => f

/-- Step PROBE (R436): a probe reaches a router on a port, from a neighbour that was reached in an earlier issue cycle and forwards
there.  The first one gives the router its parent, and an enabled site reports itself; one of the same issue cycle on a port that
comes before, in the order west, north, east and south, takes its place; any other only counts as delivered, and lets the router see
whether its DONE is due.  DEDUCED, log entry 81. -/
def execProbe (die port r : Nat) (s : State) : Out :=
  let f := s.flood die
  if f.state ≠ 1 ∨ 4 ≤ die ∨ 1024 ≤ r ∨ (portsOf r).contains port = false then .next s
  else
    match f.router? (beyond r port) with
    | none => .next s
    | some y =>
      if y.parent = some (facing port) ∨ (y.parent.isSome ∧ y.at_ = s.cycle) then .next s
      else
        match f.router? r with
        | none =>
          let s := s.setFlood die
            { f with routers := tset f.routers r { parent := some port, got := [], dones := [], sum := 0, sent := false, at_ := s.cycle } }
          let site := die * 1024 + r
          let s := if s.enabled site then s.send (.core site) (.core (die * 1024 + f.boot)) vnService (.present die r) else s
          .next s
        | some x =>
          let first := x.parent.getD 0
          let x :=
            if x.parent = some port ∨ x.got.contains port then x
            else if x.parent.isSome ∧ x.at_ = s.cycle ∧ port < first then { x with parent := some port, got := x.got ++ [first] }
            else { x with got := x.got ++ [port] }
          .next ((s.setFlood die { f with routers := tset f.routers r x }).tryDone die r)

/-- Step PRESENT (R436): a site's report reaches the boot core. -/
def execPresent (m : Nat) (s : State) : Out :=
  match s.find? m with
  | some (.present die r) =>
    let f := s.flood die
    .next ((s.drop m).setFlood die ({ f with present := if f.present.contains r then f.present else f.present ++ [r] }).check)
  | _ => .next s

/-- Step DONE (R436): a count reaches a parent. -/
def execDone (m : Nat) (s : State) : Out :=
  match s.find? m with
  | some (.floodDone die r port n) =>
    let s := s.drop m
    let f := s.flood die
    match f.router? r with
    | none => .next s
    | some x =>
      let x := { x with got := x.got ++ [port], dones := x.dones ++ [port], sum := x.sum + n }
      .next ((s.setFlood die ({ f with routers := tset f.routers r x }).check).tryDone die r)
  | _ => .next s

/-! ## The map and the image (R438) -/

/-- The map table as the block reads it.  DESIGN CHOICE, log entry 80. -/
def State.mapTable (s : State) (base : Nat) : State × List Nat :=
  let (s, bs) := s.regFetch base 2048
  (s, (List.range 1024).map fun i => leField bs (2 * i) 2)

/-- Whether a map is refused for what its table holds (R438). -/
def Flood.refusesMap (f : Flood) (n : Nat) (t : List Nat) : Bool :=
  let named := t.take n
  decide (1024 < n) || !(named.all f.present.contains) || !distinct named || !((t.drop n).all (· == 0xFFFF))

/-- Step MAP_INSTALL (R438): the oldest GO of MAPCTL is refused for its table, or each named core takes its position. -/
def execMapInstall (die : Nat) (s : State) : Out :=
  let f := s.flood die
  match f.mapGo with
  | [] => .next s
  | (base, n) :: rest =>
    let (s, t) := s.mapTable base
    if f.refusesMap n t then .next (s.setFlood die { f with mapGo := rest, mapErr := true })
    else
      let s := (t.take n).zipIdx.foldl (fun s x => s.modCore (die * 1024 + x.1) fun c => { c with pos := some x.2 }) s
      .next (s.setFlood die { f with mapGo := rest, mapOk := true })

/-- The image stream leaves for a cluster of the die. -/
def State.stream (s : State) (die cl digest base : Nat) (data : List Byte) (no : Nat) : State :=
  s.send (.die die) (.slice (64 * die + cl)) vnService (.image die cl none digest base data no)

/-- Step IMAGE_STREAM (R438): the oldest GO of IMGCTL sends its stream to cluster 0, and the reports are counted for it from then
on; without one, a boot context that could not be written is tried again.  DESIGN CHOICE, log entry 80. -/
def execImageStream (die : Nat) (s : State) : Out :=
  let f := s.flood die
  match f.imgGo, f.starts with
  | (base, n) :: rest, _ =>
    let (s, data) := s.regFetch base n
    .next ((s.setFlood die { f with imgGo := rest, streams := f.streams + 1, ok := [] }).stream die 0 (parseDevice s.reg.device).digest
      base data (f.streams + 1))
  | [], (site, record, pc) :: rest => .next ((s.setFlood die { f with starts := rest }).startBoot site record pc)
  | [], [] => .next s

/-- The image has reached every enabled core: IMGDONE, and the verified cores start (R438). -/
def State.imageDone (s : State) (die base : Nat) : State :=
  let f := s.flood die
  if f.imgDone || f.ok.length + f.bad.length != f.present.length then s
  else
    let s := s.setFlood die { f with imgDone := true }
    (f.ok.filter fun r => r != f.boot).foldl (fun s r =>
      s.startBoot (die * 1024 + r) (1024 * die + ((s.core (die * 1024 + r)).pos.getD 0)) base) s

/-- A core hashes the image: it installs the lines, or is contained and the event is logged; its report counts for the latest
stream only (R429, R438).  DESIGN CHOICE, log entry 4; DEDUCED, log entry 81. -/
def State.verifyAt (s : State) (die site digest base : Nat) (data : List Byte) (no : Nat) : State :=
  let f := s.flood die
  let r := site % 1024
  if Config.sha256 data = digest then
    let s := s.modCore site fun c => c.cacheLines base data
    if no ≠ f.streams ∨ f.ok.contains r then s else (s.setFlood die { f with ok := f.ok ++ [r] }).imageDone die base
  else if f.bad.contains r then s
  else (((s.startContain site).logEvent (.core site) 0 0 base).setFlood die { f with bad := f.bad ++ [r] }).imageDone die base

/-- Step IMAGE_RECEIVE (R438): the stream reaches a cluster, which forwards it and multicasts it to its cores, or a core. -/
def execImageReceive (m : Nat) (s : State) : Out :=
  match s.find? m with
  | some (.image die cl none digest base data no) =>
    let s := s.drop m
    let s := if cl < 7 then s.stream die (cl + 1) digest base data no else s
    let s := if cl + 8 ≤ 63 then s.stream die (cl + 8) digest base data no else s
    let cores := ((List.range 16).map (siteOf (64 * die + cl))).filter s.enabled
    .next (cores.foldl (fun s c =>
      s.send (.slice (64 * die + cl)) (.core c) vnService (.image die cl (some c) digest base data no)) s)
  | some (.image die _ (some site) digest base data no) => .next ((s.drop m).verifyAt die site digest base data no)
  | _ => .next s

end Sys2Proof.Machine
end

