-- ==== Sys2Proof/Machine/Fp.lean ====
section
/-! DEFINITION. Floating-point arithmetic, estimates, compares and conversions (R123–R129) and their 16-bit forms (R130). -/

namespace Sys2Proof.Machine

/-- `fadd.t.rm rd, ra, rb` (R123). -/
def execFadd (g : Guard) (t : LaneType) (r : Round) (d a b : Reg) (s : State) : Out :=
  computeRdF g s d fun e => flanes2 t.width (fpAdd (fmtOf t) r) (e.reg a) (e.reg b)

/-- `fsub.t.rm rd, ra, rb` (R123). -/
def execFsub (g : Guard) (t : LaneType) (r : Round) (d a b : Reg) (s : State) : Out :=
  computeRdF g s d fun e => flanes2 t.width (fpSub (fmtOf t) r) (e.reg a) (e.reg b)

/-- `fmul.t.rm rd, ra, rb` (R123). -/
def execFmul (g : Guard) (t : LaneType) (r : Round) (d a b : Reg) (s : State) : Out :=
  computeRdF g s d fun e => flanes2 t.width (fpMul (fmtOf t) r) (e.reg a) (e.reg b)

/-- `fma.t.rm rd, ra, rb`: a × b + d, rounded once (R123). -/
def execFma (g : Guard) (t : LaneType) (r : Round) (d a b : Reg) (s : State) : Out :=
  computeRdF g s d fun e => flanes3 t.width (fpFused (fmtOf t) r false false) (e.reg a) (e.reg b) (e.reg d)

/-- `fms.t.rm rd, ra, rb`: a × b − d, rounded once (R123). -/
def execFms (g : Guard) (t : LaneType) (r : Round) (d a b : Reg) (s : State) : Out :=
  computeRdF g s d fun e => flanes3 t.width (fpFused (fmtOf t) r false true) (e.reg a) (e.reg b) (e.reg d)

/-- `fnma.t.rm rd, ra, rb`: d − a × b, rounded once (R123). -/
def execFnma (g : Guard) (t : LaneType) (r : Round) (d a b : Reg) (s : State) : Out :=
  computeRdF g s d fun e => flanes3 t.width (fpFused (fmtOf t) r true false) (e.reg a) (e.reg b) (e.reg d)

/-- `fmin.t rd, ra, rb` (R87, R123). -/
def execFmin (g : Guard) (t : LaneType) (d a b : Reg) (s : State) : Out :=
  computeRdF g s d fun e => flanes2 t.width (fpMinMax (fmtOf t) false) (e.reg a) (e.reg b)

/-- `fmax.t rd, ra, rb` (R87, R123). -/
def execFmax (g : Guard) (t : LaneType) (d a b : Reg) (s : State) : Out :=
  computeRdF g s d fun e => flanes2 t.width (fpMinMax (fmtOf t) true) (e.reg a) (e.reg b)

/-- `fabs.t rd, ra` clears the sign of each lane (R123). -/
def execFabs (g : Guard) (t : LaneType) (d a : Reg) (s : State) : Out :=
  computeRd g s d fun e => lanes1 t.width (fun x => x % 2 ^ (t.width - 1)) (e.reg a)

/-- `fneg.t rd, ra` inverts the sign of each lane (R123). -/
def execFneg (g : Guard) (t : LaneType) (d a : Reg) (s : State) : Out :=
  computeRd g s d fun e => lanes1 t.width (fun x => x ^^^ 2 ^ (t.width - 1)) (e.reg a)

/-- `fsgnj.t rd, ra, rb`: a with the sign of b (R123). -/
def execFsgnj (g : Guard) (t : LaneType) (d a b : Reg) (s : State) : Out :=
  computeRd g s d fun e =>
    lanes2 t.width (fun x y => x % 2 ^ (t.width - 1) + y / 2 ^ (t.width - 1) * 2 ^ (t.width - 1)) (e.reg a) (e.reg b)

/-- `fdiv.t.rm rd, ra, rb`, a long instruction (R124). -/
def execFdiv (g : Guard) (t : LaneType) (r : Round) (d a b : Reg) (s : State) : Out :=
  longOp g s d fun e => flanes2 t.width (fpDiv (fmtOf t) r) (e.reg a) (e.reg b)

/-- `fsqrt.t.rm rd, ra`, a long instruction (R124). -/
def execFsqrt (g : Guard) (t : LaneType) (r : Round) (d a : Reg) (s : State) : Out :=
  longOp g s d fun e => flanes1 t.width (fpSqrt (fmtOf t) r) (e.reg a)

/-- `frcpe.t rd, ra` (R124). -/
def execFrcpe (g : Guard) (t : LaneType) (d a : Reg) (s : State) : Out :=
  computeRdF g s d fun e => flanes1 t.width (fpRcpe t) (e.reg a)

/-- `frsqe.t rd, ra` (R124). -/
def execFrsqe (g : Guard) (t : LaneType) (d a : Reg) (s : State) : Out :=
  computeRdF g s d fun e => flanes1 t.width (fpRsqe t) (e.reg a)

/-- `fcmp.cc.t pd, ra, rb` compares lane 0; its flags go to PW (R126). -/
def execFcmp (g : Guard) (t : LaneType) (c : FCond) (p : Pred) (a b : Reg) (s : State) : Out :=
  computePred g s fun e =>
    let r := fpTest (fmtOf t) c (lane t.width (e.reg a) 0) (lane t.width (e.reg b) 0)
    (e.line.setPred p.val r.1).orFlags r.2

/-- `fclass.t rd, ra` (R127). -/
def execFclass (g : Guard) (t : LaneType) (d a : Reg) (s : State) : Out :=
  computeRd g s d fun e => lanes1 t.width (fpClass (fmtOf t)) (e.reg a)

/-- `icvtf.dst.src.rm rd, ra`; `u` reads the lanes as unsigned (R129). -/
def execIcvtf (g : Guard) (t : LaneType) (r : Round) (u : Bool) (e : LaneType) (d a : Reg) (s : State) : Out :=
  computeRdF g s d fun n => icvtfWord t e r u (n.reg a)

/-- `fcvt.dst.src.rm rd, ra`; `.sr` steps the core's LFSR once per element (R129, R88). -/
def execFcvt (g : Guard) (t : LaneType) (r : Round) (sr : Bool) (e : LaneType) (d a : Reg) (s : State) : Out :=
  if sr then
    guarded g s fun n =>
      let x := fcvtSrWord e n.core.lfsr (n.reg a)
      let n := { n with core := { n.core with lfsr := x.2 } }
      let n := n.commit s.cycle 4 d x.1.1
      s.put { n with line := n.line.orFlags x.1.2 }
  else computeRdF g s d fun n => fcvtWord t e r (n.reg a)

/-- `fcvti.dst.src.rm rd, ra`; `u` produces unsigned lanes (R129). -/
def execFcvti (g : Guard) (t : LaneType) (r : Round) (u : Bool) (e : LaneType) (d a : Reg) (s : State) : Out :=
  computeRdF g s d fun n => fcvtiWord t e r u (n.reg a)

/-- `fadd.n.t rd, rs`, RNE (R34, R130). -/
def execFadd16 (t : LaneType) (d r : Reg) (s : State) : Out :=
  computeRdF16 s d fun e => flanes2 t.width (fpAdd (fmtOf t) .rne) (e.reg d) (e.reg r)

/-- `fsub.n.t rd, rs`, RNE (R34, R130). -/
def execFsub16 (t : LaneType) (d r : Reg) (s : State) : Out :=
  computeRdF16 s d fun e => flanes2 t.width (fpSub (fmtOf t) .rne) (e.reg d) (e.reg r)

/-- `fmul.n.t rd, rs`, RNE (R34, R130). -/
def execFmul16 (t : LaneType) (d r : Reg) (s : State) : Out :=
  computeRdF16 s d fun e => flanes2 t.width (fpMul (fmtOf t) .rne) (e.reg d) (e.reg r)

/-- `fmax.n.t rd, rs`, RNE (R34, R130). -/
def execFmax16 (t : LaneType) (d r : Reg) (s : State) : Out :=
  computeRdF16 s d fun e => flanes2 t.width (fpMinMax (fmtOf t) true) (e.reg d) (e.reg r)

end Sys2Proof.Machine
end

