-- ==== Sys2Proof/Machine/HomeStep.lean ====
section
/-! DEFINITION. HOME_ACCESS: an access that has reached its home slice is performed there (R137, R138, R144, R150, R165–R168,
R239, R261, R325–R327). -/

namespace Sys2Proof.Machine

/-- The accesses that steps of their own perform, and an add that follows another write; an `stt` is a store once it is accepted. -/
def Acc.elsewhere (s : State) (a : Acc) : Bool :=
  match a.k with
  | .ldrw _ | .stc _ | .apnd _ _ | .seal | .wake | .resume _ _ | .migr | .send _ | .launch | .gang | .grun _ | .fork _ _ | .sync | .exitJoin
  | .groupTable _ | .rcommit _ _ | .wenq _ _ _ | .stashFill _ | .iinv => true
  | .amo _ _ _ _ _ _ _ own => own && s.ownable a
  | .load _ _ _ _ | .ldtail _ => s.readsReplica a
  | .store _ _ _ | .stt _ _ _ _ _ _ _ _ | .rcancel | .cln _ | .cinv | .pref | .qpush _ | .qpop _ | .qstat _ | .ldh _ | .sth _
  | .eng _ _ => false
  | .engAdd _ after => (tget s.ops after).isSome

/-- A load or `ldtail` of an APPEND page is refused while the frame is reclaimed or its descriptor is bad (R260, R261); one that
finds the page SEALED is known to be so from then on.  DEDUCED, log entry 56. -/
def State.appendRead (s : State) (sl : Nat) (a : Acc) (go : State → State) : State :=
  if a.leaf.cls ≠ 1 then go s
  else
    let f := a.ga / 4096
    let d := s.adesc a.w.part (f * 4096)
    match d.refuses with
    | some flt => s.accFault sl a flt
    | none => go (if d.state = 1 then s.noteSealed f else s)

/-- `pref` at the home (R168): the line is brought to the requester's die; nothing is answered. -/
def State.performPref (s : State) (sl : Nat) (a : Acc) : State :=
  let (s, _) := s.homeRead a.w.site a 1
  s.leaveVisitor sl a

/-- An `sth` whose handle is no longer a stash when its line is filled: the store is performed at the home (R183). -/
def State.performSth (s : State) (sl : Nat) (a : Acc) (v : Word) : State :=
  let (s, grp) := s.performWrite sl (s.via a) a (leBytes 8 v.toNat)
  (s.reply sl a.w Answer.none).ackWrite sl a.w a.tok grp a.leaf.durable none false false

/-- An access performed at its home, by its kind. -/
def State.performAt (s₀ : State) (m sl : Nat) (a : Acc) : State :=
  let s := s₀.drop m
  match a.k with
  | .load dst n o sc => s.appendRead sl a fun s => s.performLoad m sl (s.via a) a dst n o sc
  | .ldh d => s.performLoad m sl (s.via a) a (.reg d 8 false) 8 .rlx .core
  | .ldtail _ => s.appendRead sl a fun s => s.answerSealed sl a
  | .store data o sc => s.performStore sl (s.via a) a data o sc
  | .sth v => s.performSth sl a v
  | .amo op y src cmp dst o sc _ => s.performAmo sl (s.via a) a op y src cmp dst o sc
  | .eng data sc => s.performEng sl (s.via a) a data sc
  | .engAdd sc _ => s.performCw sl (s.via a) a sc
  | .cln sc => s.performCln sl a sc
  | .cinv => s.performCinv sl a
  | .pref => s.performPref sl a
  | .rcancel => s.unreserveAt (a.ga / 64) a.w.key
  | .qpush v => s₀.homeQpush m sl a v
  | .qpop dst => s₀.homeQpop m sl a dst
  | .qstat dst => s₀.homeQstat m sl a dst
  | .ldrw _ | .stc _ | .apnd _ _ | .seal | .wake | .resume _ _ | .migr | .send _ | .launch | .gang | .grun _ | .fork _ _ | .sync | .exitJoin
  | .groupTable _ | .rcommit _ _ | .wenq _ _ _ | .stashFill _ | .iinv | .stt _ _ _ _ _ _ _ _ => s₀

/-- Step HOME_ACCESS; a store that makes room in a queue lets its held requests in (R161, R316). -/
def execHomeAccess (m : Nat) (s : State) : Out :=
  homeArrival m s (fun a => !(a.elsewhere s)) fun s sl a =>
    let t := s.performAt m sl a
    if a.k.writes then t.serveAll sl a else t

end Sys2Proof.Machine
end

