-- ==== Sys2Proof/Machine/Vector.lean ====
section
/-! DEFINITION. Short-vector integer operations (R120–R122). -/

namespace Sys2Proof.Machine

/-- `adds.t rd, ra, rb` (R120). -/
def execAdds (g : Guard) (t : LaneType) (d a b : Reg) (s : State) : Out :=
  computeRd g s d fun e => lanes2 t.width (fun x y => satS t.width (signed t.width x + signed t.width y)) (e.reg a) (e.reg b)

/-- `subs.t rd, ra, rb` (R120). -/
def execSubs (g : Guard) (t : LaneType) (d a b : Reg) (s : State) : Out :=
  computeRd g s d fun e => lanes2 t.width (fun x y => satS t.width (signed t.width x - signed t.width y)) (e.reg a) (e.reg b)

/-- `addsu.t rd, ra, rb` (R120). -/
def execAddsu (g : Guard) (t : LaneType) (d a b : Reg) (s : State) : Out :=
  computeRd g s d fun e => lanes2 t.width (fun x y => satU t.width ((x : Int) + y)) (e.reg a) (e.reg b)

/-- `subsu.t rd, ra, rb` (R120). -/
def execSubsu (g : Guard) (t : LaneType) (d a b : Reg) (s : State) : Out :=
  computeRd g s d fun e => lanes2 t.width (fun x y => satU t.width ((x : Int) - y)) (e.reg a) (e.reg b)

/-- `avgu.t rd, ra, rb` (R120). -/
def execAvgu (g : Guard) (t : LaneType) (d a b : Reg) (s : State) : Out :=
  computeRd g s d fun e => lanes2 t.width (fun x y => (x + y + 1) / 2) (e.reg a) (e.reg b)

/-- `absd.t rd, ra, rb` (R120). -/
def execAbsd (g : Guard) (t : LaneType) (d a b : Reg) (s : State) : Out :=
  computeRd g s d fun e => lanes2 t.width (fun x y => (x - y) + (y - x)) (e.reg a) (e.reg b)

/-- `neg.t rd, ra` (R120). -/
def execNeg (g : Guard) (t : LaneType) (d a : Reg) (s : State) : Out :=
  computeRd g s d fun e => lanes1 t.width (fun x => wrap t.width (-(x : Int))) (e.reg a)

/-- `abs.t rd, ra` (R120). -/
def execAbs (g : Guard) (t : LaneType) (d a : Reg) (s : State) : Out :=
  computeRd g s d fun e => lanes1 t.width (fun x => wrap t.width (signed t.width x).natAbs) (e.reg a)

/-- `vshuf.t rd, ra, rb` (R121). -/
def execVshuf (g : Guard) (t : LaneType) (d a b : Reg) (s : State) : Out :=
  computeRd g s d fun e => vshufWord t.width (e.reg a) (e.reg b)

/-- `vpack.t rd, ra, rb` (R121). -/
def execVpack (g : Guard) (t : LaneType) (d a b : Reg) (s : State) : Out :=
  computeRd g s d fun e => vpackWord t.width (e.reg a) (e.reg b)

/-- `vdot.t rd, ra, rb` (R121). -/
def execVdot (g : Guard) (t : LaneType) (d a b : Reg) (s : State) : Out :=
  computeRd g s d fun e => vdotWord t.width (e.reg d) (e.reg a) (e.reg b)

/-- `vunpkl.t rd, ra` (R121). -/
def execVunpkl (g : Guard) (t : LaneType) (d a : Reg) (s : State) : Out :=
  computeRd g s d fun e => vunpkWord false t.width (e.reg a)

/-- `vunpkh.t rd, ra` (R121). -/
def execVunpkh (g : Guard) (t : LaneType) (d a : Reg) (s : State) : Out :=
  computeRd g s d fun e => vunpkWord true t.width (e.reg a)

/-- `vbcast.t rd, ra` (R121). -/
def execVbcast (g : Guard) (t : LaneType) (d a : Reg) (s : State) : Out :=
  computeRd g s d fun e => lanes1 t.width (fun _ => lane t.width (e.reg a) 0) (e.reg a)

/-- `vrsum.t rd, ra` (R121). -/
def execVrsum (g : Guard) (t : LaneType) (d a : Reg) (s : State) : Out :=
  computeRd g s d fun e => vrsumWord t.width (e.reg a)

/-- `vcmp.cc.t rd, ra, rb` (R122). -/
def execVcmp (g : Guard) (t : LaneType) (c : Cond) (d a b : Reg) (s : State) : Out :=
  computeRdF g s d fun e => flanes2 t.width (vcmpLane t c) (e.reg a) (e.reg b)

/-- `vsel.t rd, ra, rb`: rd is the bit mask (R122). -/
def execVsel (g : Guard) (_t : LaneType) (d a b : Reg) (s : State) : Out :=
  computeRd g s d fun e => (e.reg a &&& e.reg d) ||| (e.reg b &&& ~~~(e.reg d))

/-- `vmsk.t rd, ra` (R122). -/
def execVmsk (g : Guard) (t : LaneType) (d a : Reg) (s : State) : Out :=
  computeRd g s d fun e => vmskWord t.width (e.reg a)

end Sys2Proof.Machine
end

