-- ==== Sys2Proof/Machine/Dispatch.lean ====
section
/-! DEFINITION. One arm per constructor of Instr: each instruction and each step of the device has its own meaning. -/

namespace Sys2Proof.Machine

def exec (i : Instr) (s : State) : Host.Outcome State Fault Refusal :=
  match i with
  | .add x1 x2 x3 x4 x5 => Sys2Proof.Machine.execAdd x1 x2 x3 x4 x5 s
  | .sub x1 x2 x3 x4 x5 => Sys2Proof.Machine.execSub x1 x2 x3 x4 x5 s
  | .and x1 x2 x3 x4 x5 => Sys2Proof.Machine.execAnd x1 x2 x3 x4 x5 s
  | .or x1 x2 x3 x4 x5 => Sys2Proof.Machine.execOr x1 x2 x3 x4 x5 s
  | .xor x1 x2 x3 x4 x5 => Sys2Proof.Machine.execXor x1 x2 x3 x4 x5 s
  | .shl x1 x2 x3 x4 x5 => Sys2Proof.Machine.execShl x1 x2 x3 x4 x5 s
  | .shr x1 x2 x3 x4 x5 => Sys2Proof.Machine.execShr x1 x2 x3 x4 x5 s
  | .sra x1 x2 x3 x4 x5 => Sys2Proof.Machine.execSra x1 x2 x3 x4 x5 s
  | .mul x1 x2 x3 x4 x5 => Sys2Proof.Machine.execMul x1 x2 x3 x4 x5 s
  | .mulh x1 x2 x3 x4 x5 => Sys2Proof.Machine.execMulh x1 x2 x3 x4 x5 s
  | .mulhu x1 x2 x3 x4 x5 => Sys2Proof.Machine.execMulhu x1 x2 x3 x4 x5 s
  | .min x1 x2 x3 x4 x5 => Sys2Proof.Machine.execMin x1 x2 x3 x4 x5 s
  | .max x1 x2 x3 x4 x5 => Sys2Proof.Machine.execMax x1 x2 x3 x4 x5 s
  | .minu x1 x2 x3 x4 x5 => Sys2Proof.Machine.execMinu x1 x2 x3 x4 x5 s
  | .maxu x1 x2 x3 x4 x5 => Sys2Proof.Machine.execMaxu x1 x2 x3 x4 x5 s
  | .mov x1 x2 x3 x4 => Sys2Proof.Machine.execMov x1 x2 x3 x4 s
  | .mov16 x1 x2 x3 => Sys2Proof.Machine.execMov16 x1 x2 x3 s
  | .add16 x1 x2 x3 => Sys2Proof.Machine.execAdd16 x1 x2 x3 s
  | .sub16 x1 x2 x3 => Sys2Proof.Machine.execSub16 x1 x2 x3 s
  | .and16 x1 x2 x3 => Sys2Proof.Machine.execAnd16 x1 x2 x3 s
  | .or16 x1 x2 x3 => Sys2Proof.Machine.execOr16 x1 x2 x3 s
  | .xor16 x1 x2 x3 => Sys2Proof.Machine.execXor16 x1 x2 x3 s
  | .shl16 x1 x2 x3 => Sys2Proof.Machine.execShl16 x1 x2 x3 s
  | .shr16 x1 x2 x3 => Sys2Proof.Machine.execShr16 x1 x2 x3 s
  | .sra16 x1 x2 x3 => Sys2Proof.Machine.execSra16 x1 x2 x3 s
  | .mul16 x1 x2 x3 => Sys2Proof.Machine.execMul16 x1 x2 x3 s
  | .min16 x1 x2 x3 => Sys2Proof.Machine.execMin16 x1 x2 x3 s
  | .max16 x1 x2 x3 => Sys2Proof.Machine.execMax16 x1 x2 x3 s
  | .fadd16 x1 x2 x3 => Sys2Proof.Machine.execFadd16 x1 x2 x3 s
  | .fsub16 x1 x2 x3 => Sys2Proof.Machine.execFsub16 x1 x2 x3 s
  | .fmul16 x1 x2 x3 => Sys2Proof.Machine.execFmul16 x1 x2 x3 s
  | .fmax16 x1 x2 x3 => Sys2Proof.Machine.execFmax16 x1 x2 x3 s
  | .addi x1 x2 x3 x4 => Sys2Proof.Machine.execAddi x1 x2 x3 x4 s
  | .andi x1 x2 x3 x4 => Sys2Proof.Machine.execAndi x1 x2 x3 x4 s
  | .ori x1 x2 x3 x4 => Sys2Proof.Machine.execOri x1 x2 x3 x4 s
  | .xori x1 x2 x3 x4 => Sys2Proof.Machine.execXori x1 x2 x3 x4 s
  | .shli x1 x2 x3 x4 x5 => Sys2Proof.Machine.execShli x1 x2 x3 x4 x5 s
  | .shri x1 x2 x3 x4 x5 => Sys2Proof.Machine.execShri x1 x2 x3 x4 x5 s
  | .srai x1 x2 x3 x4 x5 => Sys2Proof.Machine.execSrai x1 x2 x3 x4 x5 s
  | .rori x1 x2 x3 x4 x5 => Sys2Proof.Machine.execRori x1 x2 x3 x4 x5 s
  | .movi x1 x2 x3 => Sys2Proof.Machine.execMovi x1 x2 x3 s
  | .movk x1 x2 x3 => Sys2Proof.Machine.execMovk x1 x2 x3 s
  | .clz x1 x2 x3 x4 => Sys2Proof.Machine.execClz x1 x2 x3 x4 s
  | .ctz x1 x2 x3 x4 => Sys2Proof.Machine.execCtz x1 x2 x3 x4 s
  | .popc x1 x2 x3 x4 => Sys2Proof.Machine.execPopc x1 x2 x3 x4 s
  | .bswap x1 x2 x3 x4 => Sys2Proof.Machine.execBswap x1 x2 x3 x4 s
  | .brev x1 x2 x3 x4 => Sys2Proof.Machine.execBrev x1 x2 x3 x4 s
  | .sext x1 x2 x3 x4 => Sys2Proof.Machine.execSext x1 x2 x3 x4 s
  | .zext x1 x2 x3 x4 => Sys2Proof.Machine.execZext x1 x2 x3 x4 s
  | .bext x1 x2 x3 x4 x5 => Sys2Proof.Machine.execBext x1 x2 x3 x4 x5 s
  | .bins x1 x2 x3 x4 x5 => Sys2Proof.Machine.execBins x1 x2 x3 x4 x5 s
  | .div x1 x2 x3 x4 x5 => Sys2Proof.Machine.execDiv x1 x2 x3 x4 x5 s
  | .divu x1 x2 x3 x4 x5 => Sys2Proof.Machine.execDivu x1 x2 x3 x4 x5 s
  | .rem x1 x2 x3 x4 x5 => Sys2Proof.Machine.execRem x1 x2 x3 x4 x5 s
  | .remu x1 x2 x3 x4 x5 => Sys2Proof.Machine.execRemu x1 x2 x3 x4 x5 s
  | .cmp x1 x2 x3 x4 x5 x6 => Sys2Proof.Machine.execCmp x1 x2 x3 x4 x5 x6 s
  | .cmpi x1 x2 x3 x4 x5 => Sys2Proof.Machine.execCmpi x1 x2 x3 x4 x5 s
  | .pand x1 x2 x3 x4 => Sys2Proof.Machine.execPand x1 x2 x3 x4 s
  | .por x1 x2 x3 x4 => Sys2Proof.Machine.execPor x1 x2 x3 x4 s
  | .pxor x1 x2 x3 x4 => Sys2Proof.Machine.execPxor x1 x2 x3 x4 s
  | .pandn x1 x2 x3 x4 => Sys2Proof.Machine.execPandn x1 x2 x3 x4 s
  | .pget x1 x2 => Sys2Proof.Machine.execPget x1 x2 s
  | .pput x1 x2 => Sys2Proof.Machine.execPput x1 x2 s
  | .sel x1 x2 x3 x4 x5 => Sys2Proof.Machine.execSel x1 x2 x3 x4 x5 s
  | .lea x1 x2 x3 x4 x5 => Sys2Proof.Machine.execLea x1 x2 x3 x4 x5 s
  | .padd x1 x2 x3 x4 => Sys2Proof.Machine.execPadd x1 x2 x3 x4 s
  | .adds x1 x2 x3 x4 x5 => Sys2Proof.Machine.execAdds x1 x2 x3 x4 x5 s
  | .subs x1 x2 x3 x4 x5 => Sys2Proof.Machine.execSubs x1 x2 x3 x4 x5 s
  | .addsu x1 x2 x3 x4 x5 => Sys2Proof.Machine.execAddsu x1 x2 x3 x4 x5 s
  | .subsu x1 x2 x3 x4 x5 => Sys2Proof.Machine.execSubsu x1 x2 x3 x4 x5 s
  | .avgu x1 x2 x3 x4 x5 => Sys2Proof.Machine.execAvgu x1 x2 x3 x4 x5 s
  | .absd x1 x2 x3 x4 x5 => Sys2Proof.Machine.execAbsd x1 x2 x3 x4 x5 s
  | .neg x1 x2 x3 x4 => Sys2Proof.Machine.execNeg x1 x2 x3 x4 s
  | .abs x1 x2 x3 x4 => Sys2Proof.Machine.execAbs x1 x2 x3 x4 s
  | .vshuf x1 x2 x3 x4 x5 => Sys2Proof.Machine.execVshuf x1 x2 x3 x4 x5 s
  | .vpack x1 x2 x3 x4 x5 => Sys2Proof.Machine.execVpack x1 x2 x3 x4 x5 s
  | .vunpkl x1 x2 x3 x4 => Sys2Proof.Machine.execVunpkl x1 x2 x3 x4 s
  | .vunpkh x1 x2 x3 x4 => Sys2Proof.Machine.execVunpkh x1 x2 x3 x4 s
  | .vbcast x1 x2 x3 x4 => Sys2Proof.Machine.execVbcast x1 x2 x3 x4 s
  | .vdot x1 x2 x3 x4 x5 => Sys2Proof.Machine.execVdot x1 x2 x3 x4 x5 s
  | .vrsum x1 x2 x3 x4 => Sys2Proof.Machine.execVrsum x1 x2 x3 x4 s
  | .vcmp x1 x2 x3 x4 x5 x6 => Sys2Proof.Machine.execVcmp x1 x2 x3 x4 x5 x6 s
  | .vsel x1 x2 x3 x4 x5 => Sys2Proof.Machine.execVsel x1 x2 x3 x4 x5 s
  | .vmsk x1 x2 x3 x4 => Sys2Proof.Machine.execVmsk x1 x2 x3 x4 s
  | .fadd x1 x2 x3 x4 x5 x6 => Sys2Proof.Machine.execFadd x1 x2 x3 x4 x5 x6 s
  | .fsub x1 x2 x3 x4 x5 x6 => Sys2Proof.Machine.execFsub x1 x2 x3 x4 x5 x6 s
  | .fmul x1 x2 x3 x4 x5 x6 => Sys2Proof.Machine.execFmul x1 x2 x3 x4 x5 x6 s
  | .fma x1 x2 x3 x4 x5 x6 => Sys2Proof.Machine.execFma x1 x2 x3 x4 x5 x6 s
  | .fms x1 x2 x3 x4 x5 x6 => Sys2Proof.Machine.execFms x1 x2 x3 x4 x5 x6 s
  | .fnma x1 x2 x3 x4 x5 x6 => Sys2Proof.Machine.execFnma x1 x2 x3 x4 x5 x6 s
  | .fmin x1 x2 x3 x4 x5 => Sys2Proof.Machine.execFmin x1 x2 x3 x4 x5 s
  | .fmax x1 x2 x3 x4 x5 => Sys2Proof.Machine.execFmax x1 x2 x3 x4 x5 s
  | .fabs x1 x2 x3 x4 => Sys2Proof.Machine.execFabs x1 x2 x3 x4 s
  | .fneg x1 x2 x3 x4 => Sys2Proof.Machine.execFneg x1 x2 x3 x4 s
  | .fsgnj x1 x2 x3 x4 x5 => Sys2Proof.Machine.execFsgnj x1 x2 x3 x4 x5 s
  | .fdiv x1 x2 x3 x4 x5 x6 => Sys2Proof.Machine.execFdiv x1 x2 x3 x4 x5 x6 s
  | .fsqrt x1 x2 x3 x4 x5 => Sys2Proof.Machine.execFsqrt x1 x2 x3 x4 x5 s
  | .frcpe x1 x2 x3 x4 => Sys2Proof.Machine.execFrcpe x1 x2 x3 x4 s
  | .frsqe x1 x2 x3 x4 => Sys2Proof.Machine.execFrsqe x1 x2 x3 x4 s
  | .fcmp x1 x2 x3 x4 x5 x6 => Sys2Proof.Machine.execFcmp x1 x2 x3 x4 x5 x6 s
  | .fclass x1 x2 x3 x4 => Sys2Proof.Machine.execFclass x1 x2 x3 x4 s
  | .icvtf x1 x2 x3 x4 x5 x6 x7 => Sys2Proof.Machine.execIcvtf x1 x2 x3 x4 x5 x6 x7 s
  | .fcvt x1 x2 x3 x4 x5 x6 x7 => Sys2Proof.Machine.execFcvt x1 x2 x3 x4 x5 x6 x7 s
  | .fcvti x1 x2 x3 x4 x5 x6 x7 => Sys2Proof.Machine.execFcvti x1 x2 x3 x4 x5 x6 x7 s
  | .br x1 x2 => Sys2Proof.Machine.execBr x1 x2 s
  | .call x1 x2 x3 => Sys2Proof.Machine.execCall x1 x2 x3 s
  | .jmp x1 x2 => Sys2Proof.Machine.execJmp x1 x2 s
  | .jal x1 x2 x3 => Sys2Proof.Machine.execJal x1 x2 x3 s
  | .ret x1 x2 => Sys2Proof.Machine.execRet x1 x2 s
  | .brx x1 x2 x3 => Sys2Proof.Machine.execBrx x1 x2 x3 s
  | .dbnz x1 x2 x3 => Sys2Proof.Machine.execDbnz x1 x2 x3 s
  | .ld x1 x2 x3 x4 x5 x6 => Sys2Proof.Machine.execLd x1 x2 x3 x4 x5 x6 s
  | .st x1 x2 x3 x4 x5 => Sys2Proof.Machine.execSt x1 x2 x3 x4 x5 s
  | .ldOrd x1 x2 x3 x4 x5 => Sys2Proof.Machine.execLdOrd x1 x2 x3 x4 x5 s
  | .ldOrdSigned x1 x2 x3 x4 x5 => Sys2Proof.Machine.execLdOrdSigned x1 x2 x3 x4 x5 s
  | .stOrd x1 x2 x3 x4 x5 => Sys2Proof.Machine.execStOrd x1 x2 x3 x4 x5 s
  | .ldt x1 x2 x3 x4 x5 x6 => Sys2Proof.Machine.execLdt x1 x2 x3 x4 x5 x6 s
  | .stt x1 x2 x3 x4 x5 x6 x7 => Sys2Proof.Machine.execStt x1 x2 x3 x4 x5 x6 x7 s
  | .amoAdd x1 x2 x3 x4 x5 x6 => Sys2Proof.Machine.execAmoAdd x1 x2 x3 x4 x5 x6 s
  | .amoAnd x1 x2 x3 x4 x5 x6 => Sys2Proof.Machine.execAmoAnd x1 x2 x3 x4 x5 x6 s
  | .amoOr x1 x2 x3 x4 x5 x6 => Sys2Proof.Machine.execAmoOr x1 x2 x3 x4 x5 x6 s
  | .amoXor x1 x2 x3 x4 x5 x6 => Sys2Proof.Machine.execAmoXor x1 x2 x3 x4 x5 x6 s
  | .amoMin x1 x2 x3 x4 x5 x6 => Sys2Proof.Machine.execAmoMin x1 x2 x3 x4 x5 x6 s
  | .amoMax x1 x2 x3 x4 x5 x6 => Sys2Proof.Machine.execAmoMax x1 x2 x3 x4 x5 x6 s
  | .amoMinu x1 x2 x3 x4 x5 x6 => Sys2Proof.Machine.execAmoMinu x1 x2 x3 x4 x5 x6 s
  | .amoMaxu x1 x2 x3 x4 x5 x6 => Sys2Proof.Machine.execAmoMaxu x1 x2 x3 x4 x5 x6 s
  | .amoSwap x1 x2 x3 x4 x5 x6 => Sys2Proof.Machine.execAmoSwap x1 x2 x3 x4 x5 x6 s
  | .amoCas x1 x2 x3 x4 x5 x6 => Sys2Proof.Machine.execAmoCas x1 x2 x3 x4 x5 x6 s
  | .amoCas128 x1 x2 x3 x4 x5 => Sys2Proof.Machine.execAmoCas128 x1 x2 x3 x4 x5 s
  | .amoFadd x1 x2 x3 x4 x5 x6 => Sys2Proof.Machine.execAmoFadd x1 x2 x3 x4 x5 x6 s
  | .amoFmin x1 x2 x3 x4 x5 x6 => Sys2Proof.Machine.execAmoFmin x1 x2 x3 x4 x5 x6 s
  | .amoFmax x1 x2 x3 x4 x5 x6 => Sys2Proof.Machine.execAmoFmax x1 x2 x3 x4 x5 x6 s
  | .redAdd x1 x2 x3 x4 x5 => Sys2Proof.Machine.execRedAdd x1 x2 x3 x4 x5 s
  | .redAnd x1 x2 x3 x4 x5 => Sys2Proof.Machine.execRedAnd x1 x2 x3 x4 x5 s
  | .redOr x1 x2 x3 x4 x5 => Sys2Proof.Machine.execRedOr x1 x2 x3 x4 x5 s
  | .redXor x1 x2 x3 x4 x5 => Sys2Proof.Machine.execRedXor x1 x2 x3 x4 x5 s
  | .redMin x1 x2 x3 x4 x5 => Sys2Proof.Machine.execRedMin x1 x2 x3 x4 x5 s
  | .redMax x1 x2 x3 x4 x5 => Sys2Proof.Machine.execRedMax x1 x2 x3 x4 x5 s
  | .redMinu x1 x2 x3 x4 x5 => Sys2Proof.Machine.execRedMinu x1 x2 x3 x4 x5 s
  | .redMaxu x1 x2 x3 x4 x5 => Sys2Proof.Machine.execRedMaxu x1 x2 x3 x4 x5 s
  | .redFadd x1 x2 x3 x4 x5 => Sys2Proof.Machine.execRedFadd x1 x2 x3 x4 x5 s
  | .redFmin x1 x2 x3 x4 x5 => Sys2Proof.Machine.execRedFmin x1 x2 x3 x4 x5 s
  | .redFmax x1 x2 x3 x4 x5 => Sys2Proof.Machine.execRedFmax x1 x2 x3 x4 x5 s
  | .ldrW x1 x2 => Sys2Proof.Machine.execLdrW x1 x2 s
  | .stc x1 x2 => Sys2Proof.Machine.execStc x1 x2 s
  | .rcancel x1 => Sys2Proof.Machine.execRcancel x1 s
  | .fence x1 x2 => Sys2Proof.Machine.execFence x1 x2 s
  | .drainTs => Sys2Proof.Machine.execDrainTs s
  | .drainGm => Sys2Proof.Machine.execDrainGm s
  | .drainMx => Sys2Proof.Machine.execDrainMx s
  | .cln x1 x2 => Sys2Proof.Machine.execCln x1 x2 s
  | .cinv x1 => Sys2Proof.Machine.execCinv x1 s
  | .iinv x1 => Sys2Proof.Machine.execIinv x1 s
  | .pref x1 => Sys2Proof.Machine.execPref x1 s
  | .yield x1 => Sys2Proof.Machine.execYield x1 s
  | .park x1 => Sys2Proof.Machine.execPark x1 s
  | .wake x1 x2 => Sys2Proof.Machine.execWake x1 x2 s
  | .exit x1 => Sys2Proof.Machine.execExit x1 s
  | .migr x1 x2 => Sys2Proof.Machine.execMigr x1 x2 s
  | .mfs x1 x2 x3 => Sys2Proof.Machine.execMfs x1 x2 x3 s
  | .mts x1 x2 x3 => Sys2Proof.Machine.execMts x1 x2 x3 s
  | .widF x1 x2 x3 => Sys2Proof.Machine.execWidF x1 x2 x3 s
  | .fork x1 x2 => Sys2Proof.Machine.execFork x1 x2 s
  | .sync x1 => Sys2Proof.Machine.execSync x1 s
  | .gang x1 x2 => Sys2Proof.Machine.execGang x1 x2 s
  | .launch x1 x2 => Sys2Proof.Machine.execLaunch x1 x2 s
  | .trig x1 => Sys2Proof.Machine.execTrig x1 s
  | .grun x1 x2 x3 => Sys2Proof.Machine.execGrun x1 x2 x3 s
  | .send x1 x2 x3 x4 => Sys2Proof.Machine.execSend x1 x2 x3 x4 s
  | .qpush x1 x2 x3 => Sys2Proof.Machine.execQpush x1 x2 x3 s
  | .qpop x1 x2 x3 => Sys2Proof.Machine.execQpop x1 x2 x3 s
  | .qstat x1 x2 x3 => Sys2Proof.Machine.execQstat x1 x2 x3 s
  | .wenq x1 x2 x3 x4 => Sys2Proof.Machine.execWenq x1 x2 x3 x4 s
  | .barInit x1 x2 x3 => Sys2Proof.Machine.execBarInit x1 x2 x3 s
  | .barArv x1 x2 => Sys2Proof.Machine.execBarArv x1 x2 s
  | .barArvb x1 x2 x3 => Sys2Proof.Machine.execBarArvb x1 x2 x3 s
  | .barExp x1 x2 x3 => Sys2Proof.Machine.execBarExp x1 x2 x3 s
  | .barWait x1 x2 x3 => Sys2Proof.Machine.execBarWait x1 x2 x3 s
  | .barAw x1 x2 => Sys2Proof.Machine.execBarAw x1 x2 s
  | .barTest x1 x2 x3 => Sys2Proof.Machine.execBarTest x1 x2 x3 s
  | .barInv x1 x2 => Sys2Proof.Machine.execBarInv x1 x2 s
  | .dbar x1 x2 => Sys2Proof.Machine.execDbar x1 x2 s
  | .apnd x1 x2 x3 x4 => Sys2Proof.Machine.execApnd x1 x2 x3 x4 s
  | .apndh x1 x2 x3 x4 => Sys2Proof.Machine.execApndh x1 x2 x3 x4 s
  | .ldtail x1 x2 x3 => Sys2Proof.Machine.execLdtail x1 x2 x3 s
  | .seal x1 x2 => Sys2Proof.Machine.execSeal x1 x2 s
  | .xinv x1 x2 x3 => Sys2Proof.Machine.execXinv x1 x2 x3 s
  | .rcommit x1 x2 x3 x4 => Sys2Proof.Machine.execRcommit x1 x2 x3 x4 s
  | .rmark x1 x2 x3 => Sys2Proof.Machine.execRmark x1 x2 x3 s
  | .trap x1 x2 => Sys2Proof.Machine.execTrap x1 x2 s
  | .ebrk x1 => Sys2Proof.Machine.execEbrk x1 s
  | .resume x1 x2 x3 x4 => Sys2Proof.Machine.execResume x1 x2 x3 x4 s
  | .halt x1 => Sys2Proof.Machine.execHalt x1 s
  | .trc x1 x2 => Sys2Proof.Machine.execTrc x1 x2 s
  | .hdef x1 x2 => Sys2Proof.Machine.execHdef x1 x2 s
  | .hinfo x1 x2 => Sys2Proof.Machine.execHinfo x1 x2 s
  | .hseal x1 => Sys2Proof.Machine.execHseal x1 s
  | .hopen x1 => Sys2Proof.Machine.execHopen x1 s
  | .hmap x1 x2 => Sys2Proof.Machine.execHmap x1 x2 s
  | .hunmap x1 => Sys2Proof.Machine.execHunmap x1 s
  | .ldh x1 x2 x3 => Sys2Proof.Machine.execLdh x1 x2 x3 s
  | .sth x1 x2 x3 => Sys2Proof.Machine.execSth x1 x2 x3 s
  | .cpyG2t x1 x2 x3 x4 => Sys2Proof.Machine.execCpyG2t x1 x2 x3 x4 s
  | .cpyT2g x1 x2 x3 x4 => Sys2Proof.Machine.execCpyT2g x1 x2 x3 x4 s
  | .cpyT2t x1 x2 x3 x4 => Sys2Proof.Machine.execCpyT2t x1 x2 x3 x4 s
  | .cpyG2g x1 x2 x3 x4 => Sys2Proof.Machine.execCpyG2g x1 x2 x3 x4 s
  | .cpyG2q x1 x2 x3 x4 => Sys2Proof.Machine.execCpyG2q x1 x2 x3 x4 s
  | .cpyGat x1 x2 x3 x4 => Sys2Proof.Machine.execCpyGat x1 x2 x3 x4 s
  | .cpySca x1 x2 x3 x4 => Sys2Proof.Machine.execCpySca x1 x2 x3 x4 s
  | .tvAdd x1 x2 x3 x4 => Sys2Proof.Machine.execTvAdd x1 x2 x3 x4 s
  | .tvSub x1 x2 x3 x4 => Sys2Proof.Machine.execTvSub x1 x2 x3 x4 s
  | .tvMul x1 x2 x3 x4 => Sys2Proof.Machine.execTvMul x1 x2 x3 x4 s
  | .tvFma x1 x2 x3 x4 => Sys2Proof.Machine.execTvFma x1 x2 x3 x4 s
  | .tvMin x1 x2 x3 x4 => Sys2Proof.Machine.execTvMin x1 x2 x3 x4 s
  | .tvMax x1 x2 x3 x4 => Sys2Proof.Machine.execTvMax x1 x2 x3 x4 s
  | .tvAbs x1 x2 => Sys2Proof.Machine.execTvAbs x1 x2 s
  | .tvExp2 x1 x2 => Sys2Proof.Machine.execTvExp2 x1 x2 s
  | .tvRcp x1 x2 => Sys2Proof.Machine.execTvRcp x1 x2 s
  | .tvCvt x1 x2 x3 x4 => Sys2Proof.Machine.execTvCvt x1 x2 x3 x4 s
  | .tvRed x1 x2 x3 x4 => Sys2Proof.Machine.execTvRed x1 x2 x3 x4 s
  | .tvBcast x1 x2 => Sys2Proof.Machine.execTvBcast x1 x2 s
  | .tvTrans x1 x2 => Sys2Proof.Machine.execTvTrans x1 x2 s
  | .tvSel x1 x2 x3 => Sys2Proof.Machine.execTvSel x1 x2 x3 s
  | .tvScale x1 x2 x3 => Sys2Proof.Machine.execTvScale x1 x2 x3 s
  | .mcfg x1 x2 => Sys2Proof.Machine.execMcfg x1 x2 s
  | .mloadb x1 x2 => Sys2Proof.Machine.execMloadb x1 x2 s
  | .mmac x1 x2 x3 x4 => Sys2Proof.Machine.execMmac x1 x2 x3 x4 s
  | .mmacs x1 x2 x3 x4 => Sys2Proof.Machine.execMmacs x1 x2 x3 x4 s
  | .mepi x1 x2 x3 x4 => Sys2Proof.Machine.execMepi x1 x2 x3 x4 s
  | .ctswap x1 => Sys2Proof.Machine.execCtswap x1 s
  | .msemWait x1 x2 => Sys2Proof.Machine.execMsemWait x1 x2 s
  | .msemPost x1 x2 => Sys2Proof.Machine.execMsemPost x1 x2 s
  | .mdrain x1 => Sys2Proof.Machine.execMdrain x1 s
  | .lineBind x1 x2 => Sys2Proof.Machine.execLineBind x1 x2 s
  | .rotation x1 x2 => Sys2Proof.Machine.execRotation x1 x2 s
  | .priorityAging x1 => Sys2Proof.Machine.execPriorityAging x1 s
  | .contextFill x1 => Sys2Proof.Machine.execContextFill x1 s
  | .lineForward x1 => Sys2Proof.Machine.execLineForward x1 s
  | .loadReply x1 => Sys2Proof.Machine.execLoadReply x1 s
  | .sRegisterReply x1 => Sys2Proof.Machine.execSRegisterReply x1 s
  | .longOperationCompletion x1 => Sys2Proof.Machine.execLongOperationCompletion x1 s
  | .writeAcknowledgement x1 => Sys2Proof.Machine.execWriteAcknowledgement x1 s
  | .durableAcknowledgement x1 => Sys2Proof.Machine.execDurableAcknowledgement x1 s
  | .faultAnswer x1 => Sys2Proof.Machine.execFaultAnswer x1 s
  | .heldRelease x1 x2 => Sys2Proof.Machine.execHeldRelease x1 x2 s
  | .waitDeadline x1 => Sys2Proof.Machine.execWaitDeadline x1 s
  | .wakeApply x1 => Sys2Proof.Machine.execWakeApply x1 s
  | .resumeApply x1 => Sys2Proof.Machine.execResumeApply x1 s
  | .migrateMove x1 => Sys2Proof.Machine.execMigrateMove x1 s
  | .translate x1 => Sys2Proof.Machine.execTranslate x1 s
  | .pageWalk x1 => Sys2Proof.Machine.execPageWalk x1 s
  | .homeAccess x1 => Sys2Proof.Machine.execHomeAccess x1 s
  | .visitorInvalidate x1 => Sys2Proof.Machine.execVisitorInvalidate x1 s
  | .ownershipRequest x1 => Sys2Proof.Machine.execOwnershipRequest x1 s
  | .ownerRecall x1 x2 => Sys2Proof.Machine.execOwnerRecall x1 x2 s
  | .stashFill x1 => Sys2Proof.Machine.execStashFill x1 s
  | .stashRecall x1 x2 => Sys2Proof.Machine.execStashRecall x1 x2 s
  | .reservationEnqueue x1 => Sys2Proof.Machine.execReservationEnqueue x1 s
  | .reservationGrant x1 => Sys2Proof.Machine.execReservationGrant x1 s
  | .conditionalStore x1 => Sys2Proof.Machine.execConditionalStore x1 s
  | .reservationTimeout x1 => Sys2Proof.Machine.execReservationTimeout x1 s
  | .wenqAccept x1 => Sys2Proof.Machine.execWenqAccept x1 s
  | .wenqPush x1 => Sys2Proof.Machine.execWenqPush x1 s
  | .sendDelivery x1 => Sys2Proof.Machine.execSendDelivery x1 s
  | .faultMessage x1 => Sys2Proof.Machine.execFaultMessage x1 s
  | .mismatchThreshold x1 => Sys2Proof.Machine.execMismatchThreshold x1 s
  | .copyAccept x1 => Sys2Proof.Machine.execCopyAccept x1 s
  | .copyStart x1 => Sys2Proof.Machine.execCopyStart x1 s
  | .multicastDelivery x1 => Sys2Proof.Machine.execMulticastDelivery x1 s
  | .copyComplete x1 x2 => Sys2Proof.Machine.execCopyComplete x1 x2 s
  | .copyError x1 x2 => Sys2Proof.Machine.execCopyError x1 x2 s
  | .byteArrival x1 => Sys2Proof.Machine.execByteArrival x1 s
  | .tvStart x1 => Sys2Proof.Machine.execTvStart x1 s
  | .tvComplete x1 => Sys2Proof.Machine.execTvComplete x1 s
  | .matrixAccept x1 => Sys2Proof.Machine.execMatrixAccept x1 s
  | .matrixOpStart x1 => Sys2Proof.Machine.execMatrixOpStart x1 s
  | .mloadbExecute x1 => Sys2Proof.Machine.execMloadbExecute x1 s
  | .maskPop x1 => Sys2Proof.Machine.execMaskPop x1 s
  | .matrixPass x1 => Sys2Proof.Machine.execMatrixPass x1 s
  | .passCheck x1 x2 => Sys2Proof.Machine.execPassCheck x1 x2 s
  | .epilogueRow x1 => Sys2Proof.Machine.execEpilogueRow x1 s
  | .matrixComplete x1 => Sys2Proof.Machine.execMatrixComplete x1 s
  | .engineSemaphorePost x1 => Sys2Proof.Machine.execEngineSemaphorePost x1 s
  | .semaphoreGrant x1 => Sys2Proof.Machine.execSemaphoreGrant x1 s
  | .tableSwap x1 x2 => Sys2Proof.Machine.execTableSwap x1 x2 s
  | .barrierCompletion x1 => Sys2Proof.Machine.execBarrierCompletion x1 s
  | .notification x1 => Sys2Proof.Machine.execNotification x1 s
  | .groupTableRead x1 => Sys2Proof.Machine.execGroupTableRead x1 s
  | .launchAccept x1 => Sys2Proof.Machine.execLaunchAccept x1 s
  | .placeKernel x1 => Sys2Proof.Machine.execPlaceKernel x1 s
  | .seedContext x1 x2 => Sys2Proof.Machine.execSeedContext x1 x2 s
  | .reservationPriority x1 => Sys2Proof.Machine.execReservationPriority x1 s
  | .gangPlace x1 => Sys2Proof.Machine.execGangPlace x1 s
  | .gangGrant x1 => Sys2Proof.Machine.execGangGrant x1 s
  | .gangWithdraw x1 => Sys2Proof.Machine.execGangWithdraw x1 s
  | .triggerEvent x1 => Sys2Proof.Machine.execTriggerEvent x1 s
  | .triggerMessage x1 x2 x3 => Sys2Proof.Machine.execTriggerMessage x1 x2 x3 s
  | .doneMessage x1 x2 x3 => Sys2Proof.Machine.execDoneMessage x1 x2 x3 s
  | .grunApply x1 => Sys2Proof.Machine.execGrunApply x1 s
  | .graphReplay x1 => Sys2Proof.Machine.execGraphReplay x1 s
  | .continuationPop x1 x2 => Sys2Proof.Machine.execContinuationPop x1 x2 s
  | .resumeRecordPop x1 x2 => Sys2Proof.Machine.execResumeRecordPop x1 x2 s
  | .recordSteal x1 => Sys2Proof.Machine.execRecordSteal x1 s
  | .recordAging x1 x2 => Sys2Proof.Machine.execRecordAging x1 x2 s
  | .forkAllocate x1 => Sys2Proof.Machine.execForkAllocate x1 s
  | .syncTest x1 => Sys2Proof.Machine.execSyncTest x1 s
  | .joinCompletion x1 => Sys2Proof.Machine.execJoinCompletion x1 s
  | .appendArrival x1 => Sys2Proof.Machine.execAppendArrival x1 s
  | .tailPublish x1 => Sys2Proof.Machine.execTailPublish x1 s
  | .sealArrival x1 => Sys2Proof.Machine.execSealArrival x1 s
  | .sealComplete x1 => Sys2Proof.Machine.execSealComplete x1 s
  | .replicaMake x1 => Sys2Proof.Machine.execReplicaMake x1 s
  | .reclaim x1 => Sys2Proof.Machine.execReclaim x1 s
  | .reclaimComplete x1 => Sys2Proof.Machine.execReclaimComplete x1 s
  | .xinvInvalidate x1 => Sys2Proof.Machine.execXinvInvalidate x1 s
  | .xinvAck x1 => Sys2Proof.Machine.execXinvAck x1 s
  | .commitRecord x1 => Sys2Proof.Machine.execCommitRecord x1 s
  | .mirrorRetry x1 => Sys2Proof.Machine.execMirrorRetry x1 s
  | .rcpWrite x1 => Sys2Proof.Machine.execRcpWrite x1 s
  | .srseedWrite x1 x2 => Sys2Proof.Machine.execSrseedWrite x1 x2 s
  | .ctblWrite x1 => Sys2Proof.Machine.execCtblWrite x1 s
  | .tswWrite x1 x2 => Sys2Proof.Machine.execTswWrite x1 x2 s
  | .trcctlWrite x1 x2 => Sys2Proof.Machine.execTrcctlWrite x1 x2 s
  | .gswtWrite x1 x2 => Sys2Proof.Machine.execGswtWrite x1 x2 s
  | .gangSwitch x1 => Sys2Proof.Machine.execGangSwitch x1 s
  | .reinjectRound x1 => Sys2Proof.Machine.execReinjectRound x1 s
  | .machineCheck x1 x2 x3 x4 x5 x6 => Sys2Proof.Machine.execMachineCheck x1 x2 x3 x4 x5 x6 s
  | .contain x1 => Sys2Proof.Machine.execContain x1 s
  | .containmentComplete x1 => Sys2Proof.Machine.execContainmentComplete x1 s
  | .dieReset x1 x2 => Sys2Proof.Machine.execDieReset x1 x2 s
  | .stackLoss x1 => Sys2Proof.Machine.execStackLoss x1 s
  | .powerLoss => Sys2Proof.Machine.execPowerLoss s
  | .thermalLimit x1 x2 => Sys2Proof.Machine.execThermalLimit x1 x2 s
  | .powerGrantStep x1 => Sys2Proof.Machine.execPowerGrantStep x1 s
  | .flitReceive x1 x2 x3 x4 => Sys2Proof.Machine.execFlitReceive x1 x2 x3 x4 s
  | .replayRequest x1 x2 => Sys2Proof.Machine.execReplayRequest x1 x2 s
  | .linkAck x1 x2 => Sys2Proof.Machine.execLinkAck x1 x2 s
  | .replayTimeout x1 => Sys2Proof.Machine.execReplayTimeout x1 s
  | .linkRetrain x1 => Sys2Proof.Machine.execLinkRetrain x1 s
  | .linkEnable x1 => Sys2Proof.Machine.execLinkEnable x1 s
  | .trainingComplete x1 => Sys2Proof.Machine.execTrainingComplete x1 s
  | .trainingTimeout x1 => Sys2Proof.Machine.execTrainingTimeout x1 s
  | .laneDegrade x1 x2 => Sys2Proof.Machine.execLaneDegrade x1 x2 s
  | .linkDisable x1 => Sys2Proof.Machine.execLinkDisable x1 s
  | .injctlWrite x1 x2 => Sys2Proof.Machine.execInjctlWrite x1 x2 s
  | .injectorFire x1 => Sys2Proof.Machine.execInjectorFire x1 s
  | .hostMemAccess x1 x2 x3 => Sys2Proof.Machine.execHostMemAccess x1 x2 x3 s
  | .bar2Access x1 x2 x3 => Sys2Proof.Machine.execBar2Access x1 x2 x3 s
  | .snpInv x1 => Sys2Proof.Machine.execSnpInv x1 s
  | .snpData x1 => Sys2Proof.Machine.execSnpData x1 s
  | .snpCur x1 => Sys2Proof.Machine.execSnpCur x1 s
  | .hostResponse x1 x2 x3 => Sys2Proof.Machine.execHostResponse x1 x2 x3 s
  | .birsp x1 x2 => Sys2Proof.Machine.execBirsp x1 x2 s
  | .biasFlipHost x1 => Sys2Proof.Machine.execBiasFlipHost x1 s
  | .biasFlipDevice x1 => Sys2Proof.Machine.execBiasFlipDevice x1 s
  | .flipComplete x1 => Sys2Proof.Machine.execFlipComplete x1 s
  | .interruptCauseWrite x1 x2 => Sys2Proof.Machine.execInterruptCauseWrite x1 x2 s
  | .ringDoorbell x1 x2 x3 => Sys2Proof.Machine.execRingDoorbell x1 x2 x3 s
  | .ringConsume x1 x2 => Sys2Proof.Machine.execRingConsume x1 x2 s
  | .ringReset x1 x2 x3 => Sys2Proof.Machine.execRingReset x1 x2 x3 s
  | .peerPacket x1 x2 x3 => Sys2Proof.Machine.execPeerPacket x1 x2 x3 s
  | .registerWrite x1 x2 x3 x4 => Sys2Proof.Machine.execRegisterWrite x1 x2 x3 x4 s
  | .merge x1 => Sys2Proof.Machine.execMerge x1 s
  | .split x1 => Sys2Proof.Machine.execSplit x1 s
  | .endKernel x1 => Sys2Proof.Machine.execEndKernel x1 s
  | .loadPatchImage x1 => Sys2Proof.Machine.execLoadPatchImage x1 s
  | .restartCore x1 x2 => Sys2Proof.Machine.execRestartCore x1 x2 s
  | .retireCore x1 => Sys2Proof.Machine.execRetireCore x1 s
  | .attest x1 => Sys2Proof.Machine.execAttest x1 s
  | .updateFirmware x1 => Sys2Proof.Machine.execUpdateFirmware x1 s
  | .linkState x1 => Sys2Proof.Machine.execLinkState x1 s
  | .objectSelect x1 => Sys2Proof.Machine.execObjectSelect x1 s
  | .powerUp x1 => Sys2Proof.Machine.execPowerUp x1 s
  | .probe x1 x2 x3 => Sys2Proof.Machine.execProbe x1 x2 x3 s
  | .present x1 => Sys2Proof.Machine.execPresent x1 s
  | .done x1 => Sys2Proof.Machine.execDone x1 s
  | .mapInstall x1 => Sys2Proof.Machine.execMapInstall x1 s
  | .imageStream x1 => Sys2Proof.Machine.execImageStream x1 s
  | .imageReceive x1 => Sys2Proof.Machine.execImageReceive x1 s
  | .sourceReadComplete x1 x2 => Sys2Proof.Machine.execSourceReadComplete x1 x2 s
  | .notificationNetReply x1 => Sys2Proof.Machine.execNotificationNetReply x1 s
  | .hostCompletionTimeout x1 => Sys2Proof.Machine.execHostCompletionTimeout x1 s
  | .laneTrainingFailure x1 x2 => Sys2Proof.Machine.execLaneTrainingFailure x1 x2 s

end Sys2Proof.Machine
end

