-- ==== Sys2Proof/Machine/Issue.lean ====
section
/-! DEFINITION. A turn of a core's slot: what the slot binds, the fetch, the Pallet fabric, the decode and the execution (R25,
R52, R64, R65, R133, R408–R413); and what follows a step by itself: waits that end, kernels that drain. -/

namespace Sys2Proof.Machine

/-! ## Waits that end at the core (R63, R163, R164, R176) -/

/-- Whether a condition of a waiting instruction holds. -/
def State.holdsFor (s : State) (l : Line) (c : WaitFor) : Bool :=
  match c with
  | .pwc => l.pwc == 0
  | .pdc => l.pdc == 0
  | .unheld => !l.held
  | .ops ids => ids.all fun i => (tget s.ops i).isNone
  | .invals die bound => !s.invalsBefore die bound
  | .noInvals die => !(s.net.any fun y => match y.body with
      | .inval _ _ d _ => d == die
      | _ => false)
  | .group grp => !s.openGroup grp
  | .durable g => !s.undurable g
  | .refs site ks h => ((((s.core site).ks.getD ks KSlot.reset).handle h).map (·.refs)).getD 0 == 0
  | .swapped cl t => !(s.cl cl).t3swap.contains t
  | .contRoom cl lvl => s.forkRoom cl lvl

/-- The wait of an `exit` is over (R77, R304): its reservations go, and a context with a frame joins its parent. -/
def State.exitNow (s : State) (w : Who) (l : Line) : State :=
  let s := s.unreserve w.key
  if l.link = 0#64 then s.finishExit w.key else s.sendReq w l.link.toNat .exitJoin

/-- The wait of a `trig` is over (R288): the first of a context is an event at its anchor. -/
def State.trigNow (s : State) (w : Who) (l : Line) : State :=
  let s := if l.trg then s
    else
      let s := s.modLine w.key fun x => { x with trg := true }
      match l.anchor with
      | some a =>
        let no := (((s.part l.part).kernel? l.kid).map (·.no)).getD 0
        s.send (.line w.key) (.core a) vnControl (.trigEvent a l.kid l.part no)
      | none => s
  s.makeReady w.key

/-- What a context does when the conditions it waits for hold. -/
def State.goOn (s : State) (p : Pend) (l : Line) : State :=
  let w := p.who
  let t := s.modLine w.key fun x => { x with pend := none }
  match p.act with
  | .go => s.makeReady w.key
  | .send va k => if s.holdFull w.site w.key va k then s else t.accessOrHold w va k
  | .arrive a =>
    let k := (s.core w.site).ks.getD w.ks KSlot.reset
    if s.arriveTurn w.site (k.barBase + a.b) w.slot then t.arrive w a else s
  | .exit => t.exitNow w l
  | .trig => t.trigNow w l
  | .semPost n => t.semPostNow w n
  | .handle h r st => t.finishHandle w h r st

/-- A line whose wait at the core may end. -/
def State.wakeLine (s : State) (key : Nat) : State :=
  match s.line? key with
  | none => s
  | some l =>
    match l.pend with
    | none => s
    | some p => if l.life == .live && !l.away && p.conds.all (s.holdsFor l) then s.goOn p l else s

/-- A frozen trace whose report is due (R379). -/
def State.traceReport (s : State) (site : Nat) : State :=
  let c := s.core site
  if c.trace.due then
    (s.setCore site { c with trace := { c.trace with due := false } }).report site (s.partOf site) 0 0
      { cls := 0x0F, sub := 0x01, kind := 0, size := 0xF, faddr := W s.gtime }
  else s

/-- What follows every step by itself. -/
def State.settle (s : State) : State :=
  let s := (s.lines.filter fun e => e.2.pend.isSome).foldl (fun s e => s.wakeLine e.1) s
  let s := (s.parts.map (·.1)).foldl State.drainKernels s
  let s := s.endRestartable
  ((s.cores.filter fun e => e.2.trace.due).map (·.1)).foldl State.traceReport s

/-! ## The fetch (R25, R133, R142, R250) -/

/-- A fault of a fetch.  DEDUCED, log entry 24; DEDUCED, log entry 25. -/
def fetchFlt (cls sub va : Nat) : Flt := { cls := cls, sub := sub, kind := 1, size := 1, faddr := W va }

/-- A halfword from the instruction cache, which is filled with the line first.  DESIGN CHOICE, log entry 26. -/
def State.fetchHalf (s : State) (e : Env) (va : Nat) : Probe (State × Nat) :=
  let key := ikey e.line.asid va
  if 2 ^ 54 ≤ va then .fault 0x04 0x01 va
  else
    match tget (s.core e.site).icache key with
    | some bs => .ok (s, leField bs (va % 64) 2)
    | none =>
      match s.pull (s.who e) .fetch (va / 64 * 64) 64 with
      | .fault a b _ => .fault a b va
      | .wait s => .wait s
      | .ok (s, bs) => .ok (s.modCore e.site fun c => c.cacheLine key bs, leField bs (va % 64) 2)

/-- The encoding at PC and its length in bytes (R25).  DEDUCED, log entry 25. -/
def State.fetch (s : State) (e : Env) : Probe (State × BitVec 32 × Nat) :=
  let pc := e.line.pc.toNat
  if pc % 2 = 1 then .fault 0x03 0x01 pc
  else
    match s.fetchHalf e pc with
    | .fault a b c => .fault a b c
    | .wait s => .wait s
    | .ok (s, lo) =>
      if isLong lo then
        match s.fetchHalf e (pc + 2) with
        | .fault a b c => .fault a b c
        | .wait s => .wait s
        | .ok (s, hi) => .ok (s, BitVec.ofNat 32 (lo + hi * 2 ^ 16), 4)
      else .ok (s, BitVec.ofNat 32 lo, 2)

/-! ## The order of the LFSR's steps (R89) -/

/-- Whether a request converts with the core's LFSR when it is accepted. -/
def ReqKind.stochastic (k : ReqKind) : Bool :=
  match k with
  | .stt _ _ _ sr _ _ _ _ => sr
  | .stashFill k => k.stochastic
  | _ => false

/-- Whether an `stt` with `.sr` that a core has issued has not been accepted, so that its steps of the LFSR are still to come.
DESIGN CHOICE, log entry 108. -/
def State.lfsrOwed (s : State) (site : Nat) : Bool :=
  (s.inFlight.any fun y => match y.body with
    | .req w _ k _ _ => w.site == site && k.stochastic
    | .acc a | .hostReq _ _ a | .bisnp _ _ (some a) => a.w.site == site && a.k.stochastic
    | _ => false) ||
  ((s.core site).hold.any fun h => h.k.stochastic) ||
  s.lines.any fun e => match e.2.pend with
    | some { who := w, act := .send _ k, .. } => w.site == site && k.stochastic
    | _ => false

/-- The instructions that step, read or write the LFSR (R79, R88, R89). -/
def usesLfsr (i : Instr) : Bool :=
  match i with
  | .fcvt _ _ _ sr _ _ _ => sr
  | .stt _ _ _ sr _ _ _ => sr
  | .mfs _ n _ | .mts _ n _ => n == 0x007#12
  | _ => false

/-- Whether an instruction must let an earlier `stt` of the core step the LFSR first: the steps follow the order of issue (R89).
DESIGN CHOICE, log entry 108. -/
def State.lfsrHolds (s : State) (site : Nat) (i : Instr) : Bool := usesLfsr i && s.lfsrOwed site

/-! ## Emulated instructions (R412, R413) -/

/-- An EMULATE sequence at its entry: the shadow registers as R412 fills them, nothing staged. -/
def emuStart (no : Nat) (e : Env) (enc : BitVec 32) (len : Nat) (wb : Bool) (words : List Nat) : EmuRun :=
  let w := enc.toNat
  let named (lo : Nat) : Word := e.reg (f4 w lo)
  let regs := if len = 2 then [W w, e.line.pc, named 9, named 5, 0#64] else [W w, e.line.pc, named 16, named 20, named 12]
  { no := no, key := e.key, pc := e.line.pc, enc := enc, len := len, wb := wb, words := words, at_ := 0, x := regs ++ List.replicate 3 0#64,
    v := e.line.v, pw := e.line.pw, stores := [], loading := false }

/-- The context as an instruction of a sequence sees it: the staged v registers and PW, the shadow registers in place of the s bank, and
PC at four times the instruction's number; TSW.SVC is clear, so that an inner fault only shows what it is. -/
def EmuRun.view (r : EmuRun) (e : Env) : Env :=
  { e with
    core := e.core.setKs e.ks { e.kslot with s := r.x, stamps := List.replicate 8 (0, 0) }
    line := { e.line.setTsw 4 1 0 with pc := W (4 * r.at_), v := r.v, pw := r.pw } }

/-- A staged register write of a sequence: bank bit 1 names a shadow register (R412). -/
def EmuRun.setReg (r : EmuRun) (d : Reg) (v : Word) : EmuRun :=
  if d.val < 8 then { r with v := r.v.set d.val v } else { r with x := r.x.set (d.val - 8) v }

/-- The sequence of a slot goes on as given. -/
def State.setRun (s : State) (e : Env) (r : EmuRun) : State := s.modCore e.site fun c => { c with emu := tset c.emu e.slot r }

/-- The fault that a trial execution of an instruction has left in its line. -/
def emuFault (l : Line) : Flt :=
  { cls := wfld l.cause 0 8, sub := wfld l.cause 8 8, size := wfld l.cause 16 4, kind := wfld l.cause 20 7, faddr := l.faddr }

/-- An instruction of a sequence that touches no memory: what it writes is staged; the LFSR steps as in ordinary code, and a fault
abandons the sequence (R412, R413). -/
def State.emuCompute (s : State) (e : Env) (r : EmuRun) (i : Instr) : State :=
  match exec i (s.put (r.view e)) with
  | .next t =>
    match t.line? e.key with
    | none => s
    | some l =>
      if l.wtKind ≠ 0 then s.raise e (emuFault l)
      else
        let k := (t.core e.site).ks.getD e.ks KSlot.reset
        let s : State := { s with free := t.free }
        (s.modCore e.site fun c => { c with lfsr := (t.core e.site).lfsr }).setRun e
          { r with x := k.s, v := l.v, pw := l.pw, at_ := (l.pc.toNat + 3) / 4 }
  | .fault _ | .refused _ => s

/-- A load of a sequence leaves as an ordinary request, after a held store that it reads; the slot idles until its data is there
(R141, R413). -/
def State.emuLoad (s : State) (e : Env) (r : EmuRun) (n : Nat) (ea : Word) (dst : LdDst) : State :=
  let k : ReqKind := .load dst n .rlx .core
  match eaFault kLoad n ea with
  | some f => s.raise e f
  | none =>
    if e.meetsHeld k ea.toNat then s
    else (s.setRun e { r with at_ := r.at_ + 1, loading := true }).access { s.who e with emu := r.no } ea.toNat k

/-- One instruction of a sequence (R412, R413). -/
def State.emuStep (s : State) (e : Env) (r : EmuRun) (word : Nat) : State :=
  let x := r.view e
  match decodeWord word with
  | .error _ => s
  | .ok i =>
    match i with
    | .ld g z sx d a imm =>
      if x.line.guard g then s.emuLoad e r (sizeBytes z) (maddr x z a imm) (loadDst z sx d) else s.setRun e { r with at_ := r.at_ + 1 }
    | .st g z d a imm =>
      if x.line.guard g then
        match eaFault kStore (sizeBytes z) (maddr x z a imm) with
        | some f => s.raise e f
        | none => s.setRun e { r with at_ := r.at_ + 1, stores := r.stores ++ [((maddr x z a imm).toNat, storeData x z d)] }
      else s.setRun e { r with at_ := r.at_ + 1 }
    | _ => if s.lfsrHolds e.site i then s else s.emuCompute e r i

/-- Whether the pages of the staged stores admit them, in program order: the first that does not gives the sequence's fault, and nothing
that was staged stands (R412).  DEDUCED, log entry 17. -/
def State.emuAdmits (s : State) (w : Who) (stores : List (Nat × List Byte)) : Except Flt State :=
  match stores with
  | [] => .ok s
  | (va, data) :: rest =>
    let k : ReqKind := .store data .rlx .core
    let flt (f : Nat × Nat) : Flt := { cls := f.1, sub := f.2, kind := kStore, size := log2Size data.length, faddr := W va }
    match s.xlate w.part w.asid w.priv va k.cat with
    | .error f => .error (flt f)
    | .ok (s, l) =>
      match s.placeVerdict w k l (l.ga va) with
      | some f => .error (flt f)
      | none => s.emuAdmits w rest

/-- The commit of a sequence: staged registers and predicates stand beside the flags that other operations have raised meanwhile, x4 is
written back, PC advances, and the stores leave in program order, each counting in PWC (R412).  A check-hold buffer without room for them
makes it wait (R216). -/
def State.emuCommit (s : State) (e : Env) (r : EmuRun) : State :=
  let w := s.who e
  if e.line.held && decide (holdSize < (s.core e.site).heldLines + (r.stores.map fun x => linesHeld (.store x.2 .rlx .core) x.1).sum) then s
  else
    match s.emuAdmits w r.stores with
    | .error f => s.raise e f
    | .ok s =>
      let c := s.core e.site
      let e' : Env := { e with
        line := { e.line with v := r.v, pw := r.pw ||| (e.line.pw &&& 0x001F0000#32) }
        core := { c with emu := tdel c.emu e.slot } }
      let e' := if r.wb then e'.setReg s.cycle (f4 r.enc.toNat (if r.len = 2 then 5 else 12)) (r.x.getD 4 0#64) else e'
      if r.stores.isEmpty then s.put (e'.adv r.len)
      else
        let s := (s.leave e' 1).modLine e.key fun l => { l with wt := mkWt 1 r.stores.length }
        r.stores.foldl (fun s st => s.accessOrHold w st.1 (.store st.2 .rlx .core)) s

/-- A turn of a slot that executes a sequence: one instruction of it, and after the last one its commit; nothing while a load's reply is
awaited (R412, R413). -/
def State.emuTurn (s : State) (e : Env) (r : EmuRun) : State :=
  if r.loading then s
  else
    let s := match r.words[r.at_]? with
      | some word => s.emuStep e r word
      | none => s
    match tget (s.core e.site).emu e.slot with
    | some r => if r.loading || decide (r.at_ < r.words.length) then s else s.emuCommit { e with core := s.core e.site } r
    | none => s

/-- An instruction that a slot begins to emulate (R412): its first sequence instruction issues in the same turn. -/
def State.emulate (s : State) (e : Env) (rec_ : List Byte) : State :=
  let words := (tgetD (s.part e.line.part).image.seqs (leField rec_ 18 1) []).take (leField rec_ 19 1)
  let r := emuStart s.nextId e s.fetched s.flen (slotWb rec_) words
  let s := { s with nextId := s.nextId + 1 }.setRun e r
  s.emuTurn { e with core := s.core e.site } r

/-! ## The turn (R52, R64, R65) -/

/-- Steps 2 to 7 of R52; an instruction that uses the LFSR waits for its turn with it (R89).  DESIGN CHOICE, log entry 108. -/
def State.decodeExec (s : State) (e : Env) (word : Nat) : Out :=
  match decodeWord word with
  | .error _ => .next (s.raise e (fltIll e.line.pc))
  | .ok i => if s.lfsrHolds e.site i then .next s else exec i s

/-- Step 1 of R52 and what follows: a slot of the partition's image that matches acts (R408–R411). -/
def State.patchExec (s : State) (e : Env) : Out :=
  match (s.part e.line.part).encSlot s.fetched s.flen e.line.priv with
  | none => s.decodeExec e s.fetched.toNat
  | some (n, r) =>
    match slotAct r with
    | 0 => .next (s.raise e { cls := 0x0D, sub := n, kind := 0, size := 0xF, faddr := e.line.pc })
    | 1 =>
      let keep := leField r 12 4
      let new := (s.fetched.toNat &&& keep) ||| (leField r 8 4 &&& (keep ^^^ (2 ^ 32 - 1)))
      s.decodeExec e new
    | _ => .next (s.emulate e r)

/-- A slot that has issued counts one more turn in a row of its line (R65). -/
def State.countTurn (s : State) (site slot key : Nat) : State :=
  s.modCore site fun c =>
    if tget c.bound slot = some key then { c with streak := tset c.streak slot (tgetD c.streak slot 0 + 1) } else c

/-- The outcome of a step with what follows it. -/
def thenDo (o : Out) (f : State → State) : Out :=
  match o with
  | .next s => .next (f s)
  | .fault x => .fault x
  | .refused x => .refused x

/-- The context that the slot issues from, with its instruction fetched: what the checker and the fabric see.  A turn that has fetched
counts, and one that waits for its fetch does not (R65). -/
def State.issueFrom (s : State) (e : Env) (go : State → Env → Out) : Out :=
  match s.fetch e with
  | .wait t => .next (s.keepMsgs t)
  | .fault a b va =>
    let s : State := { s with fetched := 0#32, flen := 0 }
    .next (s.raise e (fetchFlt a b va))
  | .ok (t, enc, len) =>
    let t : State := { t with fetched := enc, flen := len }
    match t.env? with
    | some e => thenDo (go t e) fun t => t.countTurn e.site e.slot e.key
    | none => .next t

/-- The sequence that a slot executes for the instruction at its line's PC (R412). -/
def Env.run? (e : Env) : Option EmuRun := (tget e.core.emu e.slot).filter fun r => r.key == e.key && r.pc == e.line.pc

/-- A turn of the current slot of a core that has had none in this cycle; `go` is what the fetched instruction does, and `goOn` what a
sequence under way does. -/
def State.turnWith (s : State) (site : Nat) (go : State → Env → Out) (goOn : State → Env → EmuRun → State) : Out :=
  let s : State := { s with cur := site }
  let c := s.core site
  if c.life != .active || c.turnAt == some s.cycle then .next s
  else
    let s := (s.setCore site { c with turnAt := some s.cycle }).slotPrepare site s.slot
    match s.env? with
    | none => .next s
    | some e =>
      match e.run? with
      | some r =>
        let s : State := { s with fetched := r.enc, flen := r.len }
        .next (if r.loading then s else (goOn s e r).countTurn site e.slot e.key)
      | none => s.issueFrom e go

/-- A turn (R64).  DESIGN CHOICE, log entry 16. -/
def State.turn (s : State) (site : Nat) : Out := s.turnWith site State.patchExec State.emuTurn

/-- A mismatch of the instruction that a slot executes: nothing commits, and the second contains the core (R390). -/
def State.mismatched (s : State) (e : Env) (second : Bool) : State :=
  let s := (s.modLine e.key id).noteMismatch e.site { slot := some e.slot, unit_ := 0, at_ := e.line.pc.toNat }
  if second then s.startContain e.site else s

/-- A turn whose instruction, or whose sequence's instruction, the checker finds mismatched (R389, R390): it does not commit, and executes
again at the slot's next turn.  DESIGN CHOICE, log entry 18. -/
def State.mismatchTurn (s : State) (site : Nat) (second : Bool) : Out :=
  s.turnWith site (fun s e => .next (s.mismatched e second)) fun s e _ => s.mismatched e second

/-! ## Steps -/

/-- Whether a package whose firmware has failed still answers an event: function 0 and its mailbox (R427).
DEDUCED, log entry 85. -/
def State.answersFailed (s : State) (i : Instr) : Bool :=
  let box (m : Nat) : Bool := match s.find? m with
    | some (.reg b _ _) => b == 16
    | _ => false
  match i with
  | .registerWrite fn off _ _ => fn == 0 && decide (0x2010000 ≤ off) && decide (off < 0x2011000)
  | .endKernel m | .loadPatchImage m | .retireCore m | .attest m | .updateFirmware m | .linkState m | .merge m | .split m => box m
  | .restartCore m _ => box m
  | .powerLoss => true
  | _ => false

/-- Whether an event comes through the host port, which the last step of the boot opens (R428). -/
def fromHost (i : Instr) : Bool :=
  match i with
  | .hostMemAccess _ _ _ | .bar2Access _ _ _ | .snpInv _ | .snpData _ | .snpCur _ | .hostResponse _ _ _ | .birsp _ _ => true
  | .biasFlipHost _ | .interruptCauseWrite _ _ | .ringDoorbell _ _ _ | .ringReset _ _ _ | .registerWrite _ _ _ _ => true
  | _ => false

/-- Whether a step of the device may happen: an encoded instruction happens only as a slot's turn fetches it, and nothing comes from
the host while the boot runs (R428).  DEDUCED, log entry 85. -/
def State.allows (s : State) (i : Instr) : Bool :=
  i.length == 0 && (!s.reg.failed || s.answersFailed i) && !(s.reg.booting && !s.reg.failed && fromHost i)

/-- Whether an event restores power. -/
def isPowerUp (i : Instr) : Bool :=
  match i with
  | .powerUp _ => true
  | _ => false

/-- What is due next happens.  DESIGN CHOICE, log entry 16. -/
def State.perform (s : State) (t : Todo) : Out :=
  match t with
  | .event i => if !s.reg.powered && !isPowerUp i then .fault .powerOff else if s.allows i || isPowerUp i then exec i s else .next s
  | .turn site => if !s.reg.powered then .fault .powerOff else if s.reg.failed then .next s else s.turn site
  | .mismatch site second => if !s.reg.powered then .fault .powerOff else if s.reg.failed then .next s else s.mismatchTurn site second
  | .pathMismatch m => if !s.reg.powered then .fault .powerOff else if s.reg.failed then .next s else s.pathMismatch m

end Sys2Proof.Machine
end

