-- ==== Sys2Proof/Machine/Step.lean ====
section
/-! DEFINITION. One step of the package, and the state in which a given instruction is the next to be fetched. -/

namespace Sys2Proof.Machine

/-- The next entry of the schedule, after the issue cycles that elapse before it; with none left, a turn of the current core,
and one issue cycle elapses (R6, R64).  DESIGN CHOICE, log entry 15. -/
def step (s : State) : Host.Outcome State Fault Refusal :=
  match s.agenda with
  | a :: rest => thenDo (State.perform { s with agenda := rest, cycle := s.cycle + a.after } a.what) State.settle
  | [] => thenDo (s.perform (.turn s.cur)) fun t => { t.settle with cycle := s.cycle + 1 }

/-- The line that a program placed from outside runs on, where the current slot runs none. -/
def fetchLine (part : Nat) (site slot : Nat) : Line :=
  { Line.blank with
    pc := 0x100000#64, pw := 1#32, tsw := 6#64, space := W (part * 2 ^ 16), cid := 0x2000, place := .l1 site, bound := some slot,
    lastSlot := slot, lastCl := clusterOf site }

/-- A context runs in the current slot of the current core: the one that does, or a new one.  DESIGN CHOICE, log entry 15. -/
def State.withContext (s : State) : State :=
  match s.env? with
  | some _ => s
  | none =>
    let site := s.cur
    let part := s.partOf site
    let c := s.core site
    let k : KSlot := { KSlot.reset with kid := some 0, part := part }
    { s with
      lines := tset s.lines 0x2000 (fetchLine part site s.slot)
      cores := tset s.cores site { c with ks := c.ks.set 0 k, bound := tset c.bound s.slot 0x2000, life := .active, turnAt := none } }

/-- Bytes put into the lines of an instruction cache that hold an address and the one two bytes on.
DESIGN CHOICE, log entry 15. -/
def Core.placeCode (c : Core) (asid va : Nat) (bs : List Byte) : Core :=
  let put (t : Table (List Byte)) (x : Nat × List Byte) : Table (List Byte) :=
    let k := ikey asid x.1
    tset t k (patchBytes (tgetD t k (List.replicate 64 0#8)) (x.1 % 64) x.2)
  { c with icache := (splitLines 5 va bs).foldl put c.icache }

/-- The state in which the next step fetches and runs an instruction whose bits are `w`, the bits above `nbits` zero.
DESIGN CHOICE, log entry 15. -/
def State.withFetchWord (s : State) (nbits w : Nat) : State :=
  let s := { s with agenda := [], reg := { s.reg with powered := true, failed := false } }.withContext
  match s.env? with
  | some e => s.setCore e.site (e.core.placeCode e.line.asid e.line.pc.toNat (wordBytes (w % 2 ^ nbits)))
  | none => s

end Sys2Proof.Machine
end

