-- ==== Sys2Proof/Safety.lean ====
section
/-! DEFINITION. What counts as a safe run, in the terms the statements use: the outcomes of a step that are next states, the
canonical form of the package's memory, and, per family of the opcode table, the effect that its rule gives each
instruction, written from the rule's own words. -/

namespace Sys2Proof.Machine

/-- The outcome is a next state: the machine has neither stopped nor refused the instruction. -/
def Answers (o : Host.Outcome State Fault Refusal) : Prop := ∃ t, o = .next t

/-- The memory of the package is in its canonical form: addresses strictly rising, no cell that holds the blank byte. -/
def State.MemOk (s : State) : Prop := Memory.wf s.mem = true

/-- A guarded instruction is due: the current slot has a READY context, and the guard holds (R27, R64). -/
def State.Runs (s : State) (e : Env) (g : Guard) : Prop := s.env? = some e ∧ e.line.guard g = true

/-- A register of a context: an element of its line for v0 to v7, of the kernel slot that runs it for s0 to s7 (R26). -/
def State.regOf (s : State) (e : Env) (r : Reg) : Word :=
  if r.val < 8 then (((s.line? e.key).map (·.v)).getD []).getD r.val 0#64
  else ((s.core e.site).ks.getD e.ks KSlot.reset).s.getD (r.val - 8) 0#64

/-- The core's s bank takes a write of the issuing slot: no answer of a later slot has written the register in this cycle
(R72). -/
def State.Takes (s : State) (e : Env) (d : Reg) : Prop :=
  8 ≤ d.val → ∀ old, old = e.kslot.stamps.getD (d.val - 8) (0, 0) → ¬ (old.1 = s.cycle + 1 ∧ e.slot * 3 + 2 < old.2)

/-! ## Lanes (R105, R110, R112, R114, R120, R121) -/

/-- What an instruction on lanes does: its guard, if it has one, its length, the width of the lanes it writes, its destination
register, and the value and flags of each lane. -/
structure LaneEffect where
  guard : Option Guard
  len : Nat
  width : Nat
  d : Reg
  lane : Env → Nat → Nat × Flags

/-- An effect of a 32-bit instruction on two source registers, lane by lane, that raises no flag. -/
def LaneEffect.of2 (g : Guard) (t : LaneType) (d a b : Reg) (f : Nat → Nat → Nat) : LaneEffect :=
  { guard := some g, len := 4, width := t.width, d := d,
    lane := fun e k => (f (Machine.lane t.width (e.reg a) k) (Machine.lane t.width (e.reg b) k), Flags.none) }

/-- An effect on one source register. -/
def LaneEffect.of1 (g : Guard) (t : LaneType) (d a : Reg) (f : Nat → Nat) : LaneEffect :=
  { guard := some g, len := 4, width := t.width, d := d,
    lane := fun e k => (f (Machine.lane t.width (e.reg a) k), Flags.none) }

/-- The 16-bit form of an instruction on two sources: rd is its first source, and it is unguarded (R34, R130). -/
def LaneEffect.short (x : LaneEffect) : LaneEffect := { x with guard := none, len := 2 }

/-- The effect on the lanes of two sources with flags. -/
def LaneEffect.fp2 (g : Guard) (t : LaneType) (d a b : Reg) (f : Nat → Nat → Nat × Flags) : LaneEffect :=
  { guard := some g, len := 4, width := t.width, d := d,
    lane := fun e k => f (Machine.lane t.width (e.reg a) k) (Machine.lane t.width (e.reg b) k) }

/-- The effect of a fused operation, whose third source is rd. -/
def LaneEffect.fp3 (g : Guard) (t : LaneType) (d a b : Reg) (f : Nat → Nat → Nat → Nat × Flags) : LaneEffect :=
  { guard := some g, len := 4, width := t.width, d := d,
    lane := fun e k =>
      f (Machine.lane t.width (e.reg a) k) (Machine.lane t.width (e.reg b) k) (Machine.lane t.width (e.reg d) k) }

/-- A conversion from lanes of width `ws` to lanes of type `t`: 64 / max elements, and zeros above them (R128). -/
def LaneEffect.conv (g : Guard) (t e : LaneType) (d a : Reg) (f : Nat → Nat × Flags) : LaneEffect :=
  { guard := some g, len := 4, width := t.width, d := d,
    lane := fun n k => if k < 64 / max e.width t.width then f (Machine.lane e.width (n.reg a) k) else (0, Flags.none) }

/-- The lane rules of R110. -/
def addLane (w x y : Nat) : Nat := (x + y) % 2 ^ w
/-- (a − b) mod 2^w. -/
def subLane (w x y : Nat) : Nat := (2 ^ w + x - y) % 2 ^ w
/-- The masked shift count: b and (w − 1). -/
def countOf (w y : Nat) : Nat := y &&& (w - 1)

/-- The integer instructions of two sources, lane by lane, by R110, R114 and R120. -/
def intLanes (i : Instr) : Option LaneEffect :=
  match i with
  | .add g t d a b => some (.of2 g t d a b (addLane t.width))
  | .sub g t d a b => some (.of2 g t d a b (subLane t.width))
  | .and g t d a b => some (.of2 g t d a b fun x y => x &&& y)
  | .or g t d a b => some (.of2 g t d a b fun x y => x ||| y)
  | .xor g t d a b => some (.of2 g t d a b fun x y => x ^^^ y)
  | .shl g t d a b => some (.of2 g t d a b fun x y => x <<< countOf t.width y % 2 ^ t.width)
  | .shr g t d a b => some (.of2 g t d a b fun x y => x >>> countOf t.width y)
  | .sra g t d a b => some (.of2 g t d a b fun x y => wrap t.width (signed t.width x / 2 ^ countOf t.width y))
  | .mul g t d a b => some (.of2 g t d a b fun x y => x * y % 2 ^ t.width)
  | .mulh g t d a b => some (.of2 g t d a b fun x y => wrap t.width (signed t.width x * signed t.width y / 2 ^ t.width))
  | .mulhu g t d a b => some (.of2 g t d a b fun x y => (x * y) >>> t.width)
  | .min g t d a b => some (.of2 g t d a b fun x y => if signed t.width y < signed t.width x then y else x)
  | .max g t d a b => some (.of2 g t d a b fun x y => if signed t.width x < signed t.width y then y else x)
  | .minu g t d a b => some (.of2 g t d a b fun x y => Nat.min x y)
  | .maxu g t d a b => some (.of2 g t d a b fun x y => Nat.max x y)
  | .adds g t d a b => some (.of2 g t d a b fun x y =>
      wrap t.width (clamp (-(2 ^ (t.width - 1))) (2 ^ (t.width - 1) - 1) (signed t.width x + signed t.width y)))
  | .subs g t d a b => some (.of2 g t d a b fun x y =>
      wrap t.width (clamp (-(2 ^ (t.width - 1))) (2 ^ (t.width - 1) - 1) (signed t.width x - signed t.width y)))
  | .addsu g t d a b => some (.of2 g t d a b fun x y => Nat.min (x + y) (2 ^ t.width - 1))
  | .subsu g t d a b => some (.of2 g t d a b fun x y => x - y)
  | .avgu g t d a b => some (.of2 g t d a b fun x y => (x + y + 1) >>> 1)
  | .absd g t d a b => some (.of2 g t d a b fun x y => ((x : Int) - y).natAbs)
  | .bext g t d a b => some (.of2 g t d a b fun x y =>
      let len := if (y >>> Nat.log2 t.width) &&& (t.width - 1) = 0 then t.width else (y >>> Nat.log2 t.width) &&& (t.width - 1)
      (x >>> countOf t.width y) &&& (2 ^ len - 1))
  | _ => none

/-- The integer instructions of one source and those whose second source is an immediate, by R112, R114, R120 and R121. -/
def intLanes1 (i : Instr) : Option LaneEffect :=
  match i with
  | .shli g t d a h => some (.of1 g t d a fun x => x <<< h.val % 2 ^ t.width)
  | .shri g t d a h => some (.of1 g t d a fun x => x >>> h.val)
  | .srai g t d a h => some (.of1 g t d a fun x => wrap t.width (signed t.width x / 2 ^ h.val))
  | .rori g t d a h => some (.of1 g t d a fun x => ((x >>> h.val) ||| (x <<< (t.width - h.val))) % 2 ^ t.width)
  | .clz g t d a => some (.of1 g t d a fun x => if x = 0 then t.width else t.width - 1 - Nat.log2 x)
  | .ctz g t d a => some (.of1 g t d a fun x => ((List.range t.width).takeWhile fun j => !x.testBit j).length)
  | .popc g t d a => some (.of1 g t d a fun x => ((List.range t.width).filter fun j => x.testBit j).length)
  | .bswap g t d a => some (.of1 g t d a fun x =>
      packNat 8 ((List.range (t.width / 8)).map fun j => x / 2 ^ (8 * (t.width / 8 - 1 - j)) % 2 ^ 8))
  | .brev g t d a => some (.of1 g t d a fun x =>
      packNat 1 ((List.range t.width).map fun j => x / 2 ^ (t.width - 1 - j) % 2))
  | .neg g t d a => some (.of1 g t d a fun x => (2 ^ t.width - x) % 2 ^ t.width)
  | .abs g t d a => some (.of1 g t d a fun x => (signed t.width x).natAbs % 2 ^ t.width)
  | .vbcast g t d a => some
    { guard := some g, len := 4, width := t.width, d := d,
      lane := fun e _ => (lane t.width (e.reg a) 0, Flags.none) }
  | .bins g t d a b => some
    { guard := some g, len := 4, width := t.width, d := d,
      lane := fun e k =>
        let w := t.width
        let y := lane w (e.reg b) k
        let len := if (y >>> Nat.log2 w) &&& (w - 1) = 0 then w else (y >>> Nat.log2 w) &&& (w - 1)
        let mask := ((2 ^ len - 1) <<< countOf w y) % 2 ^ w
        ((lane w (e.reg d) k &&& (2 ^ w - 1 - mask)) ||| ((lane w (e.reg a) k <<< countOf w y) &&& mask), Flags.none) }
  | .vshuf g t d a b => some
    { guard := some g, len := 4, width := t.width, d := d,
      lane := fun e k =>
        let x := lane t.width (e.reg b) k
        (if x.testBit (t.width - 1) then 0 else lane t.width (e.reg a) (x % (64 / t.width)), Flags.none) }
  | .vpack g t d a b => some
    { guard := some g, len := 4, width := t.width / 2, d := d,
      lane := fun e k =>
        let x := if k < 64 / t.width then lane t.width (e.reg a) k else lane t.width (e.reg b) (k - 64 / t.width)
        (wrap (t.width / 2) (clamp (-(2 ^ (t.width / 2 - 1))) (2 ^ (t.width / 2 - 1) - 1) (signed t.width x)), Flags.none) }
  | .vunpkl g t d a => some
    { guard := some g, len := 4, width := 2 * t.width, d := d,
      lane := fun e k => (wrap (2 * t.width) (signed t.width (lane t.width (e.reg a) k)), Flags.none) }
  | .vunpkh g t d a => some
    { guard := some g, len := 4, width := 2 * t.width, d := d,
      lane := fun e k => (wrap (2 * t.width) (signed t.width (lane t.width (e.reg a) (k + 64 / t.width / 2))), Flags.none) }
  | _ => none

/-- The 16-bit forms act as the 32-bit forms with rd as first source and rs as second (R34, R130). -/
def lanes16 (i : Instr) : Option LaneEffect :=
  let f (j : Instr) : Option LaneEffect := (intLanes j).map LaneEffect.short
  let g0 : Guard := { n := false, p := 0 }
  match i with
  | .add16 t d r => f (.add g0 t d d r)
  | .sub16 t d r => f (.sub g0 t d d r)
  | .and16 t d r => f (.and g0 t d d r)
  | .or16 t d r => f (.or g0 t d d r)
  | .xor16 t d r => f (.xor g0 t d d r)
  | .shl16 t d r => f (.shl g0 t d d r)
  | .shr16 t d r => f (.shr g0 t d d r)
  | .sra16 t d r => f (.sra g0 t d d r)
  | .mul16 t d r => f (.mul g0 t d d r)
  | .min16 t d r => f (.min g0 t d d r)
  | .max16 t d r => f (.max g0 t d d r)
  | .fadd16 t d r => some (LaneEffect.fp2 g0 t d d r (fpAdd (fmtOf t) .rne)).short
  | .fsub16 t d r => some (LaneEffect.fp2 g0 t d d r (fpSub (fmtOf t) .rne)).short
  | .fmul16 t d r => some (LaneEffect.fp2 g0 t d d r (fpMul (fmtOf t) .rne)).short
  | .fmax16 t d r => some (LaneEffect.fp2 g0 t d d r (fpMinMax (fmtOf t) true)).short
  | _ => none

/-- The fixed-latency floating-point instructions, lane by lane, over the operations of one lane (R122 to R129). -/
def fpLanes (i : Instr) : Option LaneEffect :=
  match i with
  | .fadd g t r d a b => some (.fp2 g t d a b (fpAdd (fmtOf t) r))
  | .fsub g t r d a b => some (.fp2 g t d a b (fpSub (fmtOf t) r))
  | .fmul g t r d a b => some (.fp2 g t d a b (fpMul (fmtOf t) r))
  | .fma g t r d a b => some (.fp3 g t d a b (fpFused (fmtOf t) r false false))
  | .fms g t r d a b => some (.fp3 g t d a b (fpFused (fmtOf t) r false true))
  | .fnma g t r d a b => some (.fp3 g t d a b (fpFused (fmtOf t) r true false))
  | .fmin g t d a b => some (.fp2 g t d a b (fpMinMax (fmtOf t) false))
  | .fmax g t d a b => some (.fp2 g t d a b (fpMinMax (fmtOf t) true))
  | .fabs g t d a => some (.of1 g t d a fun x => if x.testBit (t.width - 1) then x - 2 ^ (t.width - 1) else x)
  | .fneg g t d a => some (.of1 g t d a fun x => if x.testBit (t.width - 1) then x - 2 ^ (t.width - 1) else x + 2 ^ (t.width - 1))
  | .fsgnj g t d a b => some (.of2 g t d a b fun x y =>
      x % 2 ^ (t.width - 1) + (if y.testBit (t.width - 1) then 2 ^ (t.width - 1) else 0))
  | .frcpe g t d a => some (.fp2 g t d a a fun x _ => fpRcpe t x)
  | .frsqe g t d a => some (.fp2 g t d a a fun x _ => fpRsqe t x)
  | .fclass g t d a => some (.of1 g t d a (fpClass (fmtOf t)))
  | .vcmp g t c d a b => some (.fp2 g t d a b fun x y =>
      if t.isInt then (if testInt c t.width x y then 2 ^ t.width - 1 else 0, Flags.none)
      else (if (fpTest (fmtOf t) (condToF c) x y).1 then 2 ^ t.width - 1 else 0, (fpTest (fmtOf t) (condToF c) x y).2))
  | _ => none

/-- The conversions over the conversion of one element; `fcvt.sr` stands by itself (R128, R129). -/
def convLanes (i : Instr) : Option LaneEffect :=
  match i with
  | .icvtf g t r u e d a => some (.conv g t e d a fun x =>
      (fmtOf t).round false r (Dyad.ofInt (if u then Int.ofNat x else signed e.width x)))
  | .fcvti g t r u e d a => some (.conv g t e d a fun x => fpToInt u t.width r ((fmtOf e).value x))
  | .fcvt g t r sr e d a =>
    if sr then none else some (.conv g t e d a fun x => (fmtOf t).convert false (.field r) ((fmtOf e).value x))
  | _ => none

/-- What R105 and R86 say a lane instruction does: rd takes a value whose lanes are the rule's, the flags that some lane
raises are set in PW and no other bit of PW changes, and PC advances by the instruction's length. -/
def LaneEffect.Holds (x : LaneEffect) (i : Instr) : Prop :=
  ∀ (s : State) (e : Env), s.env? = some e → (∀ g, x.guard = some g → e.line.guard g = true) →
    ∃ (r : Word) (f : Flags),
      exec i s = .next (s.put { e.commit s.cycle x.len x.d r with line := (e.commit s.cycle x.len x.d r).line.orFlags f }) ∧
      (∀ k, k < 64 / x.width → Machine.lane x.width r k = (x.lane e k).1 % 2 ^ x.width) ∧
      (f.nv = true ↔ ∃ k, k < 64 / x.width ∧ (x.lane e k).2.nv = true) ∧
      (f.dz = true ↔ ∃ k, k < 64 / x.width ∧ (x.lane e k).2.dz = true) ∧
      (f.of = true ↔ ∃ k, k < 64 / x.width ∧ (x.lane e k).2.of = true) ∧
      (f.uf = true ↔ ∃ k, k < 64 / x.width ∧ (x.lane e k).2.uf = true) ∧
      (f.nx = true ↔ ∃ k, k < 64 / x.width ∧ (x.lane e k).2.nx = true)

/-! ## Whole registers and predicates (R111, R113, R114, R116 to R119, R121, R126) -/

/-- What an instruction that writes one whole register does: its guard, if it has one, its length, its destination and the
value. -/
structure WordEffect where
  guard : Option Guard
  len : Nat
  d : Reg
  value : Env → Word

/-- SignExtend of an immediate (R11), as an integer modulo 2^64. -/
def immWord {n : Nat} (i : BitVec n) : Word := BitVec.ofInt 64 i.toInt

/-- The instructions that write a whole register, by R111, R113, R114, R118, R119, R121, R122 and R110 for `mov`. -/
def wordEffect (i : Instr) : Option WordEffect :=
  match i with
  | .mov g _ d a => some { guard := some g, len := 4, d := d, value := fun e => e.reg a }
  | .mov16 _ d r => some { guard := none, len := 2, d := d, value := fun e => e.reg r }
  | .addi g d a i => some { guard := some g, len := 4, d := d, value := fun e => e.reg a + immWord i }
  | .andi g d a i => some { guard := some g, len := 4, d := d, value := fun e => e.reg a &&& immWord i }
  | .ori g d a i => some { guard := some g, len := 4, d := d, value := fun e => e.reg a ||| immWord i }
  | .xori g d a i => some { guard := some g, len := 4, d := d, value := fun e => e.reg a ^^^ immWord i }
  | .movi d i w => some { guard := none, len := 4, d := d, value := fun _ => W (i.toNat * 2 ^ (16 * w.val)) }
  | .movk d i w => some { guard := none, len := 4, d := d, value := fun e => wput (e.reg d) (16 * w.val) 16 i.toNat }
  | .sext g t d a => some { guard := some g, len := 4, d := d, value := fun e => BitVec.ofInt 64 (signed t.width (lane t.width (e.reg a) 0)) }
  | .zext g t d a => some { guard := some g, len := 4, d := d, value := fun e => W (lane t.width (e.reg a) 0) }
  | .pget g d => some { guard := some g, len := 4, d := d, value := fun e => W ((e.line.pw.toNat % 2 ^ 16) ||| 1) }
  | .sel g d a b c => some { guard := some g, len := 4, d := d, value := fun e => if c.val = 0 ∨ e.line.pw.getLsbD c.val = true then e.reg a else e.reg b }
  | .lea g d a b h => some { guard := some g, len := 4, d := d, value := fun e => W ((e.reg a).toNat + (e.reg b).toNat * 2 ^ h.val) }
  | .vdot g t d a b => some
    { guard := some g, len := 4, d := d,
      value := fun e => e.reg d + BitVec.ofInt 64 (((List.range (64 / t.width)).map fun k =>
        signed t.width (lane t.width (e.reg a) k) * signed t.width (lane t.width (e.reg b) k)).sum) }
  | .vrsum g t d a => some
    { guard := some g, len := 4, d := d,
      value := fun e => BitVec.ofInt 64 (((List.range (64 / t.width)).map fun k => signed t.width (lane t.width (e.reg a) k)).sum) }
  | .vsel g _ d a b => some { guard := some g, len := 4, d := d, value := fun e => (e.reg a &&& e.reg d) ||| (e.reg b &&& ~~~ e.reg d) }
  | .vmsk g t d a => some
    { guard := some g, len := 4, d := d,
      value := fun e => W (packNat 1 ((List.range (64 / t.width)).map fun k => lane t.width (e.reg a) k / 2 ^ (t.width - 1))) }
  | .widF g k d => some
    { guard := some g, len := 4, d := d,
      value := fun e => W (e.line.wid.toNat / 2 ^ ((e.kslot.widths.drop k.val).sum) % 2 ^ (e.kslot.widths.getD (k.val - 1) 0)) }
  | .hinfo h d => some { guard := none, len := 4, d := d, value := fun e => handleInfo (e.kslot.handle h.val) }
  | _ => none

/-- What an instruction that writes predicates does: its guard, and PW afterwards. -/
def predEffect (i : Instr) : Option (Guard × (Env → BitVec 32)) :=
  let bit (e : Env) (p : Pred) : Bool := p.val == 0 || e.line.pw.getLsbD p.val
  let set (e : Env) (p : Pred) (b : Bool) : BitVec 32 :=
    if p.val = 0 then e.line.pw else BitVec.ofNat 32 (e.line.pw.toNat - b2n (e.line.pw.getLsbD p.val) * 2 ^ p.val + b2n b * 2 ^ p.val)
  match i with
  | .cmp g t c p a b => some (g, fun e => set e p (testInt c t.width (lane t.width (e.reg a) 0) (lane t.width (e.reg b) 0)))
  | .cmpi g c p a i => some (g, fun e => set e p (testInt c 64 (e.reg a).toNat (immWord i).toNat))
  | .fcmp g t c p a b => some (g, fun e =>
      set e p (fpTest (fmtOf t) c (lane t.width (e.reg a) 0) (lane t.width (e.reg b) 0)).1 |||
        (fpTest (fmtOf t) c (lane t.width (e.reg a) 0) (lane t.width (e.reg b) 0)).2.bits)
  | .pand g d a b => some (g, fun e => set e d (bit e a && bit e b))
  | .por g d a b => some (g, fun e => set e d (bit e a || bit e b))
  | .pxor g d a b => some (g, fun e => set e d (bit e a != bit e b))
  | .pandn g d a b => some (g, fun e => set e d (bit e a && !bit e b))
  | .pput g a => some (g, fun e => BitVec.ofNat 32
      (e.line.pw.toNat / 2 ^ 16 * 2 ^ 16 + (e.reg a).toNat / 2 % 2 ^ 15 * 2 + e.line.pw.toNat % 2))
  | _ => none

/-- The barrier that a number names for a context: its kernel's share begins at the base (R329). -/
def Env.barAt (e : Env) (j : BNum) : Bar := e.core.bar (e.kslot.barBase + j.val)

/-- The barrier is within the kernel's share and ACTIVE (R329, R337). -/
def Env.ActiveBar (e : Env) (j : BNum) : Prop := j.val < e.kslot.barShare ∧ (e.barAt j).state = 1

/-- A long instruction of R115 and R124: its guard, its destination, and the value and flags of each lane of its result. -/
def longLanes (i : Instr) : Option LaneEffect :=
  let q (sgn rem : Bool) (w x y : Nat) : Nat :=
    if y = 0 then (if rem then x else 2 ^ w - 1)
    else if sgn then
      if signed w x = -(2 ^ (w - 1)) ∧ signed w y = -1 then (if rem then 0 else x)
      else if rem then wrap w (Int.tmod (signed w x) (signed w y)) else wrap w (Int.tdiv (signed w x) (signed w y))
    else if rem then x % y else x / y
  match i with
  | .div g t d a b => some (.of2 g t d a b (q true false t.width))
  | .divu g t d a b => some (.of2 g t d a b (q false false t.width))
  | .rem g t d a b => some (.of2 g t d a b (q true true t.width))
  | .remu g t d a b => some (.of2 g t d a b (q false true t.width))
  | .fdiv g t r d a b => some (.fp2 g t d a b (fpDiv (fmtOf t) r))
  | .fsqrt g t r d a => some (.fp2 g t d a a fun x _ => fpSqrt (fmtOf t) r x)
  | _ => none

/-! ## Requests and waits (R135, R139, R143 to R168, R176, R258, R269, R313, R323, R337) -/

/-- An address that passes the checks of R135 for an access of `n` bytes: canonical, and a multiple of `n`. -/
abbrev goodAddr (a : Word) (n : Nat) : Prop := a.toNat < 2 ^ 54 ∧ a.toNat % n = 0

/-- Bytes of an access size (R42). -/
def bytesOf (z : MSize) : Nat := match z with | .b => 1 | .h => 2 | .w => 4 | .d => 8 | .q => 16

/-- The destination of a load: rd, or the pair rd and rd + 1 for 16 bytes (R143). -/
def destOf (z : MSize) (x : Bool) (d : Reg) : LdDst := match z with | .q => .pair d | .b | .h | .w | .d => .reg d (bytesOf z) x

/-- The bytes a store takes from a register, lowest first, or from a pair for 16 bytes (R143). -/
def bytesFrom (e : Env) (z : MSize) (r : Reg) : List Byte :=
  match z with
  | .q => leBytes 8 (e.reg r).toNat ++ leBytes 8 (e.reg (r + 1)).toNat
  | .b | .h | .w | .d => leBytes (bytesOf z) (e.reg r).toNat

/-- An atomic: its operation, type, order, scope, result register if it has one, address register and source (R150). -/
def atomicOf (i : Instr) : Option (AmoOp × AmoType × Order × Scope × Option Reg × Reg × Reg) :=
  match i with
  | .amoAdd y o sc d a b => some (.add, y, o, sc, some d, a, b)
  | .amoAnd y o sc d a b => some (.and, y, o, sc, some d, a, b)
  | .amoOr y o sc d a b => some (.or, y, o, sc, some d, a, b)
  | .amoXor y o sc d a b => some (.xor, y, o, sc, some d, a, b)
  | .amoMin y o sc d a b => some (.min, y, o, sc, some d, a, b)
  | .amoMax y o sc d a b => some (.max, y, o, sc, some d, a, b)
  | .amoMinu y o sc d a b => some (.minu, y, o, sc, some d, a, b)
  | .amoMaxu y o sc d a b => some (.maxu, y, o, sc, some d, a, b)
  | .amoSwap y o sc d a b => some (.swap, y, o, sc, some d, a, b)
  | .amoCas y o sc d a b => some (.cas, y, o, sc, some d, a, b)
  | .amoFadd y o sc d a b => some (.fadd, y, o, sc, some d, a, b)
  | .amoFmin y o sc d a b => some (.fmin, y, o, sc, some d, a, b)
  | .amoFmax y o sc d a b => some (.fmax, y, o, sc, some d, a, b)
  | .amoCas128 o sc d a b => some (.cas, .i128, o, sc, some d, a, b)
  | .redAdd y o sc a b => some (.add, y, o, sc, none, a, b)
  | .redAnd y o sc a b => some (.and, y, o, sc, none, a, b)
  | .redOr y o sc a b => some (.or, y, o, sc, none, a, b)
  | .redXor y o sc a b => some (.xor, y, o, sc, none, a, b)
  | .redMin y o sc a b => some (.min, y, o, sc, none, a, b)
  | .redMax y o sc a b => some (.max, y, o, sc, none, a, b)
  | .redMinu y o sc a b => some (.minu, y, o, sc, none, a, b)
  | .redMaxu y o sc a b => some (.maxu, y, o, sc, none, a, b)
  | .redFadd y o sc a b => some (.fadd, y, o, sc, none, a, b)
  | .redFmin y o sc a b => some (.fmin, y, o, sc, none, a, b)
  | .redFmax y o sc a b => some (.fmax, y, o, sc, none, a, b)
  | _ => none

/-- The bytes an atomic type takes (R150). -/
def atomicBytes (y : AmoType) : Nat :=
  match y with
  | .bf16 => 2
  | .i32 | .f32 | .bf16x2 => 4
  | .i64 | .f64 | .f32x2 => 8
  | .i128 => 16

/-- The request of an atomic: source and comparand from the registers, pairs for 16 bytes (R150), and whether the core's
predictor asks for ownership (R153). -/
def atomicReq (e : Env) (own : Bool) (x : AmoOp × AmoType × Order × Scope × Option Reg × Reg × Reg) : ReqKind :=
  match x with
  | (op, y, o, sc, d, _, b) =>
    let wide (r : Reg) : Nat := if y = .i128 then (e.reg r).toNat + 2 ^ 64 * (e.reg (r + 1)).toNat else (e.reg r).toNat
    .amo op y (wide b) ((d.map wide).getD 0) d o sc own

/-- The guard of an instruction that has one (R27). -/
def guardOf (i : Instr) : Option Guard :=
  match i with
  | .ld g _ _ _ _ _ | .st g _ _ _ _ | .migr g _ | .apnd g _ _ _ | .ldtail g _ _ | .qpop g _ _ | .qstat g _ _ | .wake g _ | .exit g
  | .trig g | .launch g _ | .gang g _ | .grun g _ _ | .fork g _ | .send g _ _ _ | .qpush g _ _ | .seal g _ | .rcommit g _ _ _
  | .mdrain g | .msemPost g _ | .resume g _ _ _ | .barArv g _ | .barArvb g _ _ | .barAw g _ | .dbar g _ | .barInit g _ _
  | .sync g | .apndh g _ _ _ => some g
  | _ => none

/-- The access of an instruction that sends a request as it issues and then waits for the answer: whether its checks pass, the
address, the wait kind and the request.  Atomics stand with `atomicOf`. -/
def requestOf (i : Instr) (s : State) (e : Env) : Option (Prop × Word × Nat × ReqKind) :=
  let early (o : Order) : Prop := o = .rlx ∨ o = .acq
  let cl := s.cl (clusterOf e.site)
  let typed (f : MemFmt) (t : LaneType) (a b : Reg) : Prop :=
    goodAddr (e.reg a) (typedBytes f t) ∧ (f = .fp4 → (scaleRec (wfld (e.reg b) 0 16)).rsv = 0) ∧
      ∀ n, captureNo f (e.reg b) = some n → cl.t3swap.contains n = false
  match i with
  | .ld _ z x d a k =>
    let ea := e.reg a + immWord k * W (bytesOf z)
    some (goodAddr ea (bytesOf z), ea, 1, .load (destOf z x d) (bytesOf z) .rlx .core)
  | .st _ z d a k =>
    let ea := e.reg a + immWord k * W (bytesOf z)
    some (goodAddr ea (bytesOf z), ea, 1, .store (bytesFrom e z d) .rlx .core)
  | .ldOrd z o sc d a => some (goodAddr (e.reg a) (bytesOf z) ∧ o ≠ .sc, e.reg a, 1, .load (destOf z false d) (bytesOf z) o sc)
  | .ldOrdSigned z o sc d a => some (goodAddr (e.reg a) (bytesOf z) ∧ o ≠ .sc, e.reg a, 1, .load (destOf z true d) (bytesOf z) o sc)
  | .stOrd z o sc a b => some (goodAddr (e.reg a) (bytesOf z) ∧ early o, e.reg a, 1, .store (bytesFrom e z b) o sc)
  | .ldt f t r d a b =>
    let no := captureNo f (e.reg b)
    some (typed f t a b, e.reg a, 1,
      .load (.typed d f t r (wfld (e.reg b) 0 16) (cl.table (no.getD 0)) no) (typedBytes f t) .rlx .core)
  | .stt f t r sr d a b =>
    let no := captureNo f (e.reg b)
    some (typed f t a b, e.reg a, 1, .stt f t r sr (wfld (e.reg b) 0 16) (cl.table (no.getD 0)) no (e.reg d))
  | .ldrW d a => some (goodAddr (e.reg a) 8, e.reg a, 3, .ldrw d)
  | .cln sc a => some (goodAddr (e.reg a) 1, e.reg a, 1, .cln sc)
  | .cinv a => some (goodAddr (e.reg a) 1, e.reg a, 1, .cinv)
  | .iinv a => some (goodAddr (e.reg a) 1, e.reg a, 1, .iinv)
  | .migr _ a => some (goodAddr (e.reg a) 1, e.reg a, 1, .migr)
  | .apnd _ d a b => some (goodAddr (e.reg a) 1, e.reg a, 1, .apnd (leBytes 8 (e.reg b).toNat) d)
  | .ldtail _ d a => some (goodAddr (e.reg a) 1, e.reg a, 1, .ldtail d)
  | .qpop _ a d => some (goodAddr (e.reg a) 64, e.reg a, 1, .qpop d)
  | .qstat _ a d => some (goodAddr (e.reg a) 64, e.reg a, 1, .qstat d)
  | .hdef h a => some (goodAddr (e.reg a) 32 ∧ (∀ x, e.kslot.handle h.val = some x → x.st = .undef ∨ x.st = .open_), e.reg a, 1,
      .load (.hdef h.val) 32 .rlx .core)
  | .wenq sc h a b => (e.kslot.handle h.val).map fun x =>
      (goodAddr (e.reg a) 8 ∧ x.st ≠ .stash ∧ x.rows * x.rowBytes % 8 = 0 ∧ 8 ≤ x.rows * x.rowBytes ∧ x.rows * x.rowBytes ≤ 256,
        e.reg a, 1, .wenq (e.core.payload e.ks x) sc (e.reg b).toNat)
  | .sync _ => some (e.line.link ≠ 0#64 ∧ goodAddr e.line.link 8, e.line.link, 1, .sync)
  | .hmap h a => some (goodAddr (e.reg a) 32 ∧ e.kslot.handle h.val = none, e.reg a, 1, .load (.hmap h.val) 32 .rlx .core)
  | _ => none

/-- The scopes at which a visitor copy matters (R163, R236): dev, sys and rec. -/
def wideScope (sc : Scope) : Bool := match sc with | .dev | .sys | .recov => true | .core | .clu | .die => false

/-- PWC = 0, and for scope rec PDC = 0 too (R147, R163). -/
def released (sc : Scope) : List WaitFor := match sc with | .recov => [.pwc, .pdc] | .core | .clu | .die | .dev | .sys => [.pwc]

/-- The outstanding operations of a core or context that a drain names (R164). -/
def opIds (s : State) (p : OpInfo → Bool) : List Nat := (s.ops.filter fun o => p o.2).map (·.1)

/-- An instruction that commits and then waits at its core before it acts: whether its checks pass, the wait kind, the
conditions and the action. -/
def waitOf (i : Instr) (s : State) (e : Env) : Option (Prop × Nat × List WaitFor × After) :=
  let late (o : Order) : Prop := o = .rel ∨ o = .sc
  match i with
  | .fence o sc =>
    let cs : List WaitFor := match o with
      | .rlx => []
      | .acq => if wideScope sc then [.invals (dieOf e.site) e.line.lastReply] else []
      | .rel => released sc
      | .sc => released sc ++ (if wideScope sc then [.noInvals (dieOf e.site)] else [])
    some (True, 1, cs, .go)
  | .drainTs => some (True, 1, [.ops (opIds s fun o => o.cls == .ts && o.site == e.site)], .go)
  | .drainGm => some (True, 1, [.ops (opIds s fun o => o.cls == .gm && o.site == e.site)], .go)
  | .drainMx => some (True, 1, [.ops (opIds s fun o => o.cls == .mx && o.key == e.key && o.site == e.site)], .go)
  | .ldOrd z o sc d a =>
    some (goodAddr (e.reg a) (bytesOf z) ∧ o = .sc, 1, [.pwc], .send (e.reg a).toNat (.load (destOf z false d) (bytesOf z) o sc))
  | .ldOrdSigned z o sc d a =>
    some (goodAddr (e.reg a) (bytesOf z) ∧ o = .sc, 1, [.pwc], .send (e.reg a).toNat (.load (destOf z true d) (bytesOf z) o sc))
  | .stOrd z o sc a b =>
    some (goodAddr (e.reg a) (bytesOf z) ∧ late o, 1, released sc, .send (e.reg a).toNat (.store (bytesFrom e z b) o sc))
  | .stc a b => some (goodAddr (e.reg a) 8, 1, [.pwc], .send (e.reg a).toNat (.stc (e.reg b)))
  | .wake _ a => some ((e.reg a).toNat < 2 ^ 47, 1, [.pwc], .send ((e.reg a).toNat * 128) .wake)
  | .exit _ => some (True, 1, [.unheld, .pwc, .ops (opIds s fun o => o.cls == .gm && !o.copy && o.key == e.key)], .exit)
  | .trig _ => some (True, 1, [.pwc], .trig)
  | .launch _ a => some (goodAddr (e.reg a) 256, 1, [.pwc], .send (e.reg a).toNat .launch)
  | .gang _ a => some (goodAddr (e.reg a) 64, 1, [.pwc], .send (e.reg a).toNat .gang)
  | .grun _ a b => some (goodAddr (e.reg a) 64 ∧ goodAddr (e.reg b) 8, 1, [.pwc], .send (e.reg a).toNat (.grun (e.reg b).toNat))
  | .send _ k a b =>
    some ((e.reg a).toNat < 2 ^ 47, 1, [.pwc], .send ((e.reg a).toNat * 128 + 128)
      (.send ((List.range (k.val + 1)).flatMap fun j => leBytes 8 (e.reg (b + Fin.ofNat 16 j)).toNat)))
  | .qpush _ a b => some (goodAddr (e.reg a) 64, 1, [.pwc], .send (e.reg a).toNat (.qpush (e.reg b)))
  | .seal _ a => some (goodAddr (e.reg a) 1, 1, [.pwc], .send (e.reg a).toNat .seal)
  | .rcommit _ st a b =>
    some (goodAddr (e.reg a) 32 ∧ (e.reg b).toNat % 64 = 0 ∧
      (∀ k, (s.part e.line.part).kernel? e.line.kid = some k → k.hdr.rse = true → k.hdr.rs = st.val), 1, [.pwc, .pdc],
      .send (e.reg a).toNat (.rcommit st.val (e.reg b)))
  | .msemPost _ n => some (True, 1, [.pwc], .semPost n.val)
  | .mdrain _ =>
    let sent (id : Nat) : Bool := s.net.any fun y => match y.body with
      | .matReq o => o.id == id
      | _ => false
    some (True, 9, [.ops ((opIds s fun o => o.cls == .mx && o.cl == clusterOf e.site).filter fun id => !sent id)], .go)
  | .resume _ m a b =>
    some (1 ≤ e.line.priv ∧ (m = .handler → goodAddr (e.reg b) 2) ∧ (e.reg a).toNat < 2 ^ 47, 1, [.pwc],
      .send ((e.reg a).toNat * 128) (.resume m (e.reg b)))
  | .hseal h =>
    some ((∃ x, e.kslot.handle h.val = some x ∧ x.st = .open_), 9,
      [.ops (opIds s fun o => o.site == e.site && o.dest == some (e.ks, h.val))], .handle h.val none 2)
  | .hopen h => some ((∃ x, e.kslot.handle h.val = some x ∧ x.st = .sealed_), 9, [.refs e.site e.ks h.val], .handle h.val none 1)
  | .hunmap h =>
    some ((∃ x, e.kslot.handle h.val = some x ∧ x.st ≠ .stash), 9,
      [.refs e.site e.ks h.val, .ops (opIds s fun o => o.site == e.site && o.dest == some (e.ks, h.val))], .handle h.val none 0)
  | .mcfg m a =>
    some (goodAddr (e.reg a) 32 ∧ e.line.mx = true ∧ (s.cl (clusterOf e.site)).macroOff = false, 1, [.pwc],
      .send (e.reg a).toNat (.load (.mcfg m.val) 32 .rlx .core))
  | .barArv _ j => some (e.ActiveBar j, 1, [.pwc], .arrive { b := j.val, arrivals := 1, bytes := 0, waits := false, group := false })
  | .barArvb _ j a =>
    some (e.ActiveBar j ∧ (e.reg a).toNat < 2 ^ 32, 1, [.pwc],
      .arrive { b := j.val, arrivals := 0, bytes := (e.reg a).toNat, waits := false, group := false })
  | .barAw _ j =>
    some (e.ActiveBar j ∧ (e.barAt j).group = false ∧ ¬ (e.line.ap = true ∧ e.line.abar = j.val), 1, [.pwc],
      .arrive { b := j.val, arrivals := 1, bytes := 0, waits := true, group := false })
  | .dbar _ j =>
    some (e.ActiveBar j ∧ (e.barAt j).group = true ∧ ¬ (e.line.ap = true ∧ e.line.abar = j.val), 1, [.pwc],
      .arrive { b := j.val, arrivals := 1, bytes := 0, waits := true, group := true })
  | .fork _ off =>
    some ((e.line.pc + immWord off * 2#64).toNat < 2 ^ 54, 1,
      [.pwc, .contRoom (clusterOf e.site) (contLevel e.line.prio)],
      .send ((((s.part e.line.part).kernel? e.line.kid).map (·.hdr.framebase)).getD 0)
        (.fork (e.line.pc + immWord off * 2#64) ((List.range 4).map fun j => e.line.v.getD j 0#64)))
  | _ => none

/-- A context whose accesses meet neither the check-hold buffer, nor a STASH handle, nor a line that its core owns (R141,
R153, R179). -/
def Env.Plain (e : Env) : Prop :=
  e.line.held = false ∧ e.core.owned = [] ∧ ∀ va, e.core.stashHandle e.line.asid va = none

/-- An access that its home can perform at once: none from its slice to the line stands before it, every edge and port on its way
carries traffic, no state of an append page refuses it before, and nothing holds it at the line (R70, R226, R260, R350, R351, R361
to R364). -/
def State.Arrives (s : State) (m sl : Nat) (a : Acc) : Prop :=
  s.accMsg? m = some (sl, a) ∧ s.accWaits sl a = false ∧ s.accUnreached sl a = none ∧ s.headerRefused a = none ∧ s.gate m a = .pass

/-- A request that its translation slice can take at once: none of its context stands before it, and every edge on its way carries
traffic (R226, R350, R351). -/
def State.Reaches (s : State) (m sl : Nat) (w : Who) (va : Nat) (k : ReqKind) (tok : Nat) : Prop :=
  (∃ x, s.reqMsg? m = some x ∧ x.dst = .slice sl ∧ x.body = .req w va k tok false) ∧
    s.pathWaits (dieOf w.site) (dieOfCl sl) = false ∧ s.unreached (dieOf w.site) sl = none

/-- Every request held at a queue is of a kind that a queue holds: a `wenq`, a `send`, a fault message, or the entry of an accepted
`wenq` (R161, R315, R316). -/
def State.HeldKinds (s : State) (g : Nat) : Prop :=
  ∀ h ∈ tgetD s.heldQ g [], h.entry.isSome = true ∨ h.msg.isSome = true ∨ (∃ p sc q, h.k = .wenq p sc q) ∨ ∃ b, h.k = .send b

/-- An access that R135 checks: the effective address, its bytes and the KIND of its faults (R366). -/
def checkedOf (i : Instr) (e : Env) : Option (Word × Nat × Nat) :=
  match i with
  | .ld _ z _ _ a k => some (e.reg a + immWord k * W (bytesOf z), bytesOf z, 2)
  | .st _ z _ a k => some (e.reg a + immWord k * W (bytesOf z), bytesOf z, 3)
  | .ldOrd z _ _ _ a | .ldOrdSigned z _ _ _ a => some (e.reg a, bytesOf z, 2)
  | .stOrd z _ _ a _ => some (e.reg a, bytesOf z, 3)
  | .ldrW _ a | .stc a _ | .rcancel a => some (e.reg a, 8, 5)
  | .hdef _ a | .hmap _ a => some (e.reg a, 32, 2)
  | .launch _ a => some (e.reg a, 256, 2)
  | .gang _ a => some (e.reg a, 64, 2)
  | .qpush _ a _ | .qpop _ a _ | .qstat _ a _ => some (e.reg a, 64, 9)
  | .rcommit _ _ a _ => some (e.reg a, 32, 3)
  | i => (atomicOf i).map fun x => (e.reg x.2.2.2.2.2.1, atomicBytes x.2.1, 4)

/-! ## Control transfers (R131, R132) -/

/-- A transfer: its guard, whether a register names the target, where it goes, and the register it writes. -/
structure Transfer where
  guard : Guard
  byReg : Bool
  target : Word
  write : Option (Reg × Word)

/-- The transfers by R131 and R132: offsets count halfwords from the PC of the transfer; `dbnz` falls through when its count
reaches 0. -/
def transferOf (i : Instr) (e : Env) : Option Transfer :=
  let pc := e.line.pc
  match i with
  | .br g off => some { guard := g, byReg := false, target := pc + BitVec.ofInt 64 (2 * off.toInt), write := none }
  | .call g d off => some { guard := g, byReg := false, target := pc + BitVec.ofInt 64 (2 * off.toInt), write := some (d, pc + 4#64) }
  | .dbnz g d off => some
    { guard := g, byReg := false, write := some (d, e.reg d - 1#64),
      target := if e.reg d = 1#64 then pc + 4#64 else pc + BitVec.ofInt 64 (2 * off.toInt) }
  | .jmp g a => some { guard := g, byReg := true, target := e.reg a, write := none }
  | .jal g d a => some { guard := g, byReg := true, target := e.reg a, write := some (d, pc + 4#64) }
  | .ret g a => some { guard := g, byReg := true, target := e.reg a, write := none }
  | .brx g a b => some { guard := g, byReg := true, target := e.reg a + 2#64 * e.reg b, write := none }
  | _ => none

/-- The context after a transfer's register write. -/
def Transfer.written (x : Transfer) (s : State) (e : Env) : Env :=
  match x.write with
  | some (d, v) => e.setReg s.cycle d v
  | none => e

/-! ## System registers (R48, R383) -/

/-- The rows of the tables of R48 and R383: the first and last number, the privilege that a read needs and the one that a
write needs, none for a register that nobody writes; 0 is user, 1 service, 2 supervisor. -/
def sysRows : List (Nat × Nat × Nat × Option Nat) :=
  [(0x000, 0x002, 0, none), (0x003, 0x003, 0, none), (0x004, 0x006, 0, none), (0x007, 0x007, 0, some 0), (0x008, 0x008, 1, some 2),
   (0x010, 0x017, 1, some 2), (0x020, 0x027, 0, some 0), (0x100, 0x105, 2, some 2), (0x108, 0x10B, 2, some 2), (0x110, 0x110, 1, some 1),
   (0x111, 0x111, 1, none), (0x112, 0x112, 1, some 1), (0x113, 0x114, 1, none), (0x118, 0x118, 1, some 1), (0x120, 0x120, 1, none),
   (0x121, 0x121, 2, some 2), (0x122, 0x123, 2, some 2), (0x125, 0x125, 2, none)]

/-- The row of a register's number: the privileges of a read and of a write. -/
def sysRow (n : Nat) : Option (Nat × Option Nat) :=
  (sysRows.find? fun r => decide (r.1 ≤ n) && decide (n ≤ r.2.1)).map fun r => (r.2.2.1, r.2.2.2)

/-- The guards of the instructions that the tables above leave out.  `resume`, `halt` and `xinv`, and the accesses of system
registers, have one here in a context that may run them: privilege is checked before the guard (R52). -/
def guardOfRest (i : Instr) (e : Env) : Option Guard :=
  match i with
  | .padd g _ _ _ | .yield g | .park g | .barExp g _ _ | .barWait g _ _ | .barTest g _ _ | .barInv g _ | .rmark g _ _ | .trap g _
  | .ebrk g | .trc g _ | .msemWait g _ | .fcvt g _ _ _ _ _ _ => some g
  | .resume g _ _ _ => if 1 ≤ e.line.priv then some g else none
  | .halt g | .xinv g _ _ => if 2 ≤ e.line.priv then some g else none
  | .mfs g n _ => if (sysRow n.toNat).any fun r => decide (r.1 ≤ e.line.priv) then some g else none
  | .mts g n _ => if ((sysRow n.toNat).bind (·.2)).any fun p => decide (p ≤ e.line.priv) then some g else none
  | _ => none

/-- The core's predictor asks for ownership of an atomic's line at the values 0 and 1 of its counter (R153). -/
def asksOwner (e : Env) (ea : Word) : Bool := decide (tgetD e.core.pred (predIdx e.line.asid ea.toNat) 0 ≤ 1)

/-! ## Operations of the engines (R184, R185, R190, R194, R205) -/

/-- The operands of a copy by its form (R185). -/
def copyOf (i : Instr) (e : Env) : Option CopyArgs :=
  match i with
  | .cpyG2t sc h a b => some { op := .g2t, sc := sc, h := h.val, hA := 0, ra := some (e.reg a), rd := none, b := b }
  | .cpyT2g sc h a b => some { op := .t2g, sc := sc, h := h.val, hA := 0, ra := some (e.reg a), rd := none, b := b }
  | .cpyT2t sc h x b => some { op := .t2t, sc := sc, h := h.val, hA := x.val, ra := none, rd := none, b := b }
  | .cpyG2g sc d a b => some { op := .g2g, sc := sc, h := 0, hA := 0, ra := some (e.reg a), rd := some (e.reg d), b := b }
  | .cpyG2q sc q a b => some { op := .g2q, sc := sc, h := q.val, hA := 0, ra := some (e.reg a), rd := none, b := b }
  | .cpyGat sc h a b => some { op := .gat, sc := sc, h := h.val, hA := 0, ra := some (e.reg a), rd := none, b := b }
  | .cpySca sc h a b => some { op := .sca, sc := sc, h := h.val, hA := 0, ra := some (e.reg a), rd := none, b := b }
  | _ => none

/-- The checks of R190 pass: the handles give a shape and an alignment, the addresses are canonical and aligned to it, the
index handle fits, the option word has no error, every receiver hosts the kernel, the pitch is aligned, and the completion
word's address is good. -/
def copyPasses (s : State) (e : Env) (x : CopyArgs) (shape : Handle) (align : Nat) : Prop :=
  let o := e.reg x.b
  let mask := optMask o
  copyHandles e x (decide (mask = 0) || mask.testBit (localIdx e.site)) = .ok (shape, align) ∧
  (∀ v, x.ra = some v ∨ x.rd = some v → goodAddr v align) ∧ copyIndex e x shape.rows = none ∧
  optBad x.op o (decide (x.b.val % 2 = 1)) e.kslot.barShare = false ∧
  (x.op.casts = true → ∀ c ∈ maskSites (clusterOf e.site) mask,
    s.enabled c = true ∧ ((s.core c).slotOf e.line.part e.line.kid).isSome = true) ∧
  (x.op.pitched = true → optPitch o % align = 0) ∧ (optCw o = true → goodAddr (e.reg (x.b + 1)) 8)

/-- The operands of a tile vector instruction: kind, hD, hA, hB, rounding field, `.sr`, and the operator and axis of `tv.red`. -/
def tileOf (i : Instr) : Option (TvKind × HNum × HNum × HNum × Round × Bool × RedOp × Bool) :=
  match i with
  | .tvAdd r d a b => some (.add, d, a, b, r, false, .add, false)
  | .tvSub r d a b => some (.sub, d, a, b, r, false, .add, false)
  | .tvMul r d a b => some (.mul, d, a, b, r, false, .add, false)
  | .tvFma r d a b => some (.fma, d, a, b, r, false, .add, false)
  | .tvMin r d a b => some (.min, d, a, b, r, false, .add, false)
  | .tvMax r d a b => some (.max, d, a, b, r, false, .add, false)
  | .tvAbs d a => some (.abs, d, a, 0, .rne, false, .add, false)
  | .tvExp2 d a => some (.exp2, d, a, 0, .rne, false, .add, false)
  | .tvRcp d a => some (.rcp, d, a, 0, .rne, false, .add, false)
  | .tvCvt r sr d a => some (.cvt, d, a, 0, r, sr, .add, false)
  | .tvRed ro all d a => some (.red, d, a, 0, .rne, false, ro, all)
  | .tvBcast d a => some (.bcast, d, a, 0, .rne, false, .add, false)
  | .tvTrans d a => some (.trans, d, a, 0, .rne, false, .add, false)
  | .tvSel d a b => some (.sel, d, a, b, .rne, false, .add, false)
  | .tvScale d a b => some (.scale, d, a, b, .rne, false, .add, false)
  | _ => none

/-- The instructions that need TSW.MX (R205). -/
def isMx (i : Instr) : Bool :=
  match i with
  | .mcfg _ _ | .mloadb _ _ | .mmac _ _ _ _ | .mmacs _ _ _ _ | .mepi _ _ _ _ | .ctswap _ => true
  | _ => false

/-- A matrix instruction passes its checks, with the operation that leaves and the type 3 table it captures (R205, R210, R211,
R213, R214): the slot holds a record, the resident B matches it, the option word has no error, and every handle is OPEN or
SEALED (a destination OPEN) with the format, columns and rows that the record asks for. -/
def matPasses (i : Instr) (s : State) (e : Env) (k : MatKind) (no : Option Nat) : Prop :=
  let cl := s.cl (clusterOf e.site)
  let fits (h : HNum) (dest : Bool) (fmt cols rows : Nat) (x : Handle) : Prop :=
    e.kslot.handle h.val = some x ∧ (x.st = .open_ ∨ (dest = false ∧ x.st = .sealed_)) ∧ x.fmt = fmt ∧ x.cols = cols ∧ rows ≤ x.rows
  match i with
  | .ctswap t => cl.t3swap.contains t.val = false ∧ k = .ctswap t.val ∧ no = none
  | .mloadb m ha => ∃ c x, s.slotCfg e m.val = some c ∧
      fits ha false (fmtOfMat c.bfmt) (if c.mode = 1 then c.kk * c.spn / 48 else c.kk) c.n x ∧ x.rows = c.n ∧
      k = .mloadb m.val x ∧ no = some (c.qt / 4 % 8)
  | .mmac m ha hd a | .mmacs m ha hd a => ∃ c x y sp, s.slotCfg e m.val = some c ∧ (sp = true ↔ i = .mmacs m ha hd a) ∧
      (sp = true ↔ c.mode = 1) ∧ cl.matView.2 = some (tagOf m.val c) ∧ matOptBad (e.reg a) = false ∧ wfld (e.reg a) 34 30 = 0 ∧
      fits ha false (fmtOfMat c.afmt) c.kk (matRow0 (e.reg a) + matRows (e.reg a)) x ∧
      fits hd true (if c.acc = 1 then 1 else 5) c.n (matRow0 (e.reg a) + matRows (e.reg a)) y ∧
      k = .mmac sp m.val hd.val x y (e.reg a) ∧ no = (if c.afmt = 3 then some (c.qt / 4 % 8) else none)
  | .mepi m ha hd a => ∃ c x y sc bi, s.slotCfg e m.val = some c ∧ hd ≠ ha ∧ matOptBad (e.reg a) = false ∧
      (e.reg a).getLsbD 28 = false ∧ wfld (e.reg a) 34 2 = 0 ∧ wfld (e.reg a) 37 3 < 6 ∧ (matG (e.reg a) = true → a.val % 2 = 0) ∧
      fits ha false (if c.acc = 1 then 1 else 5) c.n (matRow0 (e.reg a) + matRows (e.reg a)) x ∧
      fits hd true c.ofmt c.n (matRow0 (e.reg a) + matRows (e.reg a)) y ∧
      sideHandle e.kslot (decide (c.epi / 32 % 2 = 1)) c.sch c.n = .ok sc ∧ sideHandle e.kslot (decide (c.epi / 64 % 2 = 1)) c.bih c.n = .ok bi ∧
      (matG (e.reg a) = true → goodAddr (e.reg (a + 1)) y.eltBytes) ∧
      k = .mepi m.val ha.val hd.val x y sc bi (e.reg a) (if matG (e.reg a) then (e.reg (a + 1)).toNat else 0) ∧
      no = (if c.ofmt = 10 then some (c.qt / 4 % 8) else none)
  | _ => False

end Sys2Proof.Machine
end

