-- ==== Sys2Proof/Certificates/Slice0/Obligations.lean ====
section
/-! DEFINITION. The statements for the provers, one definition each; the helper definitions they use stand in Safety.lean. -/

open Sys2Proof Sys2Proof.Machine

/-- For every well-formed instruction that has an encoding, decoding the little-endian bytes of its encoding, whatever follows them in memory, gives the instruction with every operand. (R4, R25, R27, R28, spec/02_encoding.md) -/
def Obligations.EncodeDecodeRoundTrip : Prop :=
  ∀ (i : Instr) (rest : List Byte), i.wellFormed = true → i.isEvent = false →
    decodeBytes (leBytes i.length (encode i) ++ rest) = .ok i

/-- From every state whose memory is in canonical form (addresses strictly rising, no cell that holds the blank byte), a step that answers a next state leaves the memory in canonical form; and from every state whose context lines are listed by strictly rising keys, a step leaves them so. The blank byte 0 is the choice of log entry 1. (spec/01_device.md, spec/03_context.md, spec/06_isa_memory.md) -/
def Obligations.StepKeepsMemory : Prop :=
  ∀ (s t : State), step s = .next t → (s.MemOk → t.MemOk) ∧ (tsorted s.lines = true → tsorted t.lines = true)

/-- After reset the memory is in canonical form, the lines are listed by strictly rising keys, and every byte reads as the blank byte (the choice of log entry 1), every LFSR holds 1, every atomic predictor counter is 0, every quad selector is 0, `$ctqbase` and `$sasid` are 0, the package is one partition, and no context line is live. (R88, R94, R153, R321, R384, R428) -/
def Obligations.ResetRegisters : Prop :=
  State.reset.MemOk ∧ tsorted State.reset.lines = true ∧ (∀ a : Nat, State.reset.rdByte a = blankByte) ∧
  (∀ site, (State.reset.core site).lfsr = 1#32) ∧ (∀ site i, tgetD (State.reset.core site).pred i 0 = 0) ∧
  (∀ cl q, tgetD (State.reset.cl cl).t3sel q 0 = 0) ∧ (State.reset.part 0).ctqbase = 0#64 ∧ (State.reset.part 0).sasid = 0#64 ∧
  (∀ cl, cl < 256 → State.reset.partOfCl cl = 0) ∧ (∀ key, State.reset.line? key = none)

/-- With nothing scheduled, a powered package whose current core is active and has not issued in this cycle prepares the slot; if the slot then has a READY context that executes no EMULATE sequence, its fetch succeeds and no patch slot matches, the step is the execution of the decoded instruction, then the turn count, the waits that end and one issue cycle.  An instruction that uses the LFSR while an earlier `stt.sr` of the core still owes its steps waits (the model's choice, log entry 108). (R52, R64, R65) -/
def Obligations.StepRunsDecoded : Prop :=
  ∀ (s s1 t u : State) (e e1 : Env) (enc : BitVec 32) (len : Nat) (i : Instr),
    s.agenda = [] → s.reg.powered = true → s.reg.failed = false → (s.core s.cur).life = .active →
    (s.core s.cur).turnAt ≠ some s.cycle →
    s1 = (s.setCore s.cur { s.core s.cur with turnAt := some s.cycle }).slotPrepare s.cur s.slot → s1.env? = some e → e.run? = none →
    s1.fetch e = .ok (t, enc, len) → u = { t with fetched := enc, flen := len } → u.env? = some e1 →
    (u.part e1.line.part).encSlot enc len e1.line.priv = none → decodeWord enc.toNat = .ok i →
    u.lfsrHolds e1.site i = false →
    step s = match exec i u with
      | .next v => .next { (v.countTurn e1.site e1.slot e1.key).settle with cycle := s.cycle + 1 }
      | .fault f => .fault f
      | .refused r => .refused r

/-- When the instruction cache holds the line of an even canonical PC, a fetch changes nothing and gives the 16-bit encoding at PC if its bit 0 is 0, and the 32-bit encoding if it is 1 and the other half lies in the same line; the decoder reads the same instruction from the bytes. When an encoding decodes to no instruction, the turn raises ILL 0x00 with FADDR the PC, SIZE 0xF and KIND 0. (R25, R52, R365, R368) -/
def Obligations.FetchReadsCachedBytes : Prop :=
  (∀ (s : State) (e : Env) (w : Nat) (x : DecodeError), decodeWord w = .error x →
    s.decodeExec e w = .next (s.raise e { cls := 0x01, sub := 0x00, kind := 0, size := 0xF, faddr := e.line.pc })) ∧
  ∀ (s : State) (e : Env) (bs : List Byte) (o : Nat),
    e.line.pc.toNat % 2 = 0 → e.line.pc.toNat < 2 ^ 54 → o = e.line.pc.toNat % 64 → bs.length = 64 →
    tget (s.core e.site).icache (ikey e.line.asid e.line.pc.toNat) = some bs →
    (leField bs o 2 % 2 = 0 → s.fetch e = .ok (s, BitVec.ofNat 32 (leField bs o 2), 2) ∧
      decodeBytes (bs.drop o) = decodeWord (leField bs o 2)) ∧
    (leField bs o 2 % 2 = 1 → o ≤ 60 → s.fetch e = .ok (s, BitVec.ofNat 32 (leField bs o 4), 4) ∧
      decodeBytes (bs.drop o) = decodeWord (leField bs o 4))

/-- The words of the spec's worked examples, and words composed from the tables of chapter 02, decode to the instructions they stand for; the halfword 0x0000 and a word of the unassigned major 0x3F decode to nothing. (R30, R34, R52, R116, R120, spec/02_encoding.md) -/
def Obligations.DecodedWords : Prop :=
  decodeWord 0x6021101B = .ok (.adds ⟨false, 0⟩ .i8 1 1 2) ∧ decodeWord 0x12B14013 = .ok (.cmp ⟨false, 0⟩ .i32 .lt 4 1 11) ∧
  decodeWord 0xFFF21003 = .ok (.addi ⟨false, 0⟩ 1 2 0xFFF) ∧ decodeWord 0x00000001 = .ok (.add ⟨false, 0⟩ .i64 0 0 0) ∧
  (∃ x, decodeWord 0xFFFFFFFF = .error x) ∧ ∃ x, decodeWord 0x0000 = .error x

/-- The guard fields of a word are g in [10:7] and n in [11]; a guard holds exactly when p(g) xor n = 1, with p0 reading 1; and a guarded instruction whose guard fails changes nothing but PC, which advances by 4 (stated of every guarded instruction; of `mfs`, `mts`, `resume`, `halt` and `xinv` where the privilege check, which comes before the guard, passes). (R27) -/
def Obligations.GuardFails : Prop :=
  (∀ w : Nat, fGuard w = { n := w.testBit 11, p := Fin.ofNat 16 (w / 2 ^ 7 % 16) }) ∧
  (∀ (l : Line) (g : Guard), l.guard g = Bool.xor (g.p.val == 0 || l.pw.getLsbD g.p.val) g.n) ∧
  ∀ (i : Instr) (g : Guard) (s : State) (e : Env),
    (guardOf i = some g ∧ (∀ h m a b, i ≠ .resume h m a b)) ∨ guardOfRest i e = some g ∨
      (∃ x, (intLanes i = some x ∨ intLanes1 i = some x ∨ fpLanes i = some x ∨ convLanes i = some x ∨ longLanes i = some x) ∧ x.guard = some g) ∨
      (∃ x, wordEffect i = some x ∧ x.guard = some g) ∨ (∃ f, predEffect i = some (g, f)) ∨ (∃ x, transferOf i e = some x ∧ x.guard = g) →
    s.env? = some e → e.line.guard g = false →
    exec i s = .next (s.put { e with line := { e.line with pc := e.line.pc + 4#64 } })

/-- For each of add, sub, and, or, xor, shl, shr, sra, mul, mulh, mulhu, min, max, minu, maxu, adds, subs, addsu, subsu, avgu, absd and bext in every legal lane type: with the guard true the instruction completes, each lane of rd is the rule's function of the lanes of ra and rb, PC advances by 4, and no flag changes. (R110, R114, R120) -/
def Obligations.IntegerLanes : Prop :=
  ∀ (i : Instr) (x : LaneEffect), intLanes i = some x → i.wellFormed = true → x.Holds i

/-- For each of shli, shri, srai, rori, clz, ctz, popc, bswap, brev, neg, abs, vbcast, bins, vshuf, vpack, vunpkl and vunpkh in every legal form: with the guard true the instruction completes and each lane of rd is the rule's value; PC advances by 4 and no flag changes. (R112, R114, R120, R121) -/
def Obligations.IntegerLanesOfOne : Prop :=
  ∀ (i : Instr) (x : LaneEffect), intLanes1 i = some x → i.wellFormed = true → x.Holds i

/-- Each 16-bit lane instruction completes; each lane of rd is the 32-bit form's function of the lanes of rd and rs, floating-point forms rounding to nearest even and ORing their flags into PW; PC advances by 2. (R34, R130) -/
def Obligations.ShortForms : Prop :=
  ∀ (i : Instr) (x : LaneEffect), lanes16 i = some x → i.wellFormed = true → x.Holds i

/-- For each of fadd, fsub, fmul, fma, fms, fnma, fmin, fmax, fabs, fneg, fsgnj, frcpe, frsqe, fclass and vcmp: the instruction completes, each destination lane is the operation of one lane on the source lanes, and PW gains exactly the flags that some lane raises. (R86, R122, R123, R124, R127) -/
def Obligations.FpLanes : Prop :=
  ∀ (i : Instr) (x : LaneEffect), fpLanes i = some x → i.wellFormed = true → x.Holds i

/-- icvtf, fcvti and fcvt (without .sr) complete; with n = 64 / max of the two widths, destination lane i below n is the conversion of source lane i, destination lanes n and above are zero, and PW gains exactly the flags that some converted element raises. (R128) -/
def Obligations.Conversions : Prop :=
  ∀ (i : Instr) (x : LaneEffect), convLanes i = some x → i.wellFormed = true → x.Holds i

/-- For each of mov, mov.n, addi, andi, ori, xori, movi, movk, sext, zext, pget, sel, lea, vdot, vrsum, vsel, vmsk, wid.f and hinfo: the instruction completes with rd at the rule's value and PC advanced by its length, and changes nothing else. (R110, R111, R113, R114, R118, R119, R121, R122, R80, R182) -/
def Obligations.WholeRegisters : Prop :=
  ∀ (i : Instr) (x : WordEffect) (s : State) (e : Env), wordEffect i = some x → i.wellFormed = true → s.env? = some e →
    (∀ g, x.guard = some g → e.line.guard g = true) →
    exec i s = .next (s.put ((e.setReg s.cycle x.d (x.value e)).adv x.len))

/-- For each of cmp, cmpi, fcmp, pand, por, pxor, pandn and pput: the instruction completes with PW at the rule's value, a write of p0 discarded, PC advanced by 4, and only the core's trace buffer possibly changed beside the line; with the trace disabled nothing else changes. (R26, R116, R117, R118, R126, R378) -/
def Obligations.Predicates : Prop :=
  ∀ (i : Instr) (g : Guard) (f : Env → BitVec 32) (s : State) (e : Env), predEffect i = some (g, f) → i.wellFormed = true →
    s.Runs e g → ∃ tr : Trace,
      exec i s = .next (s.put { e with
        line := { e.line with pw := f e, pc := e.line.pc + 4#64 }, core := { e.core with trace := tr } }) ∧
      (e.core.trace.ctl.getLsbD 0 = false → tr = e.core.trace)

/-- For each of div, divu, rem, remu, fdiv and fsqrt in every legal lane type, with the guard true: the instruction completes with PC advanced by 4 and WT = 0x9000_0001, every register and PW still as before, and one message on its way to the line: the answer for rd, each lane of which is the rule's value of the source lanes, with each of the flags NV, DZ, OF, UF and NX that some lane raises and no other. (R106, R115, R124) -/
def Obligations.LongInstructions : Prop :=
  ∀ (i : Instr) (x : LaneEffect) (g : Guard) (s : State) (e : Env), longLanes i = some x → i.wellFormed = true →
    x.guard = some g → s.Runs e g → ∃ (t : State) (l : Line) (m : Msg) (r : Word) (f : Flags),
      exec i s = .next t ∧ t.line? e.key = some l ∧ l.pc = e.line.pc + 4#64 ∧ l.wt = 0x90000001#32 ∧ l.v = e.line.v ∧ l.pw = e.line.pw ∧
      (∀ q : Reg, t.regOf e q = s.regOf e q) ∧
      t.net = s.net ++ [m] ∧ m.dst = .line e.key ∧ m.body = .longDone (s.who e) x.d r f ∧
      (∀ k, k < 64 / x.width → lane x.width r k = (x.lane e k).1 % 2 ^ x.width) ∧
      (f.nv = true ↔ ∃ k, k < 64 / x.width ∧ (x.lane e k).2.nv = true) ∧
      (f.dz = true ↔ ∃ k, k < 64 / x.width ∧ (x.lane e k).2.dz = true) ∧
      (f.of = true ↔ ∃ k, k < 64 / x.width ∧ (x.lane e k).2.of = true) ∧
      (f.uf = true ↔ ∃ k, k < 64 / x.width ∧ (x.lane e k).2.uf = true) ∧
      (f.nx = true ↔ ∃ k, k < 64 / x.width ∧ (x.lane e k).2.nx = true)

/-- For every instruction of the lane, whole-register and predicate families that answers a next state: every register but rd is unchanged, PW is unchanged by the integer and whole-register families and its bits above 20 by all, WID, TSW, CAUSE, FADDR and LINK of the line, the lines of every other context, every partition register, the accumulators of every cluster, the LFSR and the messages are unchanged, and every byte of memory outside the context's own 128 bytes reads as before. (R26, R105, R108) -/
def Obligations.RegisterFrame : Prop :=
  ∀ (i : Instr) (s t : State) (e : Env) (d : Option Reg), s.env? = some e → exec i s = .next t →
    ((∃ x, (intLanes i = some x ∨ intLanes1 i = some x ∨ lanes16 i = some x ∨ fpLanes i = some x ∨ convLanes i = some x) ∧ d = some x.d) ∨
      (∃ x, wordEffect i = some x ∧ d = some x.d) ∨ (∃ g f, predEffect i = some (g, f) ∧ d = none)) →
    (∀ r : Reg, d ≠ some r → t.regOf e r = s.regOf e r) ∧
    ((∃ x, wordEffect i = some x) ∨ (∃ x, intLanes i = some x) ∨ (∃ x, intLanes1 i = some x) →
      (t.line? e.key).map (·.pw) = some e.line.pw) ∧
    (t.line? e.key).map (·.pw.toNat / 2 ^ 21) = some (e.line.pw.toNat / 2 ^ 21) ∧
    (t.line? e.key).map (fun l => (l.wid, l.tsw, l.cause, l.faddr, l.link, l.space, l.wt)) =
      some (e.line.wid, e.line.tsw, e.line.cause, e.line.faddr, e.line.link, e.line.space, e.line.wt) ∧
    (∀ key, key ≠ e.key → t.line? key = s.line? key) ∧ t.parts = s.parts ∧ t.clusters = s.clusters ∧
    (t.core e.site).lfsr = (s.core e.site).lfsr ∧ (∀ site, site ≠ e.site → t.core site = s.core site) ∧ t.net = s.net ∧
    (∀ a, a / 128 ≠ e.key → t.rdByte a = s.rdByte a)

/-- For lanes of 8, 16, 32 and 64 bits: division by zero gives all ones and the dividend; the most negative value by -1 gives that value and 0; every other signed division truncates towards zero, and its remainder is the dividend less the quotient times the divisor. (R82) -/
def Obligations.DivisionTruncates : Prop :=
  ∀ (t : LaneType) (x y : Nat), t.isInt = true → x < 2 ^ t.width → y < 2 ^ t.width →
    (∀ sg, y = 0 → divLane sg t.width x y = (2 ^ t.width - 1, x)) ∧
    (signed t.width x = -2 ^ (t.width - 1) → signed t.width y = -1 → divLane true t.width x y = (x, 0)) ∧
    (y ≠ 0 → ¬ (signed t.width x = -2 ^ (t.width - 1) ∧ signed t.width y = -1) →
      signed t.width (divLane true t.width x y).1 = Int.tdiv (signed t.width x) (signed t.width y) ∧
      signed t.width (divLane true t.width x y).2 =
        signed t.width x - Int.tdiv (signed t.width x) (signed t.width y) * signed t.width y) ∧
    (y ≠ 0 → divLane false t.width x y = (x / y, x % y))

/-- br, call, dbnz, jmp, jal, ret and brx with the guard true: a register target with bit 0 set raises ALIGN 0x01 and a target that is not canonical raises XLAT 0x01, each with FADDR the target and nothing committed; otherwise the transfer completes with PC at the target, the link or count register written, and nothing else changed but the core's trace buffer, which does not change while the trace is disabled. (R131, R132, R133, R378) -/
def Obligations.ControlTransfers : Prop :=
  ∀ (i : Instr) (x : Transfer) (s : State) (e : Env), transferOf i e = some x → s.Runs e x.guard →
    (x.byReg = true ∧ x.target.toNat % 2 = 1 →
      exec i s = .next (s.raise e { cls := 0x03, sub := 0x01, kind := 0, size := 0xF, faddr := x.target })) ∧
    (¬ (x.byReg = true ∧ x.target.toNat % 2 = 1) ∧ 2 ^ 54 ≤ x.target.toNat →
      exec i s = .next (s.raise e { cls := 0x04, sub := 0x01, kind := 0, size := 0xF, faddr := x.target })) ∧
    (¬ (x.byReg = true ∧ x.target.toNat % 2 = 1) ∧ x.target.toNat < 2 ^ 54 → ∃ tr : Trace,
      exec i s = .next (s.put { x.written s e with
        line := { (x.written s e).line with pc := x.target }, core := { (x.written s e).core with trace := tr } }) ∧
      (e.core.trace.ctl.getLsbD 0 = false → tr = e.core.trace))

/-- With the guard true, `padd` writes the sum when it is canonical and otherwise raises XLAT 0x01 with FADDR the sum; `trap` raises TRAP 0x00 with FADDR its code, KIND 0 and SIZE 0xF; `ebrk` raises BREAK 0x00 with FADDR its PC. (R119, R376) -/
def Obligations.PaddAndTraps : Prop :=
  ∀ (s : State) (e : Env) (g : Guard), s.Runs e g →
    (∀ d a b : Reg, (e.reg a + e.reg b).toNat < 2 ^ 54 →
      exec (.padd g d a b) s = .next (s.put ((e.setReg s.cycle d (e.reg a + e.reg b)).adv 4))) ∧
    (∀ d a b : Reg, 2 ^ 54 ≤ (e.reg a + e.reg b).toNat →
      exec (.padd g d a b) s = .next (s.raise e { cls := 0x04, sub := 0x01, kind := 0, size := 0xF, faddr := e.reg a + e.reg b })) ∧
    (∀ k : BitVec 12, exec (.trap g k) s = .next (s.raise e { cls := 0x0E, sub := 0, kind := 0, size := 0xF, faddr := W k.toNat })) ∧
    exec (.ebrk g) s = .next (s.raise e { cls := 0x0F, sub := 0, kind := 0, size := 0xF, faddr := e.line.pc })

/-- `fcvt.bf16.src.sr` completes: element j of rd is converted with the LFSR after j steps, the lanes above the converted elements are zero and take no step, the core keeps the LFSR after the last element, and PC advances by 4. A step of the LFSR shifts right, and when the bit shifted out is 1 xors 0x80200003; one that is not 0 never becomes 0; a write of 0 through `$srseed` gives 1 and any other write gives the low 32 bits. (R79, R88, R128, R129) -/
def Obligations.StochasticConversion : Prop :=
  (∀ x : BitVec 32, lfsrStep x = if x.getLsbD 0 then (x >>> 1) ^^^ 0x80200003#32 else x >>> 1) ∧
  (∀ x : BitVec 32, x ≠ 0#32 → lfsrStep x ≠ 0#32) ∧
  (∀ v : Word, seedOf v = if v.toNat % 2 ^ 32 = 0 then 1#32 else BitVec.ofNat 32 (v.toNat % 2 ^ 32)) ∧
  ∀ (s : State) (e : Env) (g : Guard) (y : LaneType) (d a : Reg) (n : Nat), s.Runs e g →
    (Instr.fcvt g .bf16 .rne true y d a).wellFormed = true → n = 64 / max 16 y.width → ∃ (r : Word) (f : Flags) (c : Env),
      c = { e with core := { e.core with lfsr := Nat.repeat lfsrStep n e.core.lfsr } } ∧
      exec (.fcvt g .bf16 .rne true y d a) s = .next (s.put
        { c.commit s.cycle 4 d r with line := (c.commit s.cycle 4 d r).line.orFlags f }) ∧
      ∀ k, k < 4 → lane 16 r k = if k < n then
          (fmtBF16.convert false (.sr (Nat.repeat lfsrStep k e.core.lfsr)) ((fmtOf y).value (lane y.width (e.reg a) k))).1 % 2 ^ 16
        else 0

/-- With the guard true: `park` with a wake token clears the token and goes on, an acquire of what was sent before, and without one parks with WT = 0x7000_0000, PC advanced by 4 either way; `yield` advances PC, and the slot gives the line up, READY with its ready stamp the present `$gtime`; `halt` of a supervisor leaves the core HALTED and, where the cluster's L2 has room for every line of its L1, advances PC and leaves each line of its L1 that is not LOST in that L2 and none in the L1; of a lower privilege it raises PRIV 0x00; `trc` advances PC and changes the trace alone, and while tracing is disabled not even that. (R65, R75, R376, R379) -/
def Obligations.YieldParkHaltTrace : Prop :=
  ∀ (s : State) (e : Env) (g : Guard), s.Runs e g →
    (e.line.wk = true → exec (.park g) s = .next (s.put
      { e with line := { e.line with pc := e.line.pc + 4#64, tsw := wput e.line.tsw 24 1 0, acqTo := s.nextId } })) ∧
    (e.line.wk = false → exec (.park g) s = .next (s.put
      { e with line := { e.line with pc := e.line.pc + 4#64, wt := 0x70000000#32, waitFrom := s.gtime } })) ∧
    (∃ t l, exec (.yield g) s = .next t ∧ t.line? e.key = some l ∧ l.pc = e.line.pc + 4#64 ∧ l.bound = none ∧ l.stamp = s.gtime ∧
      l.wt = e.line.wt ∧ l.pw = e.line.pw ∧ l.v = e.line.v ∧ tget (t.core e.site).bound e.slot = none) ∧
    (e.line.priv < 2 → exec (.halt g) s = .next (s.raise e { cls := 0x02, sub := 0, kind := 0, size := 0xF, faddr := e.line.pc })) ∧
    (2 ≤ e.line.priv → ∃ t, exec (.halt g) s = .next t ∧ (t.core e.site).life = .halted ∧
      (tsorted s.lines = true → (s.linesIn (.l2 (clusterOf e.site))).length + (s.linesIn (.l1 e.site)).length ≤ l2Size →
        (∃ l, t.line? e.key = some l ∧ l.pc = e.line.pc + 4#64) ∧ (∀ x ∈ t.lines, x.2.place ≠ .l1 e.site) ∧
        ∀ key x, s.line? key = some x → x.place = .l1 e.site → x.life ≠ .lost →
          ∃ y, t.line? key = some y ∧ y.place = .l2 (clusterOf e.site) ∧ y.wt = x.wt ∧ y.v = x.v)) ∧
    (∀ k : BitVec 12, ∃ tr : Trace, exec (.trc g k) s = .next (s.put
        { e with line := { e.line with pc := e.line.pc + 4#64 }, core := { e.core with trace := tr } }) ∧
      (e.core.trace.ctl.getLsbD 0 = false → tr = e.core.trace))

/-- `mfs` and `mts` of a number that R48 and R383 do not list raise ILL 0x00; a read above the privilege, and a write that is read-only at the writer's privilege, raise PRIV 0x01; a write of a type 3 table without TSW.MX raises MX 0x01 where the guard holds. (R48, R51, R79, R383) -/
def Obligations.SystemRegisterRights : Prop :=
  ∀ (s : State) (e : Env) (g : Guard) (n : BitVec 12) (d : Reg), s.env? = some e →
    (sysRow n.toNat = none → exec (.mfs g n d) s = .next (s.raise e { cls := 0x01, sub := 0, kind := 0, size := 0xF, faddr := e.line.pc }) ∧
      exec (.mts g n d) s = .next (s.raise e { cls := 0x01, sub := 0, kind := 0, size := 0xF, faddr := e.line.pc })) ∧
    (∀ r w, sysRow n.toNat = some (r, w) →
      (e.line.priv < r → exec (.mfs g n d) s = .next (s.raise e { cls := 0x02, sub := 1, kind := 0, size := 0xF, faddr := e.line.pc })) ∧
      ((∀ p, w = some p → e.line.priv < p) →
        exec (.mts g n d) s = .next (s.raise e { cls := 0x02, sub := 1, kind := 0, size := 0xF, faddr := e.line.pc })) ∧
      (0x020 ≤ n.toNat → n.toNat ≤ 0x027 → e.line.guard g = true → e.line.mx = false → ∃ a, exec (.mts g n d) s =
        .next (({ s with free := s.free + 1 } : State).raise e { cls := 0x0B, sub := 1, kind := 0, size := 0xF, faddr := a })))

/-- With the privilege and the guard, `mfs` of any listed register but a table with a write on its way completes: rd takes the register's value and PC advances by 4; a read of `$rcpS` is an acquire, so the line remembers which messages it orders.  The values of `$clusterid`, `$dieid`, `$gtime`, `$wid`, `$frame`, `$kslot`, `$srseed`, `$svcq`, `$xlbase`, `$apdbase`, `$biasbase`, `$ctqbase`, `$ilv`, `$sasid`, `$rcpS`, `$replD`, `$trcctl`, `$tsw`, `$gswt`, `$gsout`, `$gsin` and `$gsstat` are those the state holds; the reserved bits [31:25] and [7:6] of `$tsw` read zero. (R20, R48, R79, R383, R402) -/
def Obligations.SystemRegisterReads : Prop :=
  ∀ (s : State) (e : Env) (g : Guard) (n : BitVec 12) (d : Reg) (r : Nat) (w : Option Nat), s.Runs e g →
    sysRow n.toNat = some (r, w) → r ≤ e.line.priv → ¬ (0x020 ≤ n.toNat ∧ n.toNat ≤ 0x027 ∧ s.tablePending e.site (n.toNat - 0x020) = true) →
    ∃ (v : Word) (c : Env), c = (e.setReg s.cycle d v).adv 4 ∧
      exec (.mfs g n d) s = .next (s.put
        (if 0x010 ≤ n.toNat ∧ n.toNat ≤ 0x017 then { c with line := { c.line with acqTo := s.nextId } } else c)) ∧
      (n = 0x001 → v = W (clusterOf e.site)) ∧ (n = 0x002 → v = W (dieOf e.site)) ∧ (n = 0x003 → v = W (s.cycle * 5 / 7)) ∧
      (n = 0x004 → v = e.line.wid) ∧ (n = 0x005 → v = e.line.link) ∧ (n = 0x006 → v = W e.ks) ∧
      (n = 0x007 → v = W e.core.lfsr.toNat) ∧ (n = 0x008 → v = (s.part (s.partOf e.site)).svcq) ∧
      (n = 0x100 → v = (s.part (s.partOf e.site)).xlbase) ∧ (n = 0x101 → v = (s.part (s.partOf e.site)).apdbase) ∧
      (n = 0x102 → v = (s.part (s.partOf e.site)).biasbase) ∧ (n = 0x103 → v = (s.part (s.partOf e.site)).ctqbase) ∧
      (n = 0x104 → v = (s.part (s.partOf e.site)).ilv) ∧ (n = 0x105 → v = (s.part (s.partOf e.site)).sasid) ∧
      (0x010 ≤ n.toNat → n.toNat ≤ 0x017 → v = ((s.part (s.partOf e.site)).stream (n.toNat - 0x010)).rcp) ∧
      (0x108 ≤ n.toNat → n.toNat ≤ 0x10B → v = (s.part (s.partOf e.site)).repl.getD (n.toNat - 0x108) 0#64) ∧
      (n = 0x110 → v = e.core.trace.ctl) ∧ (n = 0x118 → ∀ k, k < 64 → v.getLsbD k = (e.line.tsw.getLsbD k && !decide ((25 ≤ k ∧ k ≤ 31) ∨ k = 6 ∨ k = 7))) ∧ (n = 0x121 → v = (s.part (s.partOf e.site)).gswt) ∧
      (n = 0x122 → v = (s.part (s.partOf e.site)).gsout) ∧ (n = 0x123 → v = (s.part (s.partOf e.site)).gsin) ∧
      (n = 0x125 → v = (s.part (s.partOf e.site)).gsstat)

/-- With the privilege and the guard, `mts` completes with PC advanced by 4: `$srseed` sets the core's LFSR, `$tsw` changes COOKIE, DLX and SVC of the line's TSW alone, `$trcctl` clears FRZ, a partition register takes the bits that R383 gives it and leaves the others of the partition, and a table write leaves for the cluster's table store. (R48, R79, R94, R383) -/
def Obligations.SystemRegisterWrites : Prop :=
  ∀ (s : State) (e : Env) (g : Guard) (d : Reg) (p : Nat), s.Runs e g → p = s.partOf e.site →
    (exec (.mts g 0x007 d) s = .next (s.put
      { e with line := { e.line with pc := e.line.pc + 4#64 }, core := { e.core with lfsr := seedOf (e.reg d) } })) ∧
    (1 ≤ e.line.priv → ∃ l : Line, exec (.mts g 0x118 d) s = .next (s.put { e with line := l }) ∧ l.pc = e.line.pc + 4#64 ∧
      ∀ k, k < 64 → l.tsw.getLsbD k = if 32 ≤ k ∨ (16 ≤ k ∧ k ≤ 23) ∨ k = 4 then (e.reg d).getLsbD k else e.line.tsw.getLsbD k) ∧
    (1 ≤ e.line.priv → ∃ c : Word, exec (.mts g 0x110 d) s = .next (s.put
        { e with
          line := { e.line with pc := e.line.pc + 4#64 }, core := { e.core with trace := { e.core.trace with ctl := c, post := none } } }) ∧
      ∀ k, k < 64 → c.getLsbD k = if k = 11 ∨ 46 ≤ k ∨ (13 ≤ k ∧ k ≤ 15) then false else (e.reg d).getLsbD k) ∧
    (2 ≤ e.line.priv → ∀ (n : BitVec 12) (x y : Part), n ∈ [0x008#12, 0x100#12, 0x101#12, 0x102#12, 0x104#12, 0x105#12, 0x122#12, 0x123#12] →
      y = s.part p → exec (.mts g n d) s = .next ((s.put (e.adv 4)).setPart p x) →
      (n = 0x008 → x = { y with svcq := x.svcq } ∧ ∀ k, k < 64 → x.svcq.getLsbD k = (decide (11 ≤ k) && (e.reg d).getLsbD k)) ∧
      (n = 0x100 → x = { y with xlbase := x.xlbase, rom := false } ∧
        ∀ k, k < 64 → x.xlbase.getLsbD k = (decide (3 ≤ k ∧ k ≤ 51) && (e.reg d).getLsbD k)) ∧
      (n = 0x101 → x = { y with apdbase := x.apdbase } ∧ ∀ k, k < 64 → x.apdbase.getLsbD k = (decide (4 ≤ k ∧ k ≤ 51) && (e.reg d).getLsbD k)) ∧
      (n = 0x102 → x = { y with biasbase := x.biasbase } ∧ ∀ k, k < 64 → x.biasbase.getLsbD k = (decide (12 ≤ k ∧ k ≤ 51) && (e.reg d).getLsbD k)) ∧
      (n = 0x104 → x = { y with ilv := x.ilv } ∧ ∀ k, k < 64 → x.ilv.getLsbD k = (decide (k = 0) && (e.reg d).getLsbD k)) ∧
      (n = 0x105 → x = { y with sasid := x.sasid } ∧ ∀ k, k < 64 → x.sasid.getLsbD k = (decide (k < 16) && (e.reg d).getLsbD k)) ∧
      (n = 0x122 → x = { y with gsout := e.reg d }) ∧ (n = 0x123 → x = { y with gsin := e.reg d })) ∧
    (2 ≤ e.line.priv → ∀ n : BitVec 12, n ∈ [0x008#12, 0x100#12, 0x101#12, 0x102#12, 0x104#12, 0x105#12, 0x122#12, 0x123#12] →
      ∃ x, exec (.mts g n d) s = .next ((s.put (e.adv 4)).setPart p x)) ∧
    (e.line.mx = true → ∀ n : BitVec 12, 0x020 ≤ n.toNat → n.toNat ≤ 0x027 →
      (s.cl (clusterOf e.site)).t3swap.contains (n.toNat - 0x020) = false →
      exec (.mts g n d) s = .next ((s.put (e.adv 4)).send (.core e.site) (.engine (clusterOf e.site)) regVn
        (.ctbl e.site (n.toNat - 0x020) (e.reg d))))

/-- For each of ld, st, ld and ld.s with rlx or acq and st with rlx or acq ordering, ldt and stt (with a scale record without reserved bits and a table without a swap pending), ldr.w, cln, cinv, iinv, migr, apnd, ldtail, qpop, qstat, hdef, hmap, wenq and sync (of a context with a frame): when the form's checks pass and the context meets neither the check-hold buffer, nor a STASH handle, nor an owned line, the instruction completes: PC advances by 4, WT is 0x1000_0001 (0x3000_0000 for ldr.w), a store is counted in PWC, and one request with the form's operands is on its way to the slice of the address. Registers, PW, every other line, and every byte of memory outside the context's own line are unchanged. (R135, R136, R138, R139, R143, R145, R148, R155, R165, R181, R258, R323) -/
def Obligations.RequestsLeave : Prop :=
  ∀ (i : Instr) (s : State) (e : Env) (P : Prop) (ea : Word) (kind : Nat) (k : ReqKind), s.env? = some e →
    (∀ g, guardOf i = some g → e.line.guard g = true) → s.flen = 4 → e.Plain → requestOf i s e = some (P, ea, kind, k) → P →
    ∃ (t : State) (l : Line) (m : Msg) (tok : Nat), exec i s = .next t ∧ t.net = s.net ++ [m] ∧ m.src = .core e.site ∧
      m.dst = .slice ((s.part e.line.part).tslice e.line.asid ea.toNat) ∧ m.body = .req (s.who e) ea.toNat k tok false ∧
      t.line? e.key = some l ∧ l.pc = e.line.pc + 4#64 ∧ l.wt = (if kind = 3 then 0x30000000#32 else 0x10000001#32) ∧
      l.pwc = e.line.pwc + b2n k.counts ∧ l.v = e.line.v ∧ l.pw = e.line.pw ∧ (∀ r, t.regOf e r = s.regOf e r) ∧
      (∀ key, key ≠ e.key → t.line? key = s.line? key) ∧ t.parts = s.parts ∧ t.clusters = s.clusters ∧
      (∀ a, a / 128 ≠ e.key → t.rdByte a = s.rdByte a)

/-- Every `amo` whose address is canonical and aligned to its type, of a context outside the check-hold buffer that owns no line: with rlx or acq it completes with WT = 0x1000_0001, PWC one higher and its request on its way, asking for ownership as the predictor says; with rel or sc it completes waiting for PWC = 0 (and PDC = 0 at rec) before that request; a `red` completes without waiting, except that with rel it forfeits its turn until the counts are 0. (R138, R150, R151, R153, R154) -/
def Obligations.Atomics : Prop :=
  ∀ (i : Instr) (s : State) (e : Env) (x : AmoOp × AmoType × Order × Scope × Option Reg × Reg × Reg), s.env? = some e →
    s.flen = 4 → e.Plain → atomicOf i = some x → ∀ op y o sc d a b, x = (op, y, o, sc, d, a, b) → goodAddr (e.reg a) (atomicBytes y) →
    (d.isSome = true → o = .rlx ∨ o = .acq → ∃ (t : State) (l : Line) (m : Msg) (tok : Nat), exec i s = .next t ∧ t.net = s.net ++ [m] ∧
      m.dst = .slice ((s.part e.line.part).tslice e.line.asid (e.reg a).toNat) ∧
      m.body = .req (s.who e) (e.reg a).toNat (atomicReq e (asksOwner e (e.reg a)) x) tok false ∧ t.line? e.key = some l ∧
      l.pc = e.line.pc + 4#64 ∧ l.wt = 0x10000001#32 ∧ l.pwc = e.line.pwc + 1 ∧ l.v = e.line.v ∧ l.pw = e.line.pw) ∧
    (d.isSome = true → o = .rel ∨ o = .sc → ∃ (t : State) (l : Line) (p : Pend), exec i s = .next t ∧ t.net = s.net ∧
      t.line? e.key = some l ∧ l.pc = e.line.pc + 4#64 ∧ l.wt = 0x10000001#32 ∧ l.pend = some p ∧ p.who = s.who e ∧
      p.conds = released sc ∧ p.act = .send (e.reg a).toNat (atomicReq e false x) ∧ l.v = e.line.v ∧ l.pw = e.line.pw) ∧
    (d = none → o = .rel ∧ (e.line.pwc ≠ 0 ∨ (e.line.pdc ≠ 0 ∧ sc = .recov)) → exec i s = .next s) ∧
    (d = none → ¬ (o = .rel ∧ (e.line.pwc ≠ 0 ∨ (e.line.pdc ≠ 0 ∧ sc = .recov))) → ∃ (t : State) (l : Line) (m : Msg) (tok : Nat),
      exec i s = .next t ∧ t.net = s.net ++ [m] ∧ m.body = .req (s.who e) (e.reg a).toNat (atomicReq e (asksOwner e (e.reg a)) x) tok false ∧
      t.line? e.key = some l ∧ l.pc = e.line.pc + 4#64 ∧ l.wt = e.line.wt ∧ l.pwc = e.line.pwc + 1 ∧ l.v = e.line.v ∧ l.pw = e.line.pw)

/-- For each of fence, drain.ts, drain.gm, drain.mx, the ordered loads with sc and stores with rel or sc, stc, wake, exit, trig, launch, gang, grun, send, qpush, seal, rcommit, msem.post, mdrain, resume, hseal and hopen and hunmap (where they wait), mcfg, bar.arv, bar.arvb, bar.aw and dbar (not replayed) and fork: when the form's checks pass the instruction completes: PC advances by 4, WT is 0x1000_0001 or 0x9000_0001, and the line holds the conditions of its rule and the action that follows them; nothing is sent yet, no register and no flag changes, and every byte of memory outside the context's own line is unchanged. (R76, R77, R145, R147, R163, R164, R176, R264, R288, R289, R325, R337) -/
def Obligations.CoreWaits : Prop :=
  ∀ (i : Instr) (s : State) (e : Env) (P : Prop) (kind : Nat) (cs : List WaitFor) (act : After), s.env? = some e →
    (∀ g, guardOf i = some g → e.line.guard g = true) → s.flen = 4 → e.line.held = false → waitOf i s e = some (P, kind, cs, act) → P →
    ∃ (t : State) (l : Line), exec i s = .next t ∧ t.line? e.key = some l ∧ l.pc = e.line.pc + 4#64 ∧
      l.wt = (if kind = 9 then 0x90000001#32 else 0x10000001#32) ∧ l.pend = some { who := s.who e, conds := cs, act := act } ∧
      l.v = e.line.v ∧ l.pw = e.line.pw ∧ l.pwc = e.line.pwc ∧ t.net = s.net ∧ (∀ r, t.regOf e r = s.regOf e r) ∧
      (∀ key, key ≠ e.key → t.line? key = s.line? key) ∧ t.parts = s.parts ∧ t.clusters = s.clusters ∧
      (∀ a, a / 128 ≠ e.key → t.rdByte a = s.rdByte a)

/-- For every load, store, atomic, reservation and record-reading instruction checked by R135: an effective address that is not canonical raises XLAT 0x01, and a canonical one that is not a multiple of the access size raises ALIGN 0x02, with the instruction's KIND, SIZE the log2 of the size, and FADDR the address. (R135, R254, R365, R366) -/
def Obligations.AddressFaults : Prop :=
  ∀ (i : Instr) (s : State) (e : Env) (ea : Word) (n kind : Nat), s.env? = some e →
    (∀ g, guardOf i = some g → e.line.guard g = true) → checkedOf i e = some (ea, n, kind) →
    (2 ^ 54 ≤ ea.toNat → exec i s = .next (s.raise e { cls := 0x04, sub := 0x01, kind := kind, size := Nat.log2 n, faddr := ea })) ∧
    (ea.toNat < 2 ^ 54 → ea.toNat % n ≠ 0 →
      exec i s = .next (s.raise e { cls := 0x03, sub := 0x02, kind := kind, size := Nat.log2 n, faddr := ea }))

/-- A fault that the core detects in the issuing context: with TSW.SVC = 0 the line takes CAUSE and FADDR, WT = 0x6000_0000 and TND = 0, keeps PC and every register and flag, and a message with that CAUSE leaves for the descriptor of the class; with TSW.SVC = 1 and privilege below 2, TND = 1, ESC = 1 and the descriptor is 0; with TSW.SVC = 1 and privilege 2 the line becomes LOST, the core stops for containment, and the message says LOST 0x03 to descriptor 0. No other line and no byte of memory outside the line changes. A CAUSE word holds the encoding in [63:32], ASYNC in [31], ESC in [30], LEN 1 or 2 for 2 or 4 bytes in [28:27], KIND in [23:20], SIZE in [19:16], SUB in [15:8] and CLASS in [7:0]. (R140, R365, R369, R370, R371) -/
def Obligations.TakingAFault : Prop :=
  (∀ (enc : BitVec 32) (len : Nat) (async esc : Bool) (f : Flt), f.cls < 2 ^ 8 → f.sub < 2 ^ 8 → f.size < 2 ^ 4 → f.kind < 2 ^ 4 →
    ∃ w, w = mkCause enc len async esc f ∧ wfld w 0 8 = f.cls ∧ wfld w 8 8 = f.sub ∧ wfld w 16 4 = f.size ∧ wfld w 20 4 = f.kind ∧
      wfld w 24 3 = 0 ∧ wfld w 27 2 = (if len = 2 then 1 else if len = 4 then 2 else 0) ∧ w.getLsbD 29 = false ∧ w.getLsbD 30 = esc ∧
      w.getLsbD 31 = async ∧ wfld w 32 32 = enc.toNat) ∧
  ∀ (s : State) (e : Env) (f : Flt), s.env? = some e →
    (∀ a, a / 128 ≠ e.key → (s.raise e f).rdByte a = s.rdByte a) ∧ (∀ key, key ≠ e.key → (s.raise e f).line? key = s.line? key) ∧
    (e.line.svc = false ∨ e.line.priv ≠ 2 → ∃ (l : Line) (m : Msg) (x : FaultMsg), (s.raise e f).line? e.key = some l ∧
      l.cause = mkCause s.fetched s.flen false e.line.svc f ∧ l.faddr = f.faddr ∧ l.wt = 0x60000000#32 ∧ l.pc = e.line.pc ∧
      l.v = e.line.v ∧ l.pw = e.line.pw ∧ l.tnd = (if e.line.svc then 1 else 0) ∧ l.life = .live ∧
      (s.raise e f).net = s.net ++ [m] ∧ m.dst = .desc e.line.part ∧ m.body = .msg x ∧ x.cause = l.cause ∧ x.faddr = f.faddr ∧
      x.cid = e.line.cid ∧ x.desc = (if e.line.svc then 0 else f.cls)) ∧
    (e.line.svc = true → e.line.priv = 2 → ∃ (l : Line) (m : Msg) (x : FaultMsg), (s.raise e f).line? e.key = some l ∧ l.life = .lost ∧
      ((s.raise e f).core e.site).life = .containing ∧ (s.raise e f).net = s.net ++ [m] ∧ m.body = .msg x ∧ x.desc = 0 ∧
      x.cause = mkCause s.fetched s.flen false true { f with cls := 0x11, sub := 0x03 })

/-- `ldt` with a good address, and for the four-bit format a scale record without reserved bits whose type 3 table has no swap pending, completes with PC advanced by 4, WT = 0x1000_0001 and its request on its way; `stt` likewise, with the register's value, the scale record and the table in the request, PWC one higher, and PW and the LFSR as before. When that request is accepted, its translation held by the slice and in order, it goes on as a store of the converted bytes, and then PW gains the flags of the conversions and the LFSR has stepped by the stochastic ones. A reserved bit in the scale record raises FMT 0x01. (R93, R148, R149) -/
def Obligations.TypedAccesses : Prop :=
  (∀ (s : State) (m sl va tok scale : Nat) (w : Who) (f : MemFmt) (t : LaneType) (r : Round) (sr : Bool) (tab : List T3Entry)
    (no : Option Nat) (v : Word) (g : Leaf) (y : Line) (k : ReqKind), k = .stt f t r sr scale tab no v → s.Reaches m sl w va k tok →
    s.tcheck w.part w.asid w.priv va k.cat = some (.ok g) →
    s.placeVerdict w k g (g.ga va) = none → s.line? w.key = some y → y.life = .live → y.wt = 0x10000001#32 → y.heldFaults = [] →
    ∃ (u : State) (y' : Line) (z : Msg) (q : List Byte × Flags × BitVec 32), q = typedStore f t r sr scale tab (s.core w.site).lfsr v ∧
      exec (.translate m) s = .next u ∧ u.net = (s.drop m).net ++ [z] ∧ z.dst = .slice (s.homeOfAcc w va (.store q.1 .rlx .core) g (g.ga va)) ∧
      z.body = .acc { w := w, va := va, ga := g.ga va, leaf := g, k := .store q.1 .rlx .core, tok := tok, snooped := false } ∧
      u.line? w.key = some y' ∧ y'.wt = 0#32 ∧ y'.pc = y.pc ∧ y'.v = y.v ∧ y'.pw = y.pw ||| q.2.1.bits ∧
      y'.pdc = y.pdc + b2n g.durable ∧ (u.core w.site).lfsr = q.2.2) ∧
  ∀ (s : State) (e : Env) (f : MemFmt) (t : LaneType) (r : Round) (sr : Bool) (d a b : Reg) (no : Option Nat),
    s.env? = some e → s.flen = 4 → e.Plain → no = captureNo f (e.reg b) →
    (f = .fp4 → (scaleRec (wfld (e.reg b) 0 16)).rsv ≠ 0 → ∀ i, i = .ldt f t r d a b ∨ i = .stt f t r sr d a b → ∃ kind,
      exec i s = .next (s.raise e { cls := 0x07, sub := 0x01, kind := kind, size := Nat.log2 (typedBytes f t), faddr := e.reg a })) ∧
    (goodAddr (e.reg a) (typedBytes f t) → (f = .fp4 → (scaleRec (wfld (e.reg b) 0 16)).rsv = 0) →
      (∀ n, no = some n → (s.cl (clusterOf e.site)).t3swap.contains n = false) →
      (∃ (u : State) (l : Line) (m : Msg), exec (.ldt f t r d a b) s = .next u ∧ u.net = s.net ++ [m] ∧
        m.body = .req (s.who e) (e.reg a).toNat (.load (.typed d f t r (wfld (e.reg b) 0 16)
          ((s.cl (clusterOf e.site)).table (no.getD 0)) no) (typedBytes f t) .rlx .core) 0 false ∧
        u.line? e.key = some l ∧ l.pc = e.line.pc + 4#64 ∧ l.wt = 0x10000001#32 ∧ l.v = e.line.v ∧ l.pw = e.line.pw) ∧
      (∃ (u : State) (l : Line) (m : Msg) (tok : Nat), exec (.stt f t r sr d a b) s = .next u ∧
        u.net = s.net ++ [m] ∧ m.body = .req (s.who e) (e.reg a).toNat (.stt f t r sr (wfld (e.reg b) 0 16)
          ((s.cl (clusterOf e.site)).table (no.getD 0)) no (e.reg d)) tok false ∧
        u.line? e.key = some l ∧ l.pc = e.line.pc + 4#64 ∧ l.wt = 0x10000001#32 ∧ l.pwc = e.line.pwc + 1 ∧ l.v = e.line.v ∧
        l.pw = e.line.pw ∧ (u.core e.site).lfsr = e.core.lfsr))

/-- `rcancel` of a good address and `pref` of a canonical one complete without waiting, their request on its way; `pref` of any other address only advances PC, as do `sync` of a context without a frame, `hseal` of a SEALED handle and `hopen` of an OPEN one; `rmark` completes waiting for its stream's NEXT, which is on its way; `xinv` of a supervisor with a good operand completes waiting for one answer from each slice and each core of the partition that holds translations. (R155, R168, R176, R252, R303, R404) -/
def Obligations.NoWaitRequests : Prop :=
  ∀ (s : State) (e : Env), s.env? = some e → s.flen = 4 →
    (∀ a, goodAddr (e.reg a) 8 → ∃ (t : State) (l : Line) (m : Msg), exec (.rcancel a) s = .next t ∧ t.net = s.net ++ [m] ∧
      m.body = .req (s.who e) (e.reg a).toNat .rcancel 0 false ∧ t.line? e.key = some l ∧ l.pc = e.line.pc + 4#64 ∧ l.wt = e.line.wt) ∧
    (∀ a, (e.reg a).toNat < 2 ^ 54 → ∃ (t : State) (l : Line) (m : Msg), exec (.pref a) s = .next t ∧ t.net = s.net ++ [m] ∧
      m.body = .req (s.who e) (e.reg a).toNat .pref 0 false ∧ t.line? e.key = some l ∧ l.pc = e.line.pc + 4#64 ∧ l.wt = e.line.wt) ∧
    (∀ a, 2 ^ 54 ≤ (e.reg a).toNat → exec (.pref a) s = .next (s.put (e.adv 4))) ∧
    (∀ g, e.line.guard g = true → e.line.link = 0#64 → exec (.sync g) s = .next (s.put (e.adv 4))) ∧
    (∀ (h : HNum) x, e.kslot.handle h.val = some x →
      (x.st = .sealed_ → exec (.hseal h) s = .next (s.put (e.adv 4))) ∧ (x.st = .open_ → exec (.hopen h) s = .next (s.put (e.adv 4)))) ∧
    (∀ g (st : Fin 8) d, e.line.guard g = true → ∃ (t : State) (l : Line) (m : Msg), exec (.rmark g st d) s = .next t ∧
      t.line? e.key = some l ∧ l.pc = e.line.pc + 4#64 ∧ l.wt = 0x10000001#32 ∧ t.net = s.net ++ [m] ∧ m.dst = .line e.key ∧
      m.body = .reply (s.who e) { regs := [(d, W ((s.part e.line.part).stream st.val).next)], flags := Flags.none, p15 := none } false false 0) ∧
    (∀ g a b, e.line.guard g = true → 2 ≤ e.line.priv → xinvFault (Config.freeWord s.free) (e.reg a) (e.reg b) = none → ∃ (t : State) (l : Line),
      exec (.xinv g a b) s = .next t ∧ t.line? e.key = some l ∧ l.pc = e.line.pc + 4#64 ∧
      l.wt = mkWt 1 ((s.part e.line.part).clusters.length + (s.xinvCores e.line.part).length) ∧
      t.net.length = s.net.length + (s.part e.line.part).clusters.length + (s.xinvCores e.line.part).length)

/-- With an OPEN or SEALED handle whose element lies inside it at 8-byte alignment and depends on no unchecked matrix row, `ldh` completes with rd the 8 bytes of scratch there, lowest first; with an OPEN handle `sth` completes with those 8 bytes of scratch at the register's value and every other byte of scratch as before. A SEALED handle makes `sth` raise HANDLE 0x02. (R174, R175, R176, R183) -/
def Obligations.ScratchAccess : Prop :=
  ∀ (s : State) (e : Env) (h : HNum) (x : Handle) (d a b : Reg) (at_ row : Nat), s.env? = some e → e.kslot.handle h.val = some x →
    elementAddr e.kslot x (e.reg a) = .ok (at_, row) →
    (x.st = .open_ ∨ x.st = .sealed_ → (s.cl (clusterOf e.site)).uncheckedRow e.site e.ks h.val row = [] →
      exec (.ldh h d a) s = .next (s.put ((e.setReg s.cycle d (W (leNat (memRead e.core.scratch at_ 8)))).adv 4))) ∧
    (x.st = .open_ → ∃ m : Mem, exec (.sth h a b) s = .next (s.put
        { e with line := { e.line with pc := e.line.pc + 4#64 }, core := { e.core with scratch := m } }) ∧
      (∀ k, k < 8 → memGet m (at_ + k) = BitVec.ofNat 8 ((e.reg b).toNat / 2 ^ (8 * k))) ∧
      (∀ q, q < at_ ∨ at_ + 8 ≤ q → memGet m q = memGet e.core.scratch q)) ∧
    (x.st = .sealed_ → ∃ f, exec (.sth h a b) s =
      .next (({ s with free := s.free + 1 } : State).raise e { cls := 0x08, sub := 0x02, kind := 0, size := 0xF, faddr := f }))

/-- On a barrier of the kernel's share: `bar.init` with a well-formed local word makes an inactive barrier ACTIVE with the word's counts and both arrival counts 0; with a well-formed group word its table's request leaves; `bar.exp` of a small count raises EXPB of the current phase by it; `bar.wait` on another phase than the current one only advances PC, and on the current phase waits with kind 2 on the barrier and the phase; `bar.test` writes rd with the barrier's word and changes no barrier; `bar.inv` leaves the barrier INVALID. PC advances by 4 in each. (R329, R333, R334, R335, R338, R339, R340) -/
def Obligations.BarrierInstructions : Prop :=
  ∀ (s : State) (e : Env) (g : Guard) (j : BNum) (a d : Reg) (b : Bar) (n : Nat), s.Runs e g → s.flen = 4 → j.val < e.kslot.barShare →
    n = e.kslot.barBase + j.val → b = e.core.bar n →
    (b.state ≠ 1 → s.barReading e j.val = false → (e.reg a).getLsbD 63 = false → localConfigOk (e.reg a) = true →
      ∃ (t : State) (l : Line) (x : Bar), exec (.barInit g j a) s = .next t ∧ t.line? e.key = some l ∧ l.pc = e.line.pc + 4#64 ∧
        l.wt = e.line.wt ∧ x = (t.core e.site).bar n ∧ x.state = 1 ∧ x.group = false ∧ x.expa = wfld (e.reg a) 0 16 ∧
        x.expb = wfld (e.reg a) 16 32 ∧ x.expbc = x.expb ∧ x.arra = 0 ∧ x.arrb = 0 ∧ x.thr = (e.reg a).getLsbD 62 ∧
        x.ncons = wfld (e.reg a) 48 8 ∧ x.phase = b.phase) ∧
    (b.state ≠ 1 → s.barReading e j.val = false → (e.reg a).getLsbD 63 = true → wfld (e.reg a) 54 9 = 0 → wfld (e.reg a) 0 6 = 0 →
      ∃ (t : State) (l : Line) (m : Msg), exec (.barInit g j a) s = .next t ∧ t.line? e.key = some l ∧ l.pc = e.line.pc + 4#64 ∧
        l.wt = 0x10000001#32 ∧ t.net = s.net ++ [m] ∧
        m.body = .req (s.who e) (wfld (e.reg a) 6 48 * 64) (.groupTable j.val) 0 false) ∧
    (b.state = 1 → (e.reg a).toNat < 2 ^ 32 → b.expbc + (e.reg a).toNat < 2 ^ 32 → (b.arra < b.expa ∨ b.arrb < b.expbc + (e.reg a).toNat) →
      b.loc = false → ∃ (t : State) (l : Line), exec (.barExp g j a) s = .next t ∧ t.line? e.key = some l ∧ l.pc = e.line.pc + 4#64 ∧
        (t.core e.site).bar n = { b with expbc := b.expbc + (e.reg a).toNat }) ∧
    (b.state = 1 → (e.reg a).toNat < 2 ^ 16 → (e.reg a).toNat ≠ b.phase → ∃ (t : State) (l : Line), exec (.barWait g j a) s = .next t ∧
      t.line? e.key = some l ∧ l.pc = e.line.pc + 4#64 ∧ l.wt = e.line.wt ∧ (t.core e.site).waiters = e.core.waiters) ∧
    (b.state = 1 → (e.reg a).toNat < 2 ^ 16 → (e.reg a).toNat = b.phase → e.core.waiters.length < 1024 →
      ∃ (t : State) (l : Line), exec (.barWait g j a) s = .next t ∧ t.line? e.key = some l ∧ l.pc = e.line.pc + 4#64 ∧
        l.wt = mkWt 2 (j.val * 2 ^ 22 + b.phase) ∧
        (t.core e.site).waiters = e.core.waiters ++ [{ key := e.key, b := n, v := b.phase, aw := false }]) ∧
    (∀ u, u = s.put ((e.setReg s.cycle d b.testWord).adv 4) → ∃ (t : State) (l x : Line), exec (.barTest g j d) s = .next t ∧
      u.line? e.key = some x ∧ t.line? e.key = some l ∧ l.pc = e.line.pc + 4#64 ∧ l.v = x.v ∧ l.pw = x.pw ∧ l.wt = x.wt ∧
      (t.core e.site).ks = (u.core e.site).ks ∧ (t.core e.site).bars = (s.core e.site).bars ∧ t.net = s.net ∧ t.mem = s.mem) ∧
    (e.core.waiters = [] → ∃ (t : State) (l : Line), exec (.barInv g j) s = .next t ∧ t.line? e.key = some l ∧ l.pc = e.line.pc + 4#64 ∧
      ((t.core e.site).bar n).state = 2 ∧ ((t.core e.site).bar n).phase = b.phase)

/-- Every copy that passes the checks of R190 completes: PC advances by 4, WT is 0x9000_0001, and the copy with its operands is on its way to the cluster's copy engine. Every tile vector instruction that passes the checks of R194 completes with WT = 0x9000_0001 and its operation last in the core's queue, as `apndh` of 8 to 256 bytes does with WT = 0x1000_0001 and its copy on its way. (R184, R185, R190, R194, R195, R196, R262) -/
def Obligations.EngineIssue : Prop :=
  ∀ (i : Instr) (s : State) (e : Env), s.env? = some e → s.flen = 4 →
    (∀ x shape align, copyOf i e = some x → copyPasses s e x shape align → ∃ (t : State) (l : Line) (m : Msg) (c : Copy),
      exec i s = .next t ∧ t.line? e.key = some l ∧ l.pc = e.line.pc + 4#64 ∧ l.wt = 0x90000001#32 ∧ l.v = e.line.v ∧ l.pw = e.line.pw ∧
      t.net = s.net ++ [m] ∧ m.dst = .engine (clusterOf e.site) ∧ m.body = .copyReq c ∧ c.op = x.op ∧ c.sc = x.sc ∧ c.who = s.who e ∧
      c.h = x.h ∧ c.hA = x.hA ∧ c.src = (x.ra.getD 0#64).toNat ∧ c.dst = (x.rd.getD 0#64).toNat ∧ c.opt = e.reg x.b ∧
      c.rows = shape.rows ∧ c.cols = shape.cols ∧ c.fmt = shape.fmt ∧
      c.cw = (if optCw (e.reg x.b) then some (e.reg (x.b + 1)).toNat else none)) ∧
    (∀ k hd ha hb r sr red all dh ah bh no, tileOf i = some (k, hd, ha, hb, r, sr, red, all) →
      tvHandles e.kslot k.two hd.val ha.val hb.val = .ok (dh, ah, bh) → tvFormatBad k r sr dh ah bh = false →
      tvShapeBad k all dh ah bh = false →
      no = (if k = .cvt then (if ah.fmt = 10 then some ah.ttab else if dh.fmt = 10 then some dh.ttab else none) else none) →
      (∀ n, no = some n → (s.cl (clusterOf e.site)).t3swap.contains n = false) →
      ∃ (t : State) (l : Line) (o : TvOp), exec i s = .next t ∧ t.line? e.key = some l ∧ l.pc = e.line.pc + 4#64 ∧ l.wt = 0x90000001#32 ∧
        (t.core e.site).tvq = e.core.tvq ++ [o] ∧ o.k = k ∧ o.who = s.who e ∧ o.rm = r ∧ o.sr = sr ∧ o.red = red ∧ o.all = all ∧
        o.d = hd.val ∧ o.a = ha.val ∧ o.b = hb.val ∧ o.hd = dh ∧ o.ha = ah ∧ o.hb = bh ∧ t.net = s.net) ∧
    (∀ (g : Guard) (h : HNum) (d a : Reg) (x : Handle), i = .apndh g h d a → e.line.guard g = true → (e.reg a).toNat < 2 ^ 54 →
      e.kslot.handle h.val = some x → x.st = .open_ ∨ x.st = .sealed_ → x.rows * x.rowBytes % 8 = 0 → 8 ≤ x.rows * x.rowBytes →
      x.rows * x.rowBytes ≤ 256 → ∃ (t : State) (l : Line) (m : Msg) (c : Copy), exec i s = .next t ∧ t.line? e.key = some l ∧
        l.pc = e.line.pc + 4#64 ∧ l.wt = 0x10000001#32 ∧ t.net = s.net ++ [m] ∧ m.body = .copyReq c ∧ c.op = .apnd ∧
        c.src = (e.reg a).toNat ∧ c.dst = d.val ∧ c.h = h.val)

/-- With TSW.MX and the unit enabled, `mloadb`, `mmac`, `mmacs`, `mepi` and `ctswap` that pass the checks of R205 complete: PC advances by 4, WT is 0x9000_0001, and the operation is on its way to the cluster's unit; without TSW.MX each, and `mcfg`, raises MX 0x01. `msem.wait` on a positive semaphore takes one and goes on, and on 0 waits with kind 8. (R205, R208, R210, R211, R213, R214, R219) -/
def Obligations.MatrixIssue : Prop :=
  ∀ (s : State) (e : Env), s.env? = some e → s.flen = 4 →
    (∀ i, isMx i = true → e.line.mx = false → ∃ f, exec i s =
      .next (({ s with free := s.free + 1 } : State).raise e { cls := 0x0B, sub := 0x01, kind := 0, size := 0xF, faddr := f })) ∧
    (∀ i k no, e.line.mx = true → (s.cl (clusterOf e.site)).macroOff = false → matPasses i s e k no →
      (∀ n, no = some n → (s.cl (clusterOf e.site)).t3swap.contains n = false) → ∃ (t : State) (l : Line) (m : Msg) (o : MatOp),
      exec i s = .next t ∧ t.line? e.key = some l ∧ l.pc = e.line.pc + 4#64 ∧ l.wt = 0x90000001#32 ∧ l.v = e.line.v ∧
      t.net = s.net ++ [m] ∧ m.dst = .engine (clusterOf e.site) ∧ m.body = .matReq o ∧ o.who = s.who e ∧ o.k = k) ∧
    (∀ (g : Guard) (n : Fin 16), e.line.guard g = true →
      (0 < tgetD (s.cl (clusterOf e.site)).sems n.val 0 → ∃ (t : State) (l : Line), exec (.msemWait g n) s = .next t ∧
        t.line? e.key = some l ∧ l.pc = e.line.pc + 4#64 ∧ l.wt = e.line.wt ∧
        tgetD (t.cl (clusterOf e.site)).sems n.val 0 = tgetD (s.cl (clusterOf e.site)).sems n.val 0 - 1) ∧
      (tgetD (s.cl (clusterOf e.site)).sems n.val 0 = 0 → ∃ (t : State) (l : Line), exec (.msemWait g n) s = .next t ∧
        t.line? e.key = some l ∧ l.pc = e.line.pc + 4#64 ∧ l.wt = BitVec.ofNat 32 (8 * 2 ^ 28 + n.val) ∧
        (t.cl (clusterOf e.site)).semWait = (s.cl (clusterOf e.site)).semWait ++ [{ sem := n.val, key := e.key }]))

/-- An answer that may be delivered, of an instruction outside any EMULATE sequence, leaves the network and acts on the live line of its context, which no fault waits for. A load reply writes its v register and ends a wait of kind 1 or 9 whose detail is 1; a reply whose destination is an s register that no answer of its kind has written in this cycle writes the s bank of the issuing core and kernel slot instead; a long-operation completion writes rd, a v register or, where no other result has written it in this cycle, an s register, ORs its flags into PW and ends the wait; the completion of an engine operation ORs its flags and ends the wait, and the flags of a matrix operation join PW alone, its semaphore post then on its way or its operation ended; an acknowledgement, once no invalidation of its write is on its way, takes 1 from PWC, and a durable one takes 1 from PDC; a precise fault answer, once the signals of its operation have been made, parks the line that waits for it with its CAUSE, FADDR and PC. In each the line's other registers, PC, PW, counts and wait stay as the clause says, and a reply, completion or acknowledgement changes no other line. (R68, R71, R72, R100, R106, R138, R372) -/
def Obligations.AnswersReachLines : Prop :=
  ∀ (s : State) (m : Nat) (w : Who) (l : Line), s.answers w = true → w.emu = 0 → s.line? w.key = some l → l.heldFaults = [] →
    (∀ (d : Reg) (v : Word) (a : Answer), a = { regs := [(d, v)], flags := Flags.none, p15 := none } →
      s.find? m = some (.reply w a false false 0) → l.wt = 0x10000001#32 ∨ l.wt = 0x90000001#32 →
      (d.val < 8 → ∃ (t : State) (x : Line), exec (.loadReply m) s = .next t ∧ t.net = s.net.filter (fun y => y.id != m) ∧
        t.line? w.key = some x ∧ x.v = l.v.set d.val v ∧ x.wt = 0#32 ∧ x.pc = l.pc ∧ x.pw = l.pw ∧ x.pwc = l.pwc ∧ x.pdc = l.pdc ∧
        ∀ key, key ≠ w.key → t.line? key = s.line? key) ∧
      (8 ≤ d.val → s.bankGone w = false → s.sBusy w a true = false →
        (((s.core w.site).ks.getD w.ks KSlot.reset).s).length = 8 →
        (((s.core w.site).ks.getD w.ks KSlot.reset).stamps.getD (d.val - 8) (0, 0)).1 ≠ s.cycle + 1 →
        ∃ (t : State) (x : Line), exec (.sRegisterReply m) s = .next t ∧ t.net = s.net.filter (fun y => y.id != m) ∧
          t.line? w.key = some x ∧ x.v = l.v ∧ x.wt = 0#32 ∧ x.pc = l.pc ∧ x.pw = l.pw ∧ x.pwc = l.pwc ∧ x.pdc = l.pdc ∧
          ((t.core w.site).ks.getD w.ks KSlot.reset).s = (((s.core w.site).ks.getD w.ks KSlot.reset).s).set (d.val - 8) v ∧
          ∀ key, key ≠ w.key → t.line? key = s.line? key)) ∧
    (∀ (d : Reg) (v : Word) (f : Flags) (a : Answer), a = { regs := [(d, v)], flags := f, p15 := none } →
      s.find? m = some (.longDone w d v f) → l.wt = 0x90000001#32 →
      (d.val < 8 → ∃ (t : State) (x : Line), exec (.longOperationCompletion m) s = .next t ∧ t.net = s.net.filter (fun y => y.id != m) ∧
        t.line? w.key = some x ∧ x.v = l.v.set d.val v ∧ x.wt = 0#32 ∧ x.pw = l.pw ||| f.bits ∧ x.pc = l.pc ∧ x.pwc = l.pwc ∧ x.pdc = l.pdc ∧
        ∀ key, key ≠ w.key → t.line? key = s.line? key) ∧
      (8 ≤ d.val → w.ks < (s.core w.site).ks.length → s.sBusy w a false = false →
        (((s.core w.site).ks.getD w.ks KSlot.reset).s).length = 8 →
        (((s.core w.site).ks.getD w.ks KSlot.reset).stamps.getD (d.val - 8) (0, 0)).1 ≠ s.cycle + 1 →
        ∃ (t : State) (x : Line), exec (.longOperationCompletion m) s = .next t ∧ t.net = s.net.filter (fun y => y.id != m) ∧
          t.line? w.key = some x ∧ x.v = l.v ∧ x.wt = 0#32 ∧ x.pw = l.pw ||| f.bits ∧ x.pc = l.pc ∧ x.pwc = l.pwc ∧ x.pdc = l.pdc ∧
          ((t.core w.site).ks.getD w.ks KSlot.reset).s = (((s.core w.site).ks.getD w.ks KSlot.reset).s).set (d.val - 8) v ∧
          ∀ key, key ≠ w.key → t.line? key = s.line? key)) ∧
    (∀ (f : Flags), s.find? m = some (.opDone w f) → l.wt = 0x90000001#32 →
      ∃ (t : State) (x : Line), exec (.longOperationCompletion m) s = .next t ∧ t.net = s.net.filter (fun y => y.id != m) ∧
        t.line? w.key = some x ∧ x.v = l.v ∧ x.wt = 0#32 ∧ x.pw = l.pw ||| f.bits ∧ x.pc = l.pc ∧ x.pwc = l.pwc ∧ x.pdc = l.pdc ∧
        ∀ key, key ≠ w.key → t.line? key = s.line? key) ∧
    (∀ (f : Flags) (op : Nat) (post : Option (Nat × Nat)), s.find? m = some (.opFlags w f op post) →
      ∃ (t : State) (x : Line), exec (.longOperationCompletion m) s = .next t ∧ t.line? w.key = some x ∧ x.v = l.v ∧ x.wt = l.wt ∧
        x.pw = l.pw ||| f.bits ∧ x.pc = l.pc ∧ x.pwc = l.pwc ∧ x.pdc = l.pdc ∧ (∀ key, key ≠ w.key → t.line? key = s.line? key) ∧
        (post = none → t.ops = tdel s.ops op ∧ t.net = s.net.filter (fun y => y.id != m)) ∧
        ∀ cl n, post = some (cl, n) → t.ops = s.ops ∧ ∃ z, t.net = s.net.filter (fun y => y.id != m) ++ [z] ∧ z.dst = .engine cl ∧
          z.body = .semPost cl n op) ∧
    (∀ tok grp, s.find? m = some (.ack w tok grp none false) → s.openGroup grp = false →
      ∃ (t : State) (x : Line), exec (.writeAcknowledgement m) s = .next t ∧ t.net = s.net.filter (fun y => y.id != m) ∧
        t.line? w.key = some x ∧ x.pwc = l.pwc - 1 ∧ x.pdc = l.pdc ∧ x.wt = l.wt ∧ x.v = l.v ∧ x.pw = l.pw ∧ x.pc = l.pc ∧
        t.ops = tdel s.ops tok ∧ ∀ key, key ≠ w.key → t.line? key = s.line? key) ∧
    (∀ tok, s.find? m = some (.dack w tok none true) → ∃ (t : State) (x : Line), exec (.durableAcknowledgement m) s = .next t ∧
        t.net = s.net.filter (fun y => y.id != m) ∧ t.line? w.key = some x ∧ x.pdc = l.pdc - 1 ∧ x.pwc = l.pwc ∧ x.wt = l.wt ∧ x.v = l.v ∧
        x.pw = l.pw ∧ x.pc = l.pc ∧ ∀ key, key ≠ w.key → t.line? key = s.line? key) ∧
    (∀ f tok, s.find? m = some (.fault w f false false tok none false) → s.signalsOpen tok = false → l.wt = 0x10000001#32 → l.svc = false →
      ∃ (t : State) (x : Line), exec (.faultAnswer m) s = .next t ∧ t.line? w.key = some x ∧ x.wt = 0x60000000#32 ∧ x.pc = w.pc ∧
        x.cause = mkCause w.enc w.len false false f ∧ x.faddr = f.faddr ∧ x.tnd = 0 ∧ x.v = l.v ∧ x.pw = l.pw ∧ x.pwc = l.pwc ∧ x.pdc = l.pdc)

/-- Once the mirror frames on a die can be written again, the die under no reset and the edge from its partner carrying traffic, every mirror write that waited for them is acknowledged as durable, no line waits for that mirror any more, and every other message, every line and the memory stay. (R396, R402) -/
def Obligations.MirrorWritesRetry : Prop :=
  ∀ (s : State) (d : Nat), s.mirrorDieAway d = false → ∃ t, exec (.mirrorRetry d) s = .next t ∧
    (∀ x ∈ s.net, ∀ w tok ends c, x.body = .mirror w tok d ends c → ∃ y ∈ t.net, y.id = x.id ∧ y.dst = x.dst ∧ y.body = .dack w tok ends c) ∧
    (∀ y ∈ t.net, ∀ g, y.body ≠ .mirrorPend g d) ∧
    (∀ x ∈ s.net, (∀ w tok ends c, x.body ≠ .mirror w tok d ends c) → (∀ g, x.body ≠ .mirrorPend g d) → x ∈ t.net) ∧
    t.lines = s.lines ∧ t.mem = s.mem

/-- At the turn of a slot of an active core without a bound line, the line of its L1 that ranks first is bound there, and the slot issues in the same turn. At the turn of a slot whose RUNNING line must give way, that line takes a new ready stamp; where a line that ranks first outranks it, the slot binds that line and the other is unbound. An offered line that has gained a level by aging makes the slot whose line must give way do the same. A core with fewer eligible lines than it keeps, which finds room, fills the line that ranks first in its cluster's L2 into its L1; and a line offered from memory goes to the L2 that its rule names, where there is room. None of these changes the PC, the registers, PW or WT of the line that it moves, binds or unbinds. (R62, R65, R66, R67) -/
def Obligations.LinesMove : Prop :=
  ∀ (s : State) (c k key : Nat) (l : Line),
    (s.slot = k → s.turnOpen c = true → s.running? c k = none → s.stopped (s.partOf c) = false → tget (s.core c).bound k = none →
      firstRanked s.gtime (s.eligible c) = some (key, l) → s.line? key = some l → (∀ e ∈ s.eligible c, e.2.bad = false) →
      ∃ (t : State) (x : Line), exec (.lineBind c k) s = .next t ∧ tget (t.core c).bound k = some key ∧ t.line? key = some x ∧
        x.bound = some k ∧ x.pc = l.pc ∧ x.v = l.v ∧ x.pw = l.pw ∧ x.wt = l.wt ∧ t.agenda = { after := 0, what := .turn c } :: s.agenda) ∧
    (s.slot = k → s.turnOpen c = true → s.rotates c k = true → s.running? c k = some (key, l) → (∀ e ∈ s.lines, e.2.bad = false) →
      ∃ (t : State) (x : Line), exec (.rotation c k) s = .next t ∧ t.line? key = some x ∧ x.stamp = s.gtime ∧ x.pc = l.pc ∧ x.v = l.v ∧
        x.pw = l.pw ∧ x.wt = l.wt ∧ t.agenda = { after := 0, what := .turn c } :: s.agenda ∧
        ∀ key' l', firstRanked s.gtime (s.eligible c) = some (key', l') → s.line? key' = some l' → key' ≠ key → l.prio < l'.effPrio s.gtime →
          s.stopped (s.partOf c) = false → x.bound = none ∧ tget (t.core c).bound k = some key' ∧
          ∃ y, t.line? key' = some y ∧ y.bound = some k ∧ y.pc = l'.pc ∧ y.v = l'.v ∧ y.pw = l'.pw ∧ y.wt = l'.wt) ∧
    (s.line? key = some l → l.place = .l1 c → l.offered = true → l.agedFrom + agingNs ≤ s.gtime → s.turnOpen c = true →
      s.rotates c s.slot = true → (∀ e ∈ s.lines, e.2.bad = false) → ∃ (t : State), exec (.priorityAging key) s = .next t ∧
        t.agenda = { after := 0, what := .turn c } :: s.agenda ∧
        (∀ r x, s.running? c s.slot = some (r, x) →
          ∃ y, t.line? r = some y ∧ y.stamp = s.gtime ∧ y.pc = x.pc ∧ y.v = x.v ∧ y.pw = x.pw ∧ y.wt = x.wt)) ∧
    (∀ u, (s.core c).life = .active → (s.eligible c).length < fillBelow → firstRanked s.gtime (s.fillable c) = some (key, l) → l.bad = false →
      s.makeRoom c l.part l.kid (l.effPrio s.gtime) = .ok u → ∃ (t : State), exec (.contextFill c) s = .next t ∧
        t.line? key = some { l with place := .l1 c, touched := false }) ∧
    (∀ cl, s.line? key = some l → l.place = .mem → l.offered = true → s.forwardTo l = some cl → (s.linesIn (.l2 cl)).length < l2Size →
      ∃ (t : State) (x : Line), exec (.lineForward key) s = .next t ∧ t.line? key = some x ∧ x.place = .l2 cl ∧ x.lastCl = cl ∧ x.pc = l.pc ∧
        x.v = l.v ∧ x.pw = l.pw ∧ x.wt = l.wt ∧ x.stamp = l.stamp)

/-- A live line whose wait of kind 2, 3, 4, 8 or 10 has lasted 2^min(DLX, 40) ns, kind 2 while its core or kind 8 while its cluster lists it as waiting and kind 10 while no gang of its own is left and none of its messages is on the way, parks with WT = 0x6000_0000, PC at the waiting instruction and a fault of subclass 0x7F of BAR (kind 2), QUEUE (kinds 3, 4 and 10) or MX (kind 8) with the FADDR of its kind, its registers and PW unchanged; the wait of a gang not yet granted asks the placer to withdraw it; with DLX = 0 no wait has a deadline; and before the time nothing happens. (R69, R308, R367) -/
def Obligations.WaitDeadlines : Prop :=
  ∀ (s : State) (key : Nat) (l : Line), s.line? key = some l → l.life = .live →
    (l.dlx = 0 → exec (.waitDeadline key) s = .next s) ∧ (s.gtime < l.waitFrom + 2 ^ min l.dlx 40 → exec (.waitDeadline key) s = .next s) ∧
    (l.dlx ≠ 0 → l.waitFrom + 2 ^ min l.dlx 40 ≤ s.gtime →
      (∀ (cls : Nat) (faddr : Word) (mine : Prop), l.svc = false → l.heldFaults = [] → s.resv = [] →
        mine = (∃ k ∈ (s.part l.part).kernels, ((k.gang.bind (·.who)).map (·.key)) = some key) →
        ((l.wtKind = 2 ∧ (∃ c ∈ s.cores, ∃ x ∈ c.2.waiters, x.key = key) ∧ cls = 0x09 ∧
            faddr = W (l.wtDetail / 2 ^ 22 * 2 ^ 16 + l.wtDetail % 2 ^ 16)) ∨
          (l.wtKind = 3 ∧ cls = 0x0A ∧ faddr = l.waitAddr) ∨
          (l.wtKind = 4 ∧ cls = 0x0A ∧ faddr = W ((l.popWait.map (·.desc)).getD 0)) ∨
          (l.wtKind = 8 ∧ (∃ c ∈ s.clusters, ∃ x ∈ c.2.semWait, x.key = key) ∧ cls = 0x0B ∧ faddr = W (l.wtDetail % 16)) ∨
          (l.wtKind = 10 ∧ ¬ mine ∧ (∀ y ∈ s.net, ∀ a b, y.body ≠ .gangWithdraw key a b ∧ y.body ≠ .gangGrant key) ∧ cls = 0x0A ∧
            faddr = l.waitAddr)) →
        ∃ (t : State) (x : Line), exec (.waitDeadline key) s = .next t ∧ t.line? key = some x ∧ x.wt = 0x60000000#32 ∧ x.pc = l.ipc ∧
          x.v = l.v ∧ x.pw = l.pw ∧ wfld x.cause 0 8 = cls ∧ wfld x.cause 8 8 = 0x7F ∧ x.faddr = faddr) ∧
      (∀ k, l.wtKind = 10 → ((s.part l.part).kernels.find? fun k => ((k.gang.bind (·.who)).map (·.key)) == some key) = some k →
        (∀ y ∈ s.net, ∀ a b, y.body ≠ .gangWithdraw key a b ∧ y.body ≠ .gangGrant key) →
        ∃ (t : State) (y : Msg), exec (.waitDeadline key) s = .next t ∧ t.net = s.net ++ [y] ∧ y.dst = .placer l.part ∧
          y.body = .gangWithdraw key k.hdr.kid l.part ∧ t.lines = s.lines))

/-- A wake that reaches its line makes a context parked with kind 7 READY and leaves any other live one a wake token; a resume of an issuer of at least the line's privilege makes a line parked for a fault READY: with replay at its PC, with skip past the instruction of the recorded length, with handler at the given PC, clearing TND and, but for replay, AP; a migrating context becomes READY in the L2 of the address's home cluster when that cluster hosts its kernel and has room; no register changes. (R76, R78, R375) -/
def Obligations.WakesAndResumes : Prop :=
  ∀ (s : State) (m sl : Nat) (a : Acc) (l : Line), s.Arrives m sl a →
    (a.k = .wake → s.line? (a.ga / 128) = some l → l.life = .live → l.heldFaults = [] → ∃ (t : State) (x : Line),
      exec (.wakeApply m) s = .next t ∧ t.line? (a.ga / 128) = some x ∧ x.pc = l.pc ∧ x.v = l.v ∧
      x.pw = l.pw ∧ (l.wtKind = 7 → x.wt = 0#32 ∧ x.tsw = l.tsw) ∧ (l.wtKind ≠ 7 → x.wt = l.wt ∧ x.wk = true)) ∧
    (∀ mode pc, a.k = .resume mode pc → s.line? (a.ga / 128) = some l → l.life = .live → l.wtKind = 6 → l.priv ≤ a.w.priv → l.heldFaults = [] →
      ∃ (t : State) (x : Line), exec (.resumeApply m) s = .next t ∧ t.line? (a.ga / 128) = some x ∧ x.wt = 0#32 ∧ x.tnd = 0 ∧ x.v = l.v ∧ x.pw = l.pw ∧
        x.pc = (match mode with
          | .replay => l.pc
          | .skip => l.pc + (if wfld l.cause 27 2 = 1 then 2#64 else if wfld l.cause 27 2 = 2 then 4#64 else 0#64)
          | .handler => pc) ∧
        (mode = .replay → x.ap = l.ap) ∧ (mode ≠ .replay → x.ap = false)) ∧
    (a.k = .migr → s.line? a.w.key = some l → l.life = .live → l.wtKind = 1 → l.heldFaults = [] → sl ≠ clusterOf a.w.site →
      s.clHosts sl l.part l.kid = true → l.bound = none → (s.linesIn (.l2 sl)).length < l2Size → ∃ (t : State) (x : Line), exec (.migrateMove m) s = .next t ∧
        t.line? a.w.key = some x ∧ x.wt = 0#32 ∧ x.place = .l2 sl ∧ x.pc = l.pc ∧ x.v = l.v ∧ x.pw = l.pw ∧ x.stamp = l.stamp)

/-- SRSEED_WRITE, TSW_WRITE, TRCCTL_WRITE and GSWT_WRITE set the core's LFSR, the line's COOKIE, DLX and SVC alone, the core's trace control with FRZ and the reserved bits clear, and the partition's switch time with `$gsstat` pending; a GSWT_WRITE without a save area or while a switch runs sets ERR and leaves the time. CTBL_WRITE puts four entries into the shadow copy of a type 3 table and its quad selector, the other entries of the copy as before. RCP_WRITE, once no commit and no other write of the stream that arrived before it is under way, sets the stream's recovery point and makes NEXT follow the mark of the record in HBM, or be 1 with V clear where V = 0 or the record lies outside HBM, and its writer goes on. (R79, R94, R379, R383, R385, R398) -/
def Obligations.RegisterSteps : Prop :=
  ∀ (s : State) (v : Word),
    (∀ c, ∃ t, exec (.srseedWrite c v) s = .next t ∧ (t.core c).lfsr = seedOf v ∧ t.lines = s.lines) ∧
    (∀ key l, s.line? key = some l → ∃ t x, exec (.tswWrite key v) s = .next t ∧ t.line? key = some x ∧ x.pc = l.pc ∧ x.v = l.v ∧
      x.pw = l.pw ∧ x.wt = l.wt ∧
      ∀ k, k < 64 → x.tsw.getLsbD k = if 32 ≤ k ∨ (16 ≤ k ∧ k ≤ 23) ∨ k = 4 then v.getLsbD k else l.tsw.getLsbD k) ∧
    (∀ c, ∃ t, exec (.trcctlWrite c v) s = .next t ∧ (t.core c).trace.recs = (s.core c).trace.recs ∧ t.lines = s.lines ∧
      ∀ k, k < 64 → (t.core c).trace.ctl.getLsbD k = if k = 11 ∨ 46 ≤ k ∨ (13 ≤ k ∧ k ≤ 15) then false else v.getLsbD k) ∧
    (∀ p, (wfld (s.part p).gsstat 0 2 ≠ 2 → (s.part p).gsout ≠ 0#64 → ∃ t, exec (.gswtWrite p v) s = .next t ∧ (t.part p).gswt = v ∧
        wfld (t.part p).gsstat 0 2 = 1 ∧ (t.part p).gsstat.getLsbD 2 = false) ∧
      (wfld (s.part p).gsstat 0 2 = 2 ∨ (s.part p).gsout = 0#64 → ∃ t, exec (.gswtWrite p v) s = .next t ∧
        (t.part p).gsstat.getLsbD 2 = true ∧ wfld (t.part p).gsstat 0 2 = wfld (s.part p).gsstat 0 2 ∧ (t.part p).gswt = (s.part p).gswt)) ∧
    (∀ m x site n, s.msg? m = some x → x.body = .ctbl site n v → ∃ t, exec (.ctblWrite m) s = .next t ∧
      tgetD (t.cl (clusterOf site)).t3sel n 0 = wfld v 44 2 ∧
      (∀ k, k < 16 → k / 4 ≠ wfld v 44 2 → ((t.cl (clusterOf site)).shadow n).getD k ⟨0#8, 0#3⟩ =
        ((s.cl (clusterOf site)).shadow n).getD k ⟨0#8, 0#3⟩) ∧
      ∀ k, k < 4 → ((t.cl (clusterOf site)).shadow n)[4 * wfld v 44 2 + k]? =
          some { i := BitVec.ofNat 8 (wfld v (11 * k) 8), f := BitVec.ofNat 3 (wfld v (11 * k + 8) 3) }) ∧
    (∀ m x w st here, s.msg? m = some x → x.body = .rcp w st v here → s.committing w.part st (if here then m else s.nextId) = false → ∃ t, exec (.rcpWrite m) s = .next t ∧
      (v.getLsbD 63 = true → wfld v 5 47 * 32 < hbmEnd → ((t.part w.part).stream st).next = s.rdNat (wfld v 5 47 * 32) 8 + 1 ∧
        ((t.part w.part).stream st).rcp = W (wfld v 5 47 * 32 + 2 ^ 63)) ∧
      (v.getLsbD 63 = false ∨ hbmEnd ≤ wfld v 5 47 * 32 → ((t.part w.part).stream st).next = 1 ∧
        ((t.part w.part).stream st).rcp.getLsbD 63 = false) ∧
      ∀ l, s.line? w.key = some l → l.life = .live → l.wt = 0x10000001#32 → l.heldFaults = [] → ∃ y, t.line? w.key = some y ∧
        y.wt = 0#32 ∧ y.pc = l.pc ∧ y.v = l.v ∧ y.pw = l.pw)

/-- At the home of a frame: an append that fits an OPEN page without a pending seal reserves the next bytes, last behind the earlier ones, and one that does not fit, or finds the page SEALED or sealing, answers all ones with p15 = 0; the oldest reserved append, once its bytes are performed, is published, its descriptor's TAIL set to its end, and answered with its offset and p15 = 1; a seal of an OPEN page, on a mirrored page once PDC = 0, waits, and one of a SEALED page is answered; when no append is pending the page is SEALED and every waiting seal is answered. A load of a SEALED page from another die than its append home's uses the replica there, or gets one where a frame of the replica area can be had, and is answered from it. A reclaim of a frame without replicas marks it RECLAIMING and refuses each waiting seal with APPEND 0x04, and its completion, with RREF = 0 and no append left, makes it OPEN and empty. `xinv` drops a slice's translations of its range, and a core's instruction lines of the address space and stash lines of the range, and is acknowledged; each acknowledgement takes 1 from its issuer's wait, a slice's once what it had accepted under the old translation is performed, no copy runs and no reclaim is left. (R252, R256, R259, R260, R262, R263, R264, R265, R266, R267) -/
def Obligations.AppendSteps : Prop :=
  (∀ (s : State) (m sl : Nat) (a : Acc), s.Arrives m sl a → a.leaf.cls = 1 → a.leaf.peer = false →
    ∀ (u : State) (f : Nat) (x : Append) (d : ADesc), u = s.drop m → f = a.ga / 4096 → x = u.app a.w.part f →
    d = u.adesc a.w.part (f * 4096) → d.bad = false →
    (∀ data dst, a.k = .apnd data dst → d.state = 0 → x.seals = [] → x.nx + data.length ≤ 4096 →
      ∃ t grps, exec (.appendArrival m) s = .next t ∧ tget t.appends f = some { x with
        nx := x.nx + data.length, mir := a.leaf.mir, segs := x.segs ++ [{ off := x.nx, len := data.length, who := a.w, dst := dst, grps := grps }] }) ∧
    (∀ data dst, a.k = .apnd data dst → d.state < 2 → (d.state = 1 ∨ x.seals ≠ [] ∨ 4096 < x.nx + data.length) →
      exec (.appendArrival m) s = .next (u.send (.slice sl) (.line a.w.key) vnReply
        (.reply a.w { regs := [(dst, W (2 ^ 64 - 1))], flags := Flags.none, p15 := some false } false false 0))) ∧
    (a.k = .seal → (a.leaf.mir = false ∨ ∀ l, s.line? a.w.key = some l → l.pdc = 0) →
      (d.state = 0 → ∃ t, exec (.sealArrival m) s = .next t ∧
        tget t.appends f = some { x with seals := x.seals ++ [a.w], mir := a.leaf.mir } ∧ t.net = u.net) ∧
      (d.state = 1 → ∃ t y, exec (.sealArrival m) s = .next t ∧ t.net = u.net ++ [y] ∧ y.dst = .line a.w.key ∧
        y.body = .reply a.w Answer.none false false 0))) ∧
  (∀ (s : State) (f home : Nat) (x : Append) (d : ADesc), tget s.appends f = some x → home = s.homeAt x.part (f * 64) → s.slDown home = false →
    s.mirrorDown x.mir x.part f = false → d = s.adesc x.part (f * 4096) →
    (∀ g rest, x.segs = g :: rest → (∀ i ∈ g.grps, s.openGroup i = false) → ∃ t y, exec (.tailPublish f) s = .next t ∧
      tget t.appends f = some { x with segs := rest } ∧ t.mem = (s.setAdesc x.part (f * 4096) { d with tail := g.off + g.len } x.mir).mem ∧
      y ∈ t.net ∧ y.dst = .line g.who.key ∧
      y.body = .reply g.who { regs := [(g.dst, W g.off)], flags := Flags.none, p15 := some true } false false 0) ∧
    (x.segs = [] → x.seals ≠ [] → ∃ t, exec (.sealComplete f) s = .next t ∧ tget t.appends f = some { x with seals := [] } ∧
      t.mem = (s.setAdesc x.part (f * 4096) { d with state := 1 } x.mir).mem ∧
      ∀ w ∈ x.seals, ∃ y ∈ t.net, y.dst = .line w.key ∧ y.body = .reply w Answer.none false false 0) ∧
    (x.reclaims ≠ [] → x.replicas = [] → d.bad = false → (∀ w ∈ x.seals, w.key ≠ noKey) → ∃ t, exec (.reclaim f) s = .next t ∧
      tget t.appends f = some { x with seals := [] } ∧ t.mem = (s.setAdesc x.part (f * 4096) { d with state := 2 } x.mir).mem ∧
      ∀ w ∈ x.seals, ∃ y g, y ∈ t.net ∧ y.dst = .line w.key ∧ y.body = .fault w g false false 0 none false ∧ g.cls = 0x06 ∧ g.sub = 0x04)) ∧
  (∀ (s : State) (f : Nat) (x : Append) (d : ADesc), tget s.appends f = some x → d = s.adesc x.part (f * 4096) → d.bad = false → d.state = 2 →
    d.rref = 0 → x.segs = [] → s.mirrorDown x.mir x.part f = false → ∃ t, exec (.reclaimComplete f) s = .next t ∧
      t.mem = (s.setAdesc x.part (f * 4096) { tail := 0, state := 0, repl := 0, rref := 0, bad := false } x.mir).mem ∧
      tget t.appends f = some { x with nx := 0, segs := [], seals := [], replicas := [], reclaims := [] }) ∧
  (∀ (s u : State) (m sl f die : Nat) (a : Acc) (dst : LdDst) (d : Reg) (j n : Nat) (sx : Bool) (o : Order) (sc : Scope) (x : Append) (b : ADesc),
    s.accMsg? m = some (sl, a) → a.leaf.cls = 1 → dst = .reg d j sx → a.k = .load dst n o sc → u = s.drop m → f = a.ga / 4096 →
    die = dieOf a.w.site → x = u.app a.w.part f → b = u.adesc a.w.part (f * 4096) → die ≠ dieOfCl (s.homeAt a.w.part (f * 64)) →
    s.slDown sl = false → b.bad = false → b.state = 1 →
    (∀ fr at_, tget x.replicas die = some (fr, at_) → ∃ t y z, exec (.replicaMake m) s = .next t ∧ tget t.appends f = some y ∧
      tget y.replicas die = some (fr, s.cycle) ∧ t.net = u.net ++ [z] ∧ z.dst = .line a.w.key ∧
      z.body = .reply a.w (loadResult dst (t.readSealed a.w.part die a.leaf a.ga n)) (acqWide o sc) false 0) ∧
    (∀ v fr, tget x.replicas die = none → (u.setApp f { x with mir := a.leaf.mir }).replicaFrame a.w.part die = some (v, fr) →
      (u.setApp f x).replicaFrame a.w.part die ≠ none → s.accWaits sl a = false → s.accUnreached sl a = none →
      s.mirrorDown a.leaf.mir a.w.part f = false → ∃ t y, exec (.replicaMake m) s = .next t ∧
      tget t.appends f = some y ∧ tget y.replicas die = some (fr, s.cycle) ∧
      ∃ z ∈ t.net, z.dst = .line a.w.key ∧ z.body = .reply a.w (loadResult dst (t.readSealed a.w.part die a.leaf a.ga n)) (acqWide o sc) false 0)) ∧
  (∀ (s : State) (m : Nat) (x : Msg) (w : Who) (asid lo hi : Nat) (all : Bool), s.msg? m = some x → x.body = .xinv w asid all false lo hi →
    (∀ sl, x.dst = .slice sl → ∃ t, exec (.xinvInvalidate m) s = .next t ∧
      (∀ e ∈ (t.cl sl).tcache, ¬ ((all = true ∨ e.1 / 2 ^ 42 = asid) ∧ lo ≤ e.1 % 2 ^ 42 * 4096 ∧ e.1 % 2 ^ 42 * 4096 < hi)) ∧
      ∃ y ∈ t.net, y.dst = .line w.key ∧ y.body = .xinvAck w asid all lo hi) ∧
    (∀ c, x.dst = .core c → ∃ t, exec (.xinvInvalidate m) s = .next t ∧
      (∀ e ∈ (t.core c).icache, ¬ (all = true ∨ e.1 / 2 ^ 48 = asid)) ∧
      (∀ y ∈ (t.core c).stash, ¬ ((all = true ∨ y.asid = asid) ∧ lo ≤ y.va ∧ y.va < hi)) ∧
      ∃ y ∈ t.net, y.dst = .line w.key ∧ y.body = .xinvAck w asid all lo hi)) ∧
  (∀ (s : State) (m n : Nat) (w : Who) (l : Line) (asid lo hi : Nat) (all : Bool) (unit : Node),
    s.find? m = some (.xinvAck w asid all lo hi) → (s.net.find? fun y => y.id == m).map (·.src) = some unit →
    ((∃ c, unit = .core c) ∨ ((∃ sl, unit = .slice sl) ∧ s.underOld m unit asid all lo hi = false ∧
      (∀ c ∈ s.clusters, ∀ y ∈ c.2.copies, y.started = false) ∧ ∀ e ∈ s.appends, w.key ∉ e.2.reclaims)) → s.answers w = true →
    s.line? w.key = some l → l.wt = mkWt 1 (n + 1) → n < 2 ^ 20 → l.heldFaults = [] → ∃ t y, exec (.xinvAck m) s = .next t ∧
      t.line? w.key = some y ∧ y.wt = (if n = 0 then 0#32 else mkWt 1 n) ∧ y.pc = l.pc ∧ y.v = l.v ∧ y.pw = l.pw)

/-- A local barrier without THR whose arrivals and bytes reach its counts, but not the next phase's, and that nobody waits for, advances its phase by 1 and takes the counts off; a completion makes the context that waits on that barrier and phase READY and leaves a line that waits on no barrier alone; bytes that arrive in turn at an ACTIVE barrier that lacks more of them are counted; a notification, from a core or from a Troty peer, that arrives in turn at a barrier that is not INVALID and not yet complete sets its round's bit of its parity; a notification that comes back because no core serves there leaves the barrier INVALID; a group table with the issuer as member makes the barrier ACTIVE with the table's counts, and its context is answered. (R68, R331, R335, R338, R340, R341, R344) -/
def Obligations.BarrierPhases : Prop :=
  (∀ (s : State) (site i : Nat) (b : Bar), b = (s.core site).bar i → b.state = 1 → b.loc = false → b.group = false → b.thr = false →
    b.expa ≤ b.arra → b.expbc ≤ b.arrb → (b.arra - b.expa < b.expa ∨ b.arrb - b.expbc < b.expb) → (s.core site).waiters = [] →
    ((s.runBar site i).core site).bar i =
      { b with blk := false, arra := b.arra - b.expa, arrb := b.arrb - b.expbc, expbc := b.expb, phase := (b.phase + 1) % 2 ^ 16 }) ∧
  (∀ (s : State) (m key b v : Nat) (aw grp : Bool) (l : Line), s.find? m = some (.barDone key b v aw grp) → s.line? key = some l →
    l.life = .live →
    (l.wt = mkWt 2 (b * 2 ^ 22 + v) → b < 64 → v < 2 ^ 16 → l.heldFaults = [] → ∃ t x, exec (.barrierCompletion m) s = .next t ∧
      t.line? key = some x ∧ x.wt = 0#32 ∧ x.pc = l.pc ∧ x.v = l.v ∧ x.pw = l.pw ∧ (aw = true → x.ap = false)) ∧
    (l.wtKind ≠ 2 → exec (.barrierCompletion m) s = .next (s.drop m))) ∧
  (∀ (s : State) (m site part kid b n cid op i : Nat) (x : Bar), s.find? m = some (.bytes site part kid b n cid op) →
    (s.core site).serves = true → s.barPlace site part kid b = some i → s.barTurn site i rankBytes = true → x = (s.core site).bar i →
    x.state = 1 → x.loc = false → x.arrb + n < 2 ^ 32 → (x.arra < x.expa ∨ x.arrb + n < x.expbc) → ∃ t, exec (.byteArrival m) s = .next t ∧
      (t.core site).bar i = { x with arrb := x.arrb + n }) ∧
  (∀ (s : State) (site kid b round parity i : Nat) (x : Bar), s.barPlace site (s.partOf site) kid b = some i → s.barTurn site i rankNotif = true →
    (s.core site).serves = true → x = (s.core site).bar i →
    (x.state = 0 ∨ (x.state = 1 ∧ x.loc = false ∧ (x.arra < x.expa ∨ x.arrb < x.expbc))) →
    (∀ (m : Nat) (y : Msg) (n : Notif), s.msg? m = some y → y.body = .notif site n → n.to_ = none → n.kid = kid → n.b = b →
      n.round = round → n.parity = parity → parity < 2 → ∃ t, exec (.notification (.message m)) s = .next t ∧
        t.net = s.net.filter (fun z => z.id != m) ∧ (t.core site).bar i =
          (if parity = 0 then { x with rcv0 := x.rcv0 ||| 2 ^ round } else { x with rcv1 := x.rcv1 ||| 2 ^ round })) ∧
    (∀ (p : PeerNotif), s.siteOfLogical p.to_ = some site → s.peerRoute p.dev = true → (s.part (s.partOf site)).gsstat.toNat % 4 ≠ 2 → p.kid = kid → p.b = b → p.round = round →
      p.parity % 2 = parity → ∃ t, exec (.notification (.peer p)) s = .next t ∧ t.net = s.net ∧ (t.core site).bar i =
        (if parity = 0 then { x with rcv0 := x.rcv0 ||| 2 ^ round } else { x with rcv1 := x.rcv1 ||| 2 ^ round }))) ∧
  (∀ (s : State) (m site i : Nat) (n : Notif), s.find? m = some (.notifNet site n) → s.barPlace site (s.partOf site) n.kid n.b = some i →
    (s.core site).waiters = [] → ∃ t, exec (.notificationNetReply m) s = .next t ∧ ((t.core site).bar i).state = 2) ∧
  (∀ (s u v : State) (m sl b gn gi : Nat) (a : Acc) (h bs : List Byte), s.Arrives m sl a → a.k = .groupTable b →
    (s.drop m).pull a.w .record a.va 8 = .ok (u, h) → gn = leField h 0 2 → 0 < gn → gn ≤ 4096 →
    u.pull a.w .record a.va (8 + 4 * gn) = .ok (v, bs) →
    tableIndex (tableMembers bs gn) ((s.drop m).logical a.w.site) (leField bs 2 2) (leField bs 4 4) = some gi → (s.drop m).answers a.w = true →
    ∃ t x z, exec (.groupTableRead m) s = .next t ∧
      x = (t.core a.w.site).bar ((((s.drop m).core a.w.site).ks.getD a.w.ks KSlot.reset).barBase + b) ∧ x.state = 1 ∧ x.group = true ∧
      x.expa = leField bs 2 2 ∧ x.expb = leField bs 4 4 ∧ x.gn = gn ∧ x.gi = gi ∧ x.arra = 0 ∧ x.arrb = 0 ∧
      z ∈ t.net ∧ z.dst = .line a.w.key ∧ z.body = .reply a.w Answer.none true false 0)

/-- POWER_UP with no good firmware in either slot, or with a device image that does not verify, leaves the package in reset, and with both good powers it with that image; once every die's boot is over the package has the partitions of the Regulator's stored map, or is one partition where none is stored, and every line keeps its PC and registers; the first probe that reaches a router, from one that got its own in an earlier cycle, gives it its parent, and an enabled site there reports itself; PRESENT marks a core in the map; DONE adds its count at the boot core's router; a map that the flood allows gives each core it names its position, and any other sets ERR; GO sets ERR too where the flood is not over or COUNT is not that of the cores present, and for an image before MAPOK or with a bad length; an image stream that was let go goes to cluster 0; a cluster forwards the stream and hands it to its cores; and a core whose data has the signed digest is marked verified. (R427, R428, R436, R437, R438) -/
def Obligations.BootSteps : Prop :=
  (∀ (s : State) (img : List Byte), s.reg.powered = false → s.reg.chooseSlot = none → ∃ t, exec (.powerUp img) s = .next t ∧
    t.reg.powered = true ∧ t.reg.failed = true ∧ t.lines = s.lines) ∧
  (∀ (s : State) (img : List Byte) (b : Bool), s.reg.powered = false → s.reg.chooseSlot = some (b, false) → firmwareOk img = false →
    ∃ t, exec (.powerUp img) s = .next t ∧ t.reg.failed = true) ∧
  (∀ (s : State) (img : List Byte) (b sp : Bool), s.reg.powered = false → s.reg.chooseSlot = some (b, sp) → firmwareOk img = true →
    ∃ t, exec (.powerUp img) s = .next t ∧ t.reg.powered = true ∧ t.reg.booted = true ∧ t.reg.runsB = b ∧ t.reg.device = img) ∧
  (∀ (s : State) (img : List Byte), s.reg.powered = true → s.reg.booted = true → s.bootOver = true → ∃ t, exec (.powerUp img) s = .next t ∧
    t.parts = s.reg.partitions ∧ (s.reg.stored = [] → t.parts = [(0, { Part.reset 0xFFFF with rom := true })]) ∧
    ∀ key l, s.line? key = some l → ∃ x, t.line? key = some x ∧ x.part = partIn s.reg.partitions (l.anchor.getD 0) % 256 ∧ x.pc = l.pc ∧ x.v = l.v ∧ x.pw = l.pw ∧ x.wt = l.wt) ∧
  (∀ (s : State) (die port r : Nat) (y : Router), (s.flood die).state = 1 → die < 4 → r < 1024 → port ∈ portsOf r →
    (s.flood die).router? (beyond r port) = some y → y.parent ≠ some (facing port) → (y.parent = none ∨ y.at_ ≠ s.cycle) → (s.flood die).router? r = none →
    s.enabled (die * 1024 + r) = true → ∃ t x, exec (.probe die port r) s = .next t ∧ (t.flood die).router? r = some x ∧
      x.parent = some port ∧ ∃ z ∈ t.net, z.body = .present die r) ∧
  (∀ (s : State) (m die r : Nat), s.find? m = some (.present die r) → ∃ t, exec (.present m) s = .next t ∧ r ∈ (t.flood die).present) ∧
  (∀ (s : State) (m die r port n : Nat) (x : Router), s.find? m = some (.floodDone die r port n) → (s.flood die).router? r = some x →
    x.parent = none → ∃ t y, exec (.done m) s = .next t ∧ (t.flood die).router? r = some y ∧ y.sum = x.sum + n ∧ port ∈ y.dones) ∧
  (∀ (f : Flood) (n : Nat), n < 2 ^ 11 →
    (f.write 0x10 (2 ^ 31 + n) (2 ^ 31 + n)).mapGo = (if f.state = 2 ∧ n = f.present.length then f.mapGo ++ [(f.mapbase, n)] else f.mapGo) ∧
    (f.write 0x10 (2 ^ 31 + n) (2 ^ 31 + n)).mapErr = (f.mapErr || !decide (f.state = 2 ∧ n = f.present.length))) ∧
  (∀ (f : Flood) (n : Nat) (ok : Prop), n < 2 ^ 16 → ok = (f.mapOk = true ∧ n % 64 = 0 ∧ 0 < n ∧ n ≤ 32768) →
    (ok → (f.write 0x20 (2 ^ 31 + n) (2 ^ 31 + n)).imgGo = f.imgGo ++ [(f.imgbase, n)]) ∧
    (¬ ok → (f.write 0x20 (2 ^ 31 + n) (2 ^ 31 + n)).imgGo = f.imgGo ∧ (f.write 0x20 (2 ^ 31 + n) (2 ^ 31 + n)).imgErr = true)) ∧
  (∀ (s : State) (die base n : Nat) (rest : List (Nat × Nat)), (s.flood die).mapGo = (base, n) :: rest →
    (((s.flood die).refusesMap n (s.mapTable base).2 = true → ∃ t, exec (.mapInstall die) s = .next t ∧ (t.flood die).mapErr = true) ∧
     ((s.flood die).refusesMap n (s.mapTable base).2 = false → ∃ t, exec (.mapInstall die) s = .next t ∧ (t.flood die).mapOk = true ∧
       (t.flood die).mapGo = rest ∧ ∀ k r, (((s.mapTable base).2.take n)[k]?) = some r → (t.core (die * 1024 + r)).pos = some k))) ∧
  (∀ (s : State) (die base n : Nat) (rest : List (Nat × Nat)), (s.flood die).imgGo = (base, n) :: rest → ∃ t y,
    exec (.imageStream die) s = .next t ∧ (t.flood die).imgGo = rest ∧ y ∈ t.net ∧ y.dst = .slice (64 * die) ∧
      y.body = .image die 0 none (parseDevice s.reg.device).digest base (s.regFetch base n).2 (t.flood die).streams) ∧
  (∀ (s : State) (m die cl dg base no : Nat) (data : List Byte), s.find? m = some (.image die cl none dg base data no) → ∃ t,
    exec (.imageReceive m) s = .next t ∧ (cl < 7 → ∃ y ∈ t.net, y.body = .image die (cl + 1) none dg base data no) ∧
      (cl + 8 ≤ 63 → ∃ y ∈ t.net, y.body = .image die (cl + 8) none dg base data no) ∧
      (∀ k, k < 16 → s.enabled (siteOf (64 * die + cl) k) = true →
        ∃ y ∈ t.net, y.body = .image die cl (some (siteOf (64 * die + cl) k)) dg base data no)) ∧
  (∀ (s : State) (m die cl site dg base no : Nat) (data : List Byte), s.find? m = some (.image die cl (some site) dg base data no) →
    no = (s.flood die).streams → Config.sha256 data = dg → ∃ t, exec (.imageReceive m) s = .next t ∧ site % 1024 ∈ (t.flood die).ok)

/-- At the turn of a cluster's copy engine, in arrival order: a copy with room in the queue, whose source handle has fewer than 4,095 readers and no unchecked row, is accepted, adds 1 to the reference count of the handle it reads, and its context goes on; the next accepted copy starts once no write of its issuer that it must follow is outstanding and the copy before it has read its source, and before that nothing happens. A started copy whose next row was checked moves its next piece: a `cpy.t2t` without MASK from one handle to the other, writing no other byte of the scratchpad or of memory, a `cpy.g2t` without MASK or a `cpy.gat` the bytes it reads from global memory into its handle, and a `cpy.t2g` or `cpy.sca` whose lines pass their checks and have room for a pin its bytes towards global memory. A receiver of a multicast writes its own handle or reports HANDLE 0x07 to the issuer and writes nothing; a complete copy leaves the engine and makes each signal its option word asks for, its operation open while a semaphore post or a completion word of it is still to be made; and one with an error leaves it with a fault on its way and no signal. (R177, R184, R185, R187, R188, R189, R190, R191, R192) -/
def Obligations.CopySteps : Prop :=
  (∀ (s : State) (m cl : Nat) (x : Msg) (c : Copy) (l : Line), s.engineMsg? m = some x → x.dst = .engine cl → x.body = .copyReq c →
    c.op ≠ .apnd → s.answers c.who = true → s.line? c.who.key = some l → l.wt = 0x90000001#32 → l.heldFaults = [] →
    (s.cl cl).copies.length < 32 →
    (∀ h, c.source = some h → (∃ y, ((s.core c.who.site).ks.getD c.who.ks KSlot.reset).handle h = some y ∧ y.refs < 4095) ∧
      (s.cl cl).unchecked = []) →
    ∃ t y, exec (.copyAccept m) s = .next t ∧ (t.cl cl).copies = (s.cl cl).copies ++ [c] ∧ t.line? c.who.key = some y ∧ y.wt = 0#32 ∧
      y.pc = l.pc ∧ y.v = l.v ∧ y.pw = l.pw ∧ t.mem = s.mem ∧
      (∀ h, c.source = some h → (((t.core c.who.site).ks.getD c.who.ks KSlot.reset).handle h).map (·.refs) =
        (((s.core c.who.site).ks.getD c.who.ks KSlot.reset).handle h).map fun z => z.refs + 1)) ∧
  (∀ (s : State) (cl : Nat) (x : Copy), (s.cl cl).copies.find? (fun y => !y.started) = some x →
    ((∃ i ∈ x.after, (tget s.ops i).isSome = true) ∨ (∃ y ∈ (s.cl cl).copies, y.started = true ∧ y.srcRead = false ∧ y.err = none) →
      exec (.copyStart cl) s = .next s) ∧
    ((∀ i ∈ x.after, tget s.ops i = none) → (∀ y ∈ (s.cl cl).copies, y.started = true → y.srcRead = true ∨ y.err ≠ none) →
      ∃ t, exec (.copyStart cl) s = .next t ∧ { x with started := true } ∈ (t.cl cl).copies ∧ t.cores = s.cores ∧ t.lines = s.lines ∧
        t.net = s.net ∧ t.mem = s.mem)) ∧
  (∀ (s : State) (cl id : Nat) (c : Copy) (k : KSlot), (s.cl cl).copies.find? (fun y => y.id == id) = some c → c.started = true →
    c.srcRead = false → c.err = none → s.rowUnchecked cl c = false → k = (s.core c.who.site).ks.getD c.who.ks KSlot.reset →
    (∀ n, n = min 32 (c.rowBytes - c.moved % c.rowBytes) → c.op = .t2t → optMask c.opt = 0 → ∃ t, exec (.sourceReadComplete cl id) s = .next t ∧
      (t.core c.who.site).scratch = memWrite (s.core c.who.site).scratch (c.scratchAt k c.h)
        (memRead (s.core c.who.site).scratch (c.scratchAt k c.hA) n) ∧
      (∀ a, (a < c.scratchAt k c.h ∨ c.scratchAt k c.h + n ≤ a) →
        memGet (t.core c.who.site).scratch a = memGet (s.core c.who.site).scratch a) ∧
      (∀ a, t.rdByte a = s.rdByte a) ∧ ∃ y ∈ (t.cl cl).copies, y.id = id ∧ y.moved = c.moved + n) ∧
    (∀ u bs, (c.op = .g2t ∧ optMask c.opt = 0) ∨ c.op = .gat →
      s.copyRead c.who c.sc (c.globalAt (s.core c.who.site) k) c.piece = .ok (u, bs) → ∃ t, exec (.sourceReadComplete cl id) s = .next t ∧
        (t.core c.who.site).scratch = memWrite (u.core c.who.site).scratch
          (c.scratchAt ((u.core c.who.site).ks.getD c.who.ks KSlot.reset) c.h) bs ∧
        ∃ y ∈ (t.cl cl).copies, y.id = id ∧ y.moved = c.moved + bs.length) ∧
    (∀ v bs ls, c.op = .t2g ∨ c.op = .sca → bs = memRead (s.core c.who.site).scratch (c.scratchAt k c.h) c.piece →
      ls = linesOf (c.globalAt (s.core c.who.site) k) bs.length → s.engCheck c.who (.engWrite (c.sc == .recov)) [] ls = .ok v →
      v.pinRoom c.who (.engWrite (c.sc == .recov)) ls = true → ∃ t, exec (.sourceReadComplete cl id) s = .next t ∧
        (t.core c.who.site).scratch = (v.core c.who.site).scratch ∧ t.mem = v.mem ∧
        ∃ y ∈ (t.cl cl).copies, y.id = id ∧ y.moved = c.moved + bs.length)) ∧
  (∀ (s : State) (m cl id site h rows cols fmt : Nat) (x : Msg) (w : Who) (data : List Byte), s.msg? m = some x →
    x.body = .mcast cl id site w h rows cols fmt data → (s.core site).serves = true → w.key ≠ noKey →
    (∀ (c : Copy) (o : OpInfo) (i : Nat) (y : Handle), (s.cl cl).copies.find? (fun z => z.id == id) = some c → tget s.ops c.id = some o →
      (s.core site).slotOf w.part o.kid = some i → ((s.core site).ks.getD i KSlot.reset).handle h = some y → y.st = .open_ →
      y.rows = rows → y.cols = cols → y.fmt = fmt → ∃ t, exec (.multicastDelivery m) s = .next t ∧
        (t.core site).scratch = writeRows ((s.core site).ks.getD i KSlot.reset) y (s.core site).scratch data ∧
        t.net = s.net.filter (fun z => z.id != m) ∧ ∃ z ∈ (t.cl cl).copies, z.id = id ∧ z.recv = c.recv ++ [site]) ∧
    ((∀ i, ((s.core site).ks.getD i KSlot.reset).handle h = none) → ∃ t, exec (.multicastDelivery m) s = .next t ∧ t.cores = s.cores ∧
      ∃ z ∈ t.net, z.dst = .line w.key ∧ z.body =
        .fault w { cls := 0x08, sub := 0x07, kind := kEngine, size := 0xF, faddr := W (s.logical site) } true false 0
          (((s.cl cl).copies.find? fun y => y.id == id).map fun y => y.record y.cid) false)) ∧
  (∀ (s : State) (cl id : Nat) (c : Copy), (s.cl cl).copies.find? (fun y => y.id == id) = some c →
    (c.srcRead = true → c.err = none → s.writing id = false → s.casting cl c = false → ∃ t, exec (.copyComplete cl id) s = .next t ∧
      (t.cl cl).copies = (s.cl cl).copies.filter (fun y => y.id != id) ∧ t.cores = s.cores ∧ t.lines = s.lines ∧ t.mem = s.mem ∧
      (optBe c.opt = true → ∀ r ∈ (if c.op.casts = true ∧ optMask c.opt ≠ 0 then c.recv else [c.who.site]), ∃ z ∈ t.net,
        z.dst = .core r ∧ z.body = .bytes r c.who.part (((tget s.ops id).map (·.kid)).getD 0) (optBar c.opt) c.total c.cid id) ∧
      (∀ va, c.cw = some va → t.ops = s.ops ∧ ∃ z ∈ t.net, z.body = .req c.who va (.engAdd c.sc 0) id false) ∧
      (optSe c.opt = true → t.ops = s.ops ∧ ∃ z ∈ t.net, z.body = .semPost cl (optSem c.opt) id) ∧
      (optSe c.opt = false → c.cw = none → t.ops = (s.doneOp id).ops) ∧
      (optBe c.opt = false → c.cw = none → optSe c.opt = false → t.net = s.net)) ∧
    (∀ f, c.err = some f → c.who.key ≠ noKey → ∃ t z, exec (.copyError cl id) s = .next t ∧
      (t.cl cl).copies = (s.cl cl).copies.filter (fun y => y.id != id) ∧ t.mem = s.mem ∧ t.net = s.net ++ [z] ∧ z.dst = .line c.who.key ∧
      z.body = .fault c.who f (c.op != .apnd) false id (if c.op = .apnd then none else some (c.record c.cid)) false))

/-- The oldest operation of a core's idle tile vector unit, on handles of the scratchpad and with good scale records, leaves the queue when it starts, once the stores of its issuer that it must follow are performed and the cluster has energy left, and is computed from the scratchpad as it then stands, each row of the result meant for its row of hD, or, where hD shares bytes with another source, with free bytes in them; one with a reserved bit in a scale record ends with FMT 0x01 and writes nothing; a beat whose residues differ is computed again, and where it differs a second time the core stops for containment; when the operation completes, its rows are written, every other byte of the scratchpad and all of memory stay, its operation ends, and the context is told its flags. (R86, R101, R194, R195, R196, R197, R390) -/
def Obligations.TileVectorSteps : Prop :=
  (∀ (s : State) (c : Nat) (o : TvOp) (rest : List TvOp) (k : KSlot), (s.core c).tvRun = none → (s.core c).tvq = o :: rest →
    (s.core c).serves = true → (∀ i ∈ o.after, tget s.ops i = none) → (s.cl (clusterOf c)).account ≠ 0 →
    k = (s.core c).ks.getD o.who.ks KSlot.reset → o.hd.st ≠ .stash → o.ha.st ≠ .stash → o.hb.st ≠ .stash →
    tvScaleBad (s.core c).scratch k o o.hd o.ha = false → ∃ t r, exec (.tvStart c) s = .next t ∧ (t.core c).tvq = rest ∧
      (t.core c).tvRun = some r ∧ r.op = o ∧ (t.core c).scratch = (s.core c).scratch ∧ t.mem = s.mem ∧ t.lines = s.lines ∧
      (tvOverlap k o o.hd o.ha o.hb = false →
        r.writes = ((tvResult (s.core c).scratch k o o.hd o.ha o.hb (s.core c).lfsr).1.zipIdx.map fun x =>
          (k.rowAt o.hd x.2, rowOf o.hd.fmt x.1)) ∧
        r.flags = (tvResult (s.core c).scratch k o o.hd o.ha o.hb (s.core c).lfsr).2.1 ∧
        (t.core c).lfsr = (tvResult (s.core c).scratch k o o.hd o.ha o.hb (s.core c).lfsr).2.2) ∧
      (tvOverlap k o o.hd o.ha o.hb = true → r.writes.map (·.1) = (List.range o.hd.rows).map (k.rowAt o.hd))) ∧
  (∀ (s : State) (c : Nat) (o : TvOp) (rest : List TvOp), (s.core c).tvRun = none → (s.core c).tvq = o :: rest →
    (s.core c).serves = true → (∀ i ∈ o.after, tget s.ops i = none) → (s.cl (clusterOf c)).account ≠ 0 → o.who.key ≠ noKey → o.hd.st ≠ .stash → o.ha.st ≠ .stash → o.hb.st ≠ .stash →
    tvScaleBad (s.core c).scratch ((s.core c).ks.getD o.who.ks KSlot.reset) o o.hd o.ha = true → ∃ t z f, exec (.tvStart c) s = .next t ∧
      (t.core c).tvq = rest ∧ (t.core c).tvRun = none ∧ (t.core c).scratch = (s.core c).scratch ∧ t.net = s.net ++ [z] ∧
      z.body = .fault o.who f false false o.id none false ∧ f.cls = 0x07 ∧ f.sub = 0x01) ∧
  (∀ (s : State) (c : Nat) (r : TvRun), (s.core c).tvRun = some r → r.op.hd.st ≠ .stash → ∃ t z, exec (.tvComplete ⟨c, false, 0⟩) s = .next t ∧
    (t.core c).tvRun = none ∧ (t.core c).scratch = r.writes.foldl (fun m x => memWrite m x.1 x.2) (s.core c).scratch ∧
    (∀ a, (∀ x ∈ r.writes, a < x.1 ∨ x.1 + x.2.length ≤ a) → memGet (t.core c).scratch a = memGet (s.core c).scratch a) ∧
    t.mem = s.mem ∧ t.lines = s.lines ∧ t.ops = tdel s.ops r.op.id ∧ t.net = s.net ++ [z] ∧ z.dst = .line r.op.who.key ∧
    z.body = .opDone r.op.who r.flags) ∧
  (∀ (s : State) (c beat : Nat) (r : TvRun), (s.core c).tvRun = some r → ∃ t, exec (.tvComplete ⟨c, true, beat⟩) s = .next t ∧
    (t.core c).scratch = (s.core c).scratch ∧ t.mem = s.mem ∧ t.lines = s.lines ∧
    (r.again.contains beat = false → (t.core c).tvRun = some { r with again := beat :: r.again } ∧ (t.core c).life = (s.core c).life) ∧
    (r.again.contains beat = true → (s.core c).life = .active → (t.core c).life = .containing))

/-- At the home of the arena header a fork with room in its queue, whose frames the arena gives, two for a context without a frame and one otherwise, and whose accesses pass, pushes a record that names the target, the child's frame and the parent's join count at the level of the issuer's priority, and its context is answered; with no frame free it is refused with QUEUE 0x20. A `sync` or `exit` that finds its join count at 0 goes on or ends EXITED, and one with live children parks with WT kind 5, an `exit` with PC at itself. A pop of a record by a core that finds room materialises a READY context at the record's target with its frame and WID in the popping core's L1, and one for which no context record is free leaves everything as it is; a pop of a resume record moves the READY line it names there, or discards the record; a cluster with nothing to pop takes the oldest record that it may from the nearest other cluster of its partition, where that holds at least two such, and aging moves a record one level up, each with a new waiting time, where no record of the level it leaves is in the spill region. (R294, R297, R298, R299, R300, R302, R303, R304) -/
def Obligations.ForkAndJoinSteps : Prop :=
  (∀ (s : State) (m sl : Nat) (a : Acc) (l : Line), s.Arrives m sl a →
    s.line? a.w.key = some l → l.gen = a.w.gen → l.life = .live → a.w.emu = 0 →
    (∀ (tg : Word) (args : List Word) (ker : Kernel) (n : Nat), a.k = .fork tg args → ((s.drop m).part l.part).kernel? l.kid = some ker →
      (s.drop m).forkRoom (clusterOf a.w.site) (contLevel l.prio) = true → 64 ≤ ker.hdr.framesize → n = (if l.link = 0#64 then 2 else 1) →
      (∀ (u v : State) (fs : List Nat) (f p : Nat) (h : Arena),
        (s.drop m).allocFrames a.w ker.hdr (parseArena ((s.drop m).rd a.ga 64)) n = .ok (u, some (fs, h)) →
        fs = (if l.link = 0#64 then [p, f] else [f]) → (l.link ≠ 0#64 → p = l.link.toNat) →
        u.probeFrames a.w (if l.link = 0#64 then fs else l.link.toNat / 64 * 64 :: fs) = .ok v → ∃ t r, exec (.forkAllocate m) s = .next t ∧
          r ∈ (t.cl (clusterOf a.w.site)).level (contLevel l.prio) ∧ r.resume = false ∧ r.tgt = tg.toNat ∧ r.fp = f ∧
          r.ja = p + 8 ∧ r.wid = l.wid ∧ r.kid = l.kid ∧ r.trg = l.trg ∧ ∃ z ∈ t.net, z.dst = .line a.w.key ∧
            z.body = .reply a.w Answer.none false false 0) ∧
      (∀ u : State, (s.drop m).allocFrames a.w ker.hdr (parseArena ((s.drop m).rd a.ga 64)) n = .ok (u, none) → a.w.key ≠ noKey → ∃ t z f,
        exec (.forkAllocate m) s = .next t ∧ t.mem = s.mem ∧ t.lines = s.lines ∧ t.net = (s.drop m).net ++ [z] ∧
        z.body = .fault a.w f false false 0 none false ∧ f.cls = 0x0A ∧ f.sub = 0x20)) ∧
    (a.k = .sync → (s.drop m).rdNat (a.ga + 8) 8 = 0 → ∃ t z, exec (.syncTest m) s = .next t ∧ t.mem = s.mem ∧ t.lines = s.lines ∧
      t.net = (s.drop m).net ++ [z] ∧ z.dst = .line a.w.key ∧ z.body = .reply a.w Answer.none true false 0) ∧
    (a.k = .sync → (s.drop m).rdNat (a.ga + 8) 8 ≠ 0 → ∃ t x, exec (.syncTest m) s = .next t ∧ t.line? a.w.key = some x ∧
      x.wt = mkWt 5 0 ∧ x.life = .live ∧ x.pend = none) ∧
    (a.k = .exitJoin → (s.drop m).rdNat (a.ga + 8) 8 ≠ 0 → ∃ t x, exec (.joinCompletion m) s = .next t ∧
      t.line? a.w.key = some x ∧ x.wt = mkWt 5 0 ∧ x.pc = a.w.pc) ∧
    (∀ (ker : Kernel) (u v : State) (parent : Nat), a.k = .exitJoin → (s.drop m).rdNat (a.ga + 8) 8 = 0 → (s.drop m).rdNat a.ga 8 = parent →
      ((s.drop m).part l.part).kernel? l.kid = some ker → (s.drop m).probe a.w frameCat ker.hdr.framebase 64 true = .ok u →
      (parent = 0 ∨ (u.probe a.w frameCat parent 64 true = .ok v ∧ v.joinRoom a l parent = true)) → ∃ t x,
        exec (.joinCompletion m) s = .next t ∧ t.line? a.w.key = some x ∧ x.life = .exited ∧ x.wt = 0#32)) ∧
  (∀ (s : State) (c k lvl i : Nat) (r : Cont), s.popTurn c k = true → s.poppable (clusterOf c) c = some (lvl, i, r) →
    (r.resume = false → ∀ (ker : Kernel) (v : State), (s.part r.part).kernel? r.kid = some ker →
      s.makeRoom c r.part r.kid ker.hdr.prio = .ok v →
      (∀ (u x : State) (idx at_ : Nat) (bytes : List Byte), v.allocRecord ker (ker.who c) = .ok (u, some (idx, at_, bytes)) →
        (u.poke (ker.who c) frameCat (ker.hdr.framebase + at_) bytes).materialise ker idx
          { pc := W (r.tgt / 2 * 2), wid := r.wid, link := W r.fp, anchor := r.anchor, trg := r.trg, bindCode := r.bindCode,
            bindUnit := r.bindUnit, place := .l1 c, seeded := false, by_ := c } = .ok x →
        ∃ t key y, exec (.continuationPop c k) s = .next t ∧ x.line? key = some y ∧
          (((x.cl (clusterOf c)).level lvl).length ≤ contChip → t.line? key = some y) ∧ y.life = .live ∧ y.pc = W (r.tgt / 2 * 2) ∧
          y.wid = r.wid ∧ y.link = W r.fp ∧ y.pw = 1#32 ∧ y.wt = 0#32 ∧ y.v = List.replicate 8 0#64 ∧ y.place = .l1 c ∧
          (t.core c).lastPop = some x.cycle) ∧
      (∀ (u : State), v.allocRecord ker (ker.who c) = .ok (u, none) → exec (.continuationPop c k) s = .next s)) ∧
    (r.resume = true → (∀ key l u, s.lineOfCid r.part r.kid r.tgt = some (key, l) → l.bound = none → l.isReady = true →
        s.makeRoom c l.part l.kid (l.effPrio s.gtime) = .ok u → ∃ t x, exec (.resumeRecordPop c k) s = .next t ∧
          t.line? key = some x ∧ x.place = .l1 c ∧ x.pc = l.pc ∧ x.v = l.v ∧ x.pw = l.pw ∧ x.wt = l.wt ∧ (t.core c).lastPop = some u.cycle) ∧
      (s.lineOfCid r.part r.kid r.tgt = none → ((s.cl (clusterOf c)).level lvl).length ≤ contChip → ∃ t,
        exec (.resumeRecordPop c k) s = .next t ∧ t.lines = s.lines ∧
        ((t.cl (clusterOf c)).level lvl).map (fun x => { x with slot := none }) =
          (((s.cl (clusterOf c)).level lvl).eraseIdx i).map fun x => { x with slot := none }))) ∧
  (∀ (s : State) (cl c d lvl i : Nat) (r : Cont),
    (sortBy (hops cl) ((s.part (s.partOfCl cl)).clusters.filter fun d => d != cl)).head? = some d → d ≠ cl →
    ((List.range 16).map (siteOf cl)).find? (fun c => (List.range 8).any (s.slotIdle c) && (s.poppable cl c).isNone &&
      decide (2 ≤ ([3, 2, 1, 0].flatMap fun n => ((s.cl d).level n).filter (s.mayPop c)).length)) = some c →
    s.poppable d c = some (lvl, i, r) → ((s.cl d).level lvl).length ≤ contChip → s.contFree cl lvl = true → ((s.cl cl).level lvl).length < contChip →
    ∃ t, exec (.recordSteal cl) s = .next t ∧
      (∃ x, (t.cl cl).level lvl = (s.cl cl).level lvl ++ [x] ∧ { x with slot := none } = { r with since := s.gtime, slot := none }) ∧
      ((t.cl d).level lvl).map (fun x => { x with slot := none }) = (((s.cl d).level lvl).eraseIdx i).map fun x => { x with slot := none }) ∧
  (∀ (s : State) (cl lvl i : Nat) (r : Cont), lvl < 3 →
    ((s.cl cl).level lvl).findIdx? (fun x => decide (x.since + agingNs ≤ s.gtime)) = some i → ((s.cl cl).level lvl)[i]? = some r →
    ((s.cl cl).level lvl).length ≤ contChip →
    s.contFree cl (lvl + 1) = true → ((s.cl cl).level (lvl + 1)).length < contChip → ∃ t, exec (.recordAging cl lvl) s = .next t ∧
      ((t.cl cl).level lvl).map (fun x => { x with slot := none }) = (((s.cl cl).level lvl).eraseIdx i).map (fun x => { x with slot := none }) ∧
      ∃ x, (t.cl cl).level (lvl + 1) = (s.cl cl).level (lvl + 1) ++ [x] ∧ { x with slot := none } = { r with since := s.gtime, slot := none })

/-- At the home of a page of class NORMAL in this device, with no stash copy anywhere, every owner serving, no request held at the line and no qpop held at a mailbox: a load is answered with the bytes of the home, or, where a plain load finds a visitor copy on its die and no write of its own slice is pending there, with the bytes of the copy, and changes no byte of memory; a store, or the write of an engine operation, replaces exactly its bytes from its address on and is acknowledged; a completion word gains one; an atomic replaces exactly the bytes of its type by its operation's result, or nothing where a comparison fails, and answers with the old value, at once where it is relaxed or acquires and with the acknowledgement of its write where it releases; a prefetch answers nothing and changes no byte; an invalidation of the calling core's copy leaves that core owning nothing of the line and is answered. Every byte outside the stored ones reads as before. An acquire at dev or wider is marked so in its answer, and an sc write in its acknowledgement (log entry 95). (R137, R138, R143, R144, R147, R150, R166, R168, R224, R239) -/
def Obligations.HomeAccesses : Prop :=
  ∀ (s : State) (m sl : Nat) (a : Acc), s.Arrives m sl a → a.leaf.cls = 0 →
    a.leaf.peer = false → (∀ e ∈ s.cores, e.2.stash = [] ∧ (e.2.owned ≠ [] → (s.core e.1).serves = true)) → tget s.heldQ (a.ga / 64) = none → (∀ e ∈ s.lines, e.2.popWait = none) →
    (∀ (d : Reg) (n j : Nat) (sx : Bool) (o : Order) (sc : Scope) (dst : LdDst), (dst = .reg d j sx ∨ dst = .pair d) → a.k = .load dst n o sc →
      (plainLoad o sc = false ∨ (s.drop m).ownWritePending m (s.via a) (a.ga / 64) = true ∨
          tget s.visitors (vkey (a.ga / 64) (dieOf a.w.site)) = none → ∃ t z, exec (.homeAccess m) s = .next t ∧
        (∀ b, t.rdByte b = s.rdByte b) ∧ t.lines = s.lines ∧ z ∈ t.net ∧ z.dst = .line a.w.key ∧
        z.body = .reply a.w (loadResult dst (s.rd a.ga n)) (acqWide o sc) false 0) ∧
      (∀ v, tget s.visitors (vkey (a.ga / 64) (dieOf a.w.site)) = some v → plainLoad o sc = true →
        (s.drop m).ownWritePending m (s.via a) (a.ga / 64) = false → ∃ t z, exec (.homeAccess m) s = .next t ∧
        (∀ b, t.rdByte b = s.rdByte b) ∧ t.lines = s.lines ∧ t.visitors = s.visitors ∧ t.net = (s.drop m).net ++ [z] ∧ z.dst = .line a.w.key ∧
        z.body = .reply a.w (loadResult dst ((v.2.drop (a.ga % 64)).take n)) (acqWide o sc) false 0)) ∧
    (∀ (data : List Byte) (o : Order) (sc : Scope), a.k = .store data o sc → ∃ t z grp, exec (.homeAccess m) s = .next t ∧
      (∀ i, i < data.length → t.rdByte (a.ga + i) = data.getD i 0#8) ∧
      (∀ b, (b < a.ga ∨ a.ga + data.length ≤ b) → t.rdByte b = s.rdByte b) ∧ z ∈ t.net ∧ z.dst = .line a.w.key ∧
      z.body = .ack a.w a.tok grp (if (o = .rel ∨ o = .sc) ∧ (a.leaf.durable && sc == .recov) = false then some Answer.none else none)
        (scWide o sc)) ∧
    (∀ (data : List Byte) (sc : Scope), a.k = .eng data sc → ∃ t z grp, exec (.homeAccess m) s = .next t ∧
      (∀ i, i < data.length → t.rdByte (a.ga + i) = data.getD i 0#8) ∧
      (∀ b, (b < a.ga ∨ a.ga + data.length ≤ b) → t.rdByte b = s.rdByte b) ∧ z ∈ t.net ∧ z.dst = .engine (clusterOf a.w.site) ∧
      z.body = .eack a.w a.tok grp (narrow sc) (if sc = .recov && a.leaf.durable then some (partner (dieOfCl sl)) else none) (a.w.key == noKey)) ∧
    (∀ (sc : Scope) (after : Nat), a.k = .engAdd sc after → tget s.ops after = none → ∃ t z grp, exec (.homeAccess m) s = .next t ∧
      (∀ i, i < 8 → t.rdByte (a.ga + i) = (leBytes 8 (s.rdNat a.ga 8 + 1)).getD i 0#8) ∧
      (∀ b, (b < a.ga ∨ a.ga + 8 ≤ b) → t.rdByte b = s.rdByte b) ∧ z ∈ t.net ∧ z.dst = .engine (clusterOf a.w.site) ∧
      z.body = .eack a.w a.tok grp (narrow sc) (if sc = .recov && a.leaf.durable then some (partner (dieOfCl sl)) else none) true) ∧
    (∀ (op : AmoOp) (y : AmoType) (src cmp : Nat) (dst : Option Reg) (o : Order) (sc : Scope), a.k = .amo op y src cmp dst o sc false →
      ∃ t, exec (.homeAccess m) s = .next t ∧
        (∀ b, (b < a.ga ∨ a.ga + amoBytes y ≤ b) → t.rdByte b = s.rdByte b) ∧
        (∀ i, i < amoBytes y → t.rdByte (a.ga + i) =
          if amoWrites op y (s.rdNat a.ga (amoBytes y)) cmp = true then
            (leBytes (amoBytes y) (amoNew op y (s.rdNat a.ga (amoBytes y)) src cmp)).getD i 0#8
          else s.rdByte (a.ga + i)) ∧
        (∀ d, dst = some d → (o = .rlx ∨ o = .acq) → ∃ z ∈ t.net, z.dst = .line a.w.key ∧ ∃ c k,
          z.body = .reply a.w (amoAnswer y dst (s.rdNat a.ga (amoBytes y))) (acqWide o sc) c k) ∧
        (∀ d, dst = some d → (o = .rel ∨ o = .sc) → amoWrites op y (s.rdNat a.ga (amoBytes y)) cmp = true →
          (a.leaf.durable && sc == .recov) = false → ∃ z ∈ t.net, z.dst = .line a.w.key ∧ ∃ grp,
          z.body = .ack a.w a.tok grp (some (amoAnswer y dst (s.rdNat a.ga (amoBytes y)))) (scWide o sc))) ∧
    (a.k = .pref → ∃ t, exec (.homeAccess m) s = .next t ∧ (∀ b, t.rdByte b = s.rdByte b) ∧ t.lines = s.lines ∧ t.net = (s.drop m).net) ∧
    (a.k = .cinv → ∃ t z, exec (.homeAccess m) s = .next t ∧ (∀ b, t.rdByte b = s.rdByte b) ∧ t.lines = s.lines ∧
      (∀ o ∈ (t.core a.w.site).owned, o.ga ≠ a.ga / 64) ∧ t.net = (s.drop m).net ++ [z] ∧ z.dst = .line a.w.key ∧
      z.body = .reply a.w Answer.none false false 0)

/-- A load or plain store that reaches its slice, whose translation the slice's cache holds and admits, leaves as an access for the home of its global address, and the store's context goes on; a request that the cache refuses is answered with that fault; one that it does not hold starts a walk, at most 16 at once, and a walk that ends in a translation, after which the request meets the cache again, or in a fault, is a step of its own. An invalidation drops the visitor copy of its die, and ends the operations that waited for it; a line that a core gives up leaves its buffer; an atomic that asks for ownership makes its core the one owner of the line, the visitor copies of the line gone, and is executed there; a load of a line that the stash may keep fills it from its home and is answered; and a stash line that no copy has pinned is dropped as it is recalled, a dirty one of a serving core written back where its home can be reached. (R136, R153, R179, R180, R191, R229, R250, R252, R254) -/
def Obligations.TranslationSteps : Prop :=
  (∀ (s : State) (m sl va tok : Nat) (w : Who) (k : ReqKind), s.Reaches m sl w va k tok → k.ownStep = false →
    (∀ (l : Leaf) (d : LdDst) (n : Nat) (o : Order) (sc : Scope), s.tcheck w.part w.asid w.priv va k.cat = some (.ok l) →
      k = .load d n o sc → s.placeVerdict w k l (l.ga va) = none → ∃ t z, exec (.translate m) s = .next t ∧ t.mem = s.mem ∧
        t.lines = s.lines ∧ t.net = (s.drop m).net ++ [z] ∧ z.dst = .slice (s.homeOfAcc w va k l (l.ga va)) ∧
        z.body = .acc { w := w, va := va, ga := l.ga va, leaf := l, k := k, tok := tok, snooped := false }) ∧
    (∀ (l : Leaf) (d : List Byte) (sc : Scope) (y : Line), s.tcheck w.part w.asid w.priv va k.cat = some (.ok l) →
      k = .store d .rlx sc → s.placeVerdict w k l (l.ga va) = none → s.line? w.key = some y → y.life = .live → y.wt = 0x10000001#32 →
      y.heldFaults = [] → ∃ t y' z, exec (.translate m) s = .next t ∧ t.mem = s.mem ∧ t.net = (s.drop m).net ++ [z] ∧
        z.body = .acc { w := w, va := va, ga := l.ga va, leaf := l, k := k, tok := tok, snooped := false } ∧
        t.line? w.key = some y' ∧ y'.wt = 0#32 ∧ y'.pc = y.pc ∧ y'.v = y.v ∧ y'.pwc = y.pwc ∧ y'.pdc = y.pdc + b2n l.durable) ∧
    (∀ f, s.tcheck w.part w.asid w.priv va k.cat = some (.error f) → k.silent = false → w.key ≠ noKey → ∃ t z,
      exec (.translate m) s = .next t ∧ t.mem = s.mem ∧ t.lines = s.lines ∧ t.net = (s.drop m).net ++ [z] ∧ z.dst = .line w.key ∧ ∃ rec_,
        z.body = .fault w { cls := f.1, sub := f.2, kind := k.kindSize.1, size := k.kindSize.2, faddr := W va } k.committed k.counts tok
          rec_ false) ∧
    (s.tcheck w.part w.asid w.priv va k.cat = none → (s.walks sl w.asid va).1 < 16 → (s.walks sl w.asid va).2 = false →
      exec (.translate m) s = .next (s.rebody m (.req w va k tok true)))) ∧
  (∀ (s : State) (m sl va tok : Nat) (x : Msg) (w : Who) (k : ReqKind), s.net.find? (fun y => y.id == m) = some x → x.dst = .slice sl →
    x.body = .req w va k tok true →
    (∀ u l, s.walk w.part w.asid w.priv va k.cat = .ok (u, l) → exec (.pageWalk m) s = .next (u.rebody m (.req w va k tok false))) ∧
    (∀ f, s.walk w.part w.asid w.priv va k.cat = .error f → k.silent = false → w.key ≠ noKey → ∃ t z, exec (.pageWalk m) s = .next t ∧
      t.mem = s.mem ∧ t.net = (s.drop m).net ++ [z] ∧ z.dst = .line w.key ∧ ∃ rec_,
        z.body = .fault w { cls := f.1, sub := f.2, kind := k.kindSize.1, size := k.kindSize.2, faddr := W va } k.committed k.counts tok
          rec_ false)) ∧
  (∀ (s : State) (m grp g d via : Nat) (x : Msg), s.msg? m = some x → x.body = .inval grp g d via →
    exec (.visitorInvalidate m) s = .next ({ s.drop m with visitors := tdel s.visitors (vkey g d) } : State).settleOps) ∧
  (∀ (s : State) (c l : Nat), ∃ t, exec (.ownerRecall c l) s = .next t ∧ (∀ o ∈ (t.core c).owned, o.ga ≠ l) ∧
    ((s.core c).serves = true → t.mem = s.mem ∧ t.lines = s.lines)) ∧
  (∀ (s : State) (m sl src cmp : Nat) (a : Acc) (op : AmoOp) (y : AmoType) (d : Reg) (o : Order) (sc : Scope), s.Arrives m sl a →
    a.k = .amo op y src cmp (some d) o sc true → s.ownable a = true →
    (∀ e ∈ s.cores, e.2.stash = [] ∧ (e.2.owned ≠ [] → (s.core e.1).serves = true)) → (∀ e ∈ s.lines, e.2.popWait = none) → a.ga % 64 = a.va % 64 → a.ga % 64 + amoBytes y ≤ 64 → ∃ t z, exec (.ownershipRequest m) s = .next t ∧
      (∃ x ∈ (t.core a.w.site).owned, x.ga = a.ga / 64) ∧
      (∀ c, c ≠ a.w.site → ∀ x ∈ (t.core c).owned, x.ga ≠ a.ga / 64) ∧ (∀ die, die < 4 → tget t.visitors (vkey (a.ga / 64) die) = none) ∧
      (∀ b, (b < a.ga ∨ a.ga + amoBytes y ≤ b) → t.rdByte b = s.rdByte b) ∧
      (∀ i, i < amoBytes y → t.rdByte (a.ga + i) =
        if amoWrites op y (s.rdNat a.ga (amoBytes y)) cmp = true then
          (leBytes (amoBytes y) (amoNew op y (s.rdNat a.ga (amoBytes y)) src cmp)).getD i 0#8
        else s.rdByte (a.ga + i)) ∧ z ∈ t.net ∧ z.dst = .line a.w.key ∧
      z.body = .reply a.w (amoAnswer y (some d) (s.rdNat a.ga (amoBytes y))) (acqWide o sc) false 0) ∧
  (∀ (s : State) (m sl ks n j : Nat) (a : Acc) (h : Handle) (d : Reg) (sx : Bool) (o : Order) (sc : Scope), s.Arrives m sl a →
    a.k = .stashFill (.load (.reg d j sx) n o sc) → s.hostBias a.w.part a.ga = false → s.stashKeeps a.leaf a.ga = true →
    a.va % 64 + n ≤ 64 → (s.core a.w.site).stashHandle a.w.asid a.va = some (ks, h) →
    (∀ e ∈ s.cores, e.2.stash = [] ∧ (e.2.owned ≠ [] → (s.core e.1).serves = true)) → ∃ t y z, exec (.stashFill m) s = .next t ∧
      (t.core a.w.site).stashLine a.w.asid a.va = some y ∧ y.ga = a.ga / 64 ∧ y.dirty = false ∧
      (∀ i, i < 64 → memGet (t.core a.w.site).scratch (y.at_ + i) = s.rdByte (a.ga / 64 * 64 + i)) ∧ (∀ b, t.rdByte b = s.rdByte b) ∧
      t.net = (s.drop m).net ++ [z] ∧ z.dst = .line a.w.key ∧
      z.body = .reply a.w (loadResult (.reg d j sx) (s.rd (a.ga / 64 * 64 + a.va % 64) n)) (acqWide o sc) false 0) ∧
  (∀ (s : State) (c l : Nat) (x : StashLine), (s.core c).stash.find? (fun y => y.ga == l) = some x → s.pinCount l = 0 →
    (x.dirty = true → (s.core c).serves = true ∧ s.unreached (dieOf c) (s.homeAt (s.partOf c) x.ga) = none) →
    (∀ e ∈ s.lines, e.2.popWait = none) → ∃ t, exec (.stashRecall c l) s = .next t ∧
    (t.core c).stash = (s.core c).stash.filter (fun y => y != x) ∧
    (∀ i, i < 64 → t.rdByte (x.ga * 64 + i) = if x.dirty = true then memGet (s.core c).scratch (x.at_ + i) else s.rdByte (x.ga * 64 + i)) ∧
    (∀ b, (b < x.ga * 64 ∨ x.ga * 64 + 64 ≤ b) → t.rdByte b = s.rdByte b))

/-- A host answer, where the line's set has a way for it, puts its 64 bytes into the line, which the device then holds owned or shared, and the access goes on; an error answer and a missing one end the access in NET 0x24. A snoop that invalidates ends the device's hold of the line and every visitor copy, one for data leaves a held line shared, one for the current value changes no hold. A host write to HBM replaces its bytes and no other, a tracked read leaves the host with a shared copy, and an access that meets a flip or a bound line waits in its turn. A snoop's answer writes dirty data and lets the waiting access go on; a flip to host bias snoops nothing that the host does not hold, one to device bias every line of the page, and a flip whose snoops are answered, once its bit of the bias table can be written, clears BUSY and raises its cause. Cause bits clear where 1 is written, and a register write reaches the word its function maps. (R354, R357, R358, R359, R361, R362, R363, R364) -/
def Obligations.HostSteps : Prop :=
  (∀ (s : State) (m sl g : Nat) (own : Bool) (a : Acc) (d : List Byte), s.hostReq? m = some (sl, g, own, a) →
    (s.allPinned sl g = false → ∃ t, exec (.hostResponse m d false) s = .next t ∧ tget t.hostHeld g = some (if own = true then .modified else .shared) ∧
      (∀ i, i < 64 → memGet t.mem (g * 64 + i) = d.getD i 0#8) ∧
      (∀ b, (b < g * 64 ∨ g * 64 + 64 ≤ b) → memGet t.mem b = memGet s.mem b) ∧ t.lines = s.lines ∧
      ∃ z ∈ t.net, z.id = m ∧ z.body = .acc a) ∧
    (a.k.silent = false → (∀ x sc, a.k ≠ .eng x sc) → a.w.key ≠ noKey → ∃ t z rec_ du, exec (.hostResponse m d true) s = .next t ∧
      exec (.hostCompletionTimeout m) s = .next t ∧ t.mem = s.mem ∧ t.lines = s.lines ∧ t.net = (s.drop m).net ++ [z] ∧ z.dst = .line a.w.key ∧
      z.body = .fault a.w { cls := 0x12, sub := 0x24, kind := a.k.kindSize.1, size := a.k.kindSize.2, faddr := W a.va } a.k.posted a.k.counts
        a.tok rec_ du)) ∧
  (∀ (s : State) (pa : Nat), ∃ t u v, exec (.snpInv pa) s = .next t ∧ tget t.hostHeld (hostLine pa) = none ∧
    (∀ die, die < 4 → tget t.visitors (vkey (hostLine pa) die) = none) ∧ (∀ c, ∀ x ∈ (t.core c).owned, x.ga ≠ hostLine pa) ∧
    exec (.snpData pa) s = .next u ∧ ((tget s.hostHeld (hostLine pa)).isSome = true → tget u.hostHeld (hostLine pa) = some .shared) ∧
    exec (.snpCur pa) s = .next v ∧ v.hostHeld = s.hostHeld) ∧
  (∀ (s : State) (pa : Nat) (d : List Byte), pa % 64 + d.length ≤ 64 → 0 < d.length → pa + d.length ≤ hbmEnd →
    (s.hostWaits pa d.length = true → (∀ y ∈ s.net, ∀ q w b tr, y.body ≠ .hostAcc q w b tr) →
      (s.cxl = true → ∃ t z, exec (.hostMemAccess pa true d) s = .next t ∧ t.net = s.net ++ [z] ∧ z.body = .hostAcc pa true d true ∧
        t.mem = s.mem ∧ t.lines = s.lines ∧ t.hostHeld = s.hostHeld) ∧
      (s.cxl = false → ∃ t z, exec (.bar2Access pa true d) s = .next t ∧ t.net = s.net ++ [z] ∧ z.body = .hostAcc pa true d false ∧
        t.mem = s.mem ∧ t.lines = s.lines)) ∧
    (s.hostWaits pa d.length = false → (∀ y ∈ s.net, ∀ q w b tr, y.body ≠ .hostAcc q w b tr) →
      s.slDown ((s.part s.hostPart).home pa) = false →
      (∀ e ∈ s.cores, e.2.stash = [] ∧ (e.2.owned ≠ [] → (s.core e.1).serves = true)) →
      tget s.heldQ (pa / 64) = none → (∀ e ∈ s.lines, e.2.popWait = none) →
      (s.cxl = true → ∃ t u, exec (.hostMemAccess pa true d) s = .next t ∧ (∀ i, i < d.length → t.rdByte (pa + i) = d.getD i 0#8) ∧
        (∀ b, (b < pa ∨ pa + d.length ≤ b) → t.rdByte b = s.rdByte b) ∧ exec (.hostMemAccess pa false d) s = .next u ∧
        (∀ b, u.rdByte b = s.rdByte b) ∧ (s.hostBias s.hostPart pa = false → tget u.hostHeld (pa / 64) = some .shared)) ∧
      (s.cxl = false → ∃ t, exec (.bar2Access pa true d) s = .next t ∧ (∀ i, i < d.length → t.rdByte (pa + i) = d.getD i 0#8) ∧
        (∀ b, (b < pa ∨ pa + d.length ≤ b) → t.rdByte b = s.rdByte b)))) ∧
  (∀ (s : State) (m g : Nat) (inv : Bool) (a : Option Acc) (x : Msg) (d : List Byte), (s.net.find? fun y => y.id == m) = some x →
    x.body = .bisnp g inv a → ∃ t, exec (.birsp m d) s = .next t ∧ (inv = true → tget t.hostHeld g = none) ∧ (inv = false → t.hostHeld = s.hostHeld) ∧
      (d = [] → t.mem = s.mem) ∧ (d ≠ [] → ∀ i, i < 64 → memGet t.mem (g * 64 + i) = d.getD i 0#8) ∧ (a = none → t.net = (s.drop m).net) ∧
      (∀ b, a = some b → ∃ z ∈ t.net, z.id = m ∧ z.body = .acc { b with snooped := true })) ∧
  (∀ (s : State) (p : Nat), (s.part p).bfctl.testBit 2 = false →
    (∀ e ∈ s.cores, e.2.stash = [] ∧ (e.2.owned ≠ [] → (s.core e.1).serves = true)) →
    (s.hostBias p (s.part p).bfpage = false → s.hostHeld = [] → ∃ t, exec (.biasFlipHost p) s = .next t ∧
      (t.part p).flip = some ((s.part p).bfpage / 4096, 1) ∧ (t.part p).bfctl = 6 ∧ t.net = s.net ∧ t.mem = s.mem) ∧
    (s.hostBias p (s.part p).bfpage = true → ∃ t, exec (.biasFlipDevice p) s = .next t ∧ (t.part p).flip = some ((s.part p).bfpage / 4096, 0) ∧
      (t.part p).bfctl = 4 ∧ (∀ i, i < 64 → ∃ z ∈ t.net, z.body = .bisnp ((s.part p).bfpage / 64 + i) true none) ∧
      exec (.biasFlipHost p) s = .next ((s.setPart p { s.part p with bfctl := 2 }).causeBit p 16))) ∧
  (∀ (s : State) (p page dir : Nat), (s.part p).flip = some (page, dir) →
    ((∃ z ∈ s.net, ∃ g inv a, z.body = .bisnp g inv a ∧ g / 64 = page) → exec (.flipComplete p) s = .next s) ∧
    (∀ (u : State) (base old new : Nat), base = wfld (s.part p).biasbase 12 40 * 4096 → old = s.rdNat (base + page / 8) 1 →
      new = (if dir = 1 then old ||| 2 ^ (page % 8) else old &&& (255 ^^^ 2 ^ (page % 8))) →
      base = 0 ∨ s.outerReady p [(base + page / 8, leBytes 1 new)] true = .ok u →
      (∀ z ∈ s.net, ∀ g inv a, z.body = .bisnp g inv a → g / 64 ≠ page) → ∃ t, exec (.flipComplete p) s = .next t ∧
      (t.part p).flip = none ∧ (t.part p).bfctl.testBit 2 = false ∧ (t.part p).icause.testBit 16 = true)) ∧
  (∀ (s : State) (p : Nat) (v : Word), ∃ t, exec (.interruptCauseWrite p v) s = .next t ∧ t.lines = s.lines ∧ t.mem = s.mem ∧
    ∀ k, k < 18 → (t.part p).icause.testBit k = ((s.part p).icause.testBit k && !v.getLsbD k)) ∧
  (∀ (s : State) (v : Word) (fn i : Nat), 1 ≤ fn → fn ≤ 16 →
    exec (.registerWrite fn 0x1000 8 v) s = exec (.registerWrite 0 (0x100000 + (fn - 1) * 0x100000 + 0x1000) 8 v) s ∧
    (∃ t, exec (.registerWrite fn 0x1000 8 v) s = .next t ∧ (t.part (fn - 1)).bfpage = wfld v 12 40 * 4096 ∧ t.lines = s.lines ∧
      t.mem = s.mem) ∧
    (i < 8 → ∃ t, exec (.registerWrite fn (0xF0000 + 8 * i) 8 v) s = .next t ∧
      leNat (memRead t.mem (vfTable fn + 8 * i) 8) = v.toNat ∧ ∀ b, (b < vfTable fn + 8 * i ∨ vfTable fn + 8 * i + 8 ≤ b) →
        memGet t.mem b = memGet s.mem b))

/-- At the home of a launch header: one that breaks R269 or R270 is refused with QUEUE 0x10, and one that is accepted makes a QUEUED kernel of its KID and lets the launcher go on, or, of a gang, parks it with WT kind 10. A placed kernel RUNS on its hosts, which have a slot for it, with one tree node for each. Seeding gives the next ordinal a READY context at the entry with its work identifier, or a continuation record; the last one of a gang sends the grant with which the gang's issuer goes on, and a deadline that finds the gang not yet placed withdraws it and faults the issuer with QUEUE 0x7F. A trigger counts at its anchor; a node whose contexts and children have all triggered sends its message, and the root's makes the kernel TRIGGERED; a node that has ended adds its status to its parent's, and the root's end writes the completion object, with an add to its counter that follows the write, and removes the kernel. Reservation priority goes to a kernel that has waited 50 µs and none of those outranks. (R271, R273, R274, R276, R280, R281, R282, R284, R287, R288, R308, R309) -/
def Obligations.KernelSteps : Prop :=
  (∀ (s : State) (m sl : Nat) (a : Acc) (u : State) (bs : List Byte), s.Arrives m sl a → (s.drop m).homeRead a.w.site a a.k.span = (u, bs) →
    (a.k = .launch → headerOk bs = false → a.w.key ≠ noKey → ∃ t z, exec (.launchAccept m) s = .next t ∧ t.mem = s.mem ∧ t.lines = s.lines ∧
      t.parts = s.parts ∧ t.net = (s.drop m).net ++ [z] ∧ z.dst = .line a.w.key ∧
      z.body = .fault a.w { cls := 0x0A, sub := 0x10, kind := kLoad, size := 8, faddr := W a.va } false false 0 none false) ∧
    (∀ v : State, a.k = .launch → u.acceptHeader { who := a.w, priv := a.w.priv } (W a.va) bs none none = .queued v → ∃ t k z,
      exec (.launchAccept m) s = .next t ∧ k ∈ (t.part a.w.part).kernels ∧ k.hdr.kid = (parseHeader bs).kid ∧ k.state = .queued ∧
      k.gang = none ∧ t.net = v.net ++ [z] ∧ z.dst = .line a.w.key ∧ z.body = .reply a.w Answer.none false false 0) ∧
    (∀ (v : State) (l : Line), a.k = .gang → u.acceptGang { who := a.w, priv := a.w.priv } (W a.va) bs (some a.w) = .queued v →
      v.answers a.w = true → v.line? a.w.key = some l → ∃ t x k, exec (.launchAccept m) s = .next t ∧ t.line? a.w.key = some x ∧
        x.wt = mkWt 10 0 ∧ x.pc = l.pc ∧ x.v = l.v ∧ k ∈ (t.part a.w.part).kernels ∧ k.state = .queued ∧
        (k.gang.bind (·.who)) = some a.w)) ∧
  (∀ (s : State) (p : Nat) (k : Kernel) (h : List Nat), s.nextPlaced p = some (k, h) → s.stopped p = false → k.hdr.framesize < 64 →
    k.part = p → (s.part p).kernel? k.hdr.kid = some k →
    (k.gang = none → ∃ t x, exec (.placeKernel p) s = .next t ∧ (t.part p).kernel? k.hdr.kid = some x ∧ x.state = .running ∧
      x.hosts = sortBy s.logical h ∧ x.nodes = x.hosts.map TreeNode.new ∧
      ∀ c ∈ h, ((t.core c).slotOf p k.hdr.kid).isSome = true) ∧
    (∀ g, k.gang = some g → ∃ t x, exec (.gangPlace p) s = .next t ∧ (t.part p).kernel? k.hdr.kid = some x ∧
      x.state = .running ∧ x.hosts = h ∧ x.nodes = x.hosts.map TreeNode.new ∧ t.net = s.net ∧
      ∀ c ∈ h, ((t.core c).slotOf p k.hdr.kid).isSome = true)) ∧
  (∀ (s : State) (p : Nat), (∃ k ∈ (s.part p).kernels, (k.state == .queued && k.resolved && decide (k.since + 50000 ≤ s.gtime)) = true) →
    ∃ t b, exec (.reservationPriority p) s = .next t ∧ b ∈ (s.part p).kernels ∧ b.since + 50000 ≤ s.gtime ∧ b.state = .queued ∧
      (t.part p).reserve = some b.hdr.kid ∧
      ∀ k ∈ (s.part p).kernels, (k.state == .queued && k.resolved && decide (k.since + 50000 ≤ s.gtime)) = true → k.hdr.prio ≤ b.hdr.prio) ∧
  (∀ (s : State) (m key : Nat) (l : Line), s.line? key = some l → l.life = .live → l.wtKind = 10 → l.heldFaults = [] →
    (s.find? m = some (.gangGrant key) → ∃ t x, exec (.gangGrant m) s = .next t ∧ t.line? key = some x ∧ x.wt = 0#32 ∧ x.pc = l.pc ∧ x.v = l.v) ∧
    (∀ (kid p : Nat) (k : Kernel) (g : Gang) (w : Who), s.find? m = some (.gangWithdraw key kid p) → (s.part p).kernel? kid = some k →
      k.state = .queued → k.gang = some g → g.who = some w → w.key = key → l.svc = false → ∃ t x, exec (.gangWithdraw m) s = .next t ∧
        (t.part p).kernel? kid = none ∧ t.line? key = some x ∧ x.wt = 0x60000000#32 ∧ x.pc = l.ipc ∧ x.v = l.v ∧
        wfld x.cause 0 8 = 0x0A ∧ wfld x.cause 8 8 = 0x7F)) ∧
  (∀ (s : State) (p kid i anchor code u : Nat) (k : Kernel), (s.part p).kernel? kid = some k → k.state = .running → s.stopped p = false →
    k.nextOrdinal = some i → k.anchorOf i = (anchor, code, u) →
    (k.hdr.seed = true → s.contFree (clusterOf anchor) (k.hdr.prio / 4) = true →
      ((s.cl (clusterOf anchor)).level (k.hdr.prio / 4)).length < contChip → ∃ t r, exec (.seedContext p kid) s = .next t ∧
        (t.cl (clusterOf anchor)).level (k.hdr.prio / 4) = (s.cl (clusterOf anchor)).level (k.hdr.prio / 4) ++ [r] ∧
        r.tgt = k.hdr.entry ∧ r.wid = W (widOf k.hdr.w (tupleOf k.hdr.extents i)) ∧ r.resume = false ∧ r.kid = kid ∧
        (∀ x, (t.part p).kernel? kid = some x → x.nextSeed = i + 1) ∧
        ∀ g w, k.gang = some g → g.who = some w → ({ k with nextSeed := i + 1 } : Kernel).seeded = true →
          ∃ z ∈ t.net, z.dst = .line w.key ∧ z.body = .gangGrant w.key) ∧
    (∀ v : State, k.hdr.seed = false → s.materialise k i
        { pc := W k.hdr.entry, wid := W (widOf k.hdr.w (tupleOf k.hdr.extents i)), link := 0#64, anchor := anchor, by_ := anchor, trg := false, bindCode := code,
          bindUnit := u, place := (if (s.linesIn (.l2 (clusterOf anchor))).length < l2Size then .l2 (clusterOf anchor) else .mem),
          seeded := true } = .ok v → ∃ t key y, exec (.seedContext p kid) s = .next t ∧ t.line? key = some y ∧ y.life = .live ∧
        y.pc = W k.hdr.entry ∧ y.wid = W (widOf k.hdr.w (tupleOf k.hdr.extents i)) ∧ y.pw = 1#32 ∧ y.wt = 0#32 ∧ y.link = 0#64 ∧
        y.v = List.replicate 8 0#64 ∧ y.anchor = some anchor ∧ (∀ x, (t.part p).kernel? kid = some x → x.nextSeed = i + 1) ∧
        ∀ x g w, v.line? key = some y ∧ (v.part p).kernel? kid = some x ∧ x.gang = some g ∧ g.who = some w ∧
          ({ x with nextSeed := i + 1 } : Kernel).seeded = true → ∃ z ∈ t.net, z.dst = .line w.key ∧ z.body = .gangGrant w.key)) ∧
  (∀ (s : State) (p kid j : Nat) (k : Kernel) (n : TreeNode), (s.part p).kernel? kid = some k → k.nodes[j]? = some n →
    (∀ m, s.find? m = some (.trigEvent n.site kid p k.no) → ∃ t x y, exec (.triggerEvent m) s = .next t ∧
      (t.part p).kernel? kid = some x ∧ x.nodes[j]? = some y ∧ y.site = n.site ∧ y.untrig = n.untrig - 1 ∧ y.live = n.live) ∧
    (k.seeded = true → k.state = .running → n.untrig = 0 → n.trigSent = false →
      (∀ i ∈ childrenOf j k.nodes.length, ∀ y, k.nodes[i]? = some y → y.trigSent = true) → ∃ t x y, exec (.triggerMessage p kid j) s = .next t ∧
        (t.part p).kernel? kid = some x ∧ x.nodes[j]? = some y ∧ y.trigSent = true ∧ (j = 0 → x.state = .triggered) ∧
        (j ≠ 0 → x.state = .running)) ∧
    (k.seeded = true → k.state = .draining → n.live = 0 → n.doneSent = false → n.standIn = false → s.coreDone p kid n.site = true →
      (∀ i ∈ childrenOf j k.nodes.length, ∀ y, k.nodes[i]? = some y → y.doneSent = true) →
      (j ≠ 0 → ∀ q, k.nodes[(j - 1) / 4]? = some q → q.site ≠ n.site → ∃ t x y, exec (.doneMessage p kid j) s = .next t ∧
        (t.part p).kernel? kid = some x ∧ x.nodes[(j - 1) / 4]? = some y ∧ y.maxcls = max q.maxcls n.maxcls ∧ y.err = (q.err ||| n.err) ∧
        y.exits = q.exits + n.exits) ∧
      (j = 0 → ∃ t, exec (.doneMessage p kid j) s = .next t ∧ (t.part p).kernel? kid = none ∧
        ∀ (u : State) (l : Leaf), s.xlate k.part k.asid k.hdr.priv k.hdr.compl (.store false false) = .ok (u, l) → l.cls = 0 →
          l.peer = false → k.hdr.compl < 2 ^ 54 → ∃ z ∈ t.net, ∃ y ∈ t.net, ∃ b c, z.body = .acc b ∧ b.va = k.hdr.compl ∧
          b.k = .eng (leBytes 8 (statusWord n.maxcls n.err n.exits) ++
            leBytes 2 k.hdr.kid ++ leBytes 1 (if n.err = 0 then 6 else 7) ++ leBytes 5 0 ++ leBytes 8 s.gtime) .dev ∧
          y.body = .acc c ∧ c.va = k.hdr.compl + 24 ∧ c.k = .engAdd .dev b.tok)))

/-- A `grun` whose object is malformed is refused with QUEUE 0x12, one whose bank is busy is answered with p15 = 0, and one that is queued with p15 = 1; the next header of a replay is launched and counted, and a replay that is over counts one more in DONE and is gone. An enabled ring with packets consumes the next one, a nop only moving its read index and a launch making a QUEUED kernel, and one with more packets than it holds is OVERRUN; a doorbell writes its write index and a reset discards what is not consumed. A packet that no access-control entry admits is logged with NET 0x22 and dropped; one that is admitted is stored in the ring, at the privilege of its entry, or answered with NET 0x21 where the ring is full or OVERRUN; a peer's write of HBM whose lines are free to be written replaces its bytes and no other, its read is answered with the bytes, and any other access of its is answered with NET 0x22 (log entry 83). (R290, R291, R317, R318, R319, R320, R359) -/
def Obligations.GraphAndRingSteps : Prop :=
  (∀ (s : State) (m sl patch : Nat) (a : Acc), s.Arrives m sl a →
    a.k = .grun patch →
    (leField ((s.drop m).rd a.ga 64) 0 2 = 0 → a.w.key ≠ noKey → ∃ t z, exec (.grunApply m) s = .next t ∧ t.mem = s.mem ∧ t.lines = s.lines ∧
      t.net = (s.drop m).net ++ [z] ∧ z.body =
        .fault a.w { cls := 0x0A, sub := 0x12, kind := kLoad, size := 6, faddr := W a.va } false false 0 none false) ∧
    ((s.drop m).applyGrun a.w a.va a.ga patch = .refused → ∃ t z, exec (.grunApply m) s = .next t ∧ t.mem = s.mem ∧
      t.net = (s.drop m).net ++ [z] ∧ z.body = .reply a.w { regs := [], flags := Flags.none, p15 := some false } false false 0) ∧
    (∀ v : State, (s.drop m).applyGrun a.w a.va a.ga patch = .queued v → ∃ t z r, exec (.grunApply m) s = .next t ∧ t.net = v.net ++ [z] ∧
      z.body = .reply a.w { regs := [], flags := Flags.none, p15 := some true } false false 0 ∧ r ∈ (t.part a.w.part).replays ∧
      r.obj = a.ga ∧ r.next = 0 ∧ r.nk = leField ((s.drop m).rd a.ga 64) 2 1 ∧ r.bank = leField ((s.drop m).rd a.ga 64) 0x20 8 % 2)) ∧
  (∀ (s u v : State) (p : Nat) (r : Replay) (bs : List Byte), (s.part p).replays.find? (s.replayOver p) = none →
    (s.part p).nextReplay = some r → s.stopped p = false → eaFault kLoad 256 (W (r.bankVa + 256 * r.next)) = none →
    s.pull (unitWho ((s.part p).sites.headD 0) p r.asid r.priv 0) .record (r.bankVa + 256 * r.next) 256 = .ok (u, bs) →
    u.acceptHeader { who := unitWho ((s.part p).sites.headD 0) p r.asid r.priv 0, priv := r.priv } (W (r.bankVa + 256 * r.next)) bs none
      (some (r.obj, r.seq)) = .queued v → ∃ t k, exec (.graphReplay p) s = .next t ∧ k ∈ (t.part p).kernels ∧ k.state = .queued ∧
        k.replay = some (r.obj, r.seq) ∧ (t.part p).replays =
          (v.part p).replays.map fun q => if q.obj = r.obj ∧ q.seq = r.seq then { q with next := q.next + 1 } else q) ∧
  (∀ (s u : State) (p : Nat) (r : Replay), (s.part p).replays.find? (s.replayOver p) = some r →
    s.readyLine (unitAcc (unitWho ((s.part p).sites.headD 0) p 0 2 0) r.obj r.obj (leafOf 0 0 r.obj) [] 64 true) true = .ok u →
    (∀ e ∈ u.cores, e.2.stash = [] ∧ (e.2.owned ≠ [] → (u.core e.1).serves = true)) → u.heldQ = [] → (∀ e ∈ u.lines, e.2.popWait = none) → ∃ t, exec (.graphReplay p) s = .next t ∧
      (∀ q ∈ (t.part p).replays, ¬(q.obj = r.obj ∧ q.seq = r.seq)) ∧ t.rdNat (r.obj + 0x28) 8 = (u.rdNat (r.obj + 0x28) 8 + 1) % 2 ^ 64 ∧
      (t.rdNat (r.obj + 0x30) 1).testBit r.bank = false) ∧
  (∀ (s : State) (p k : Nat) (r : Ring), r = (s.part p).ring k → r.rctl.testBit 28 = true → r.d ≠ 0 → r.overrun = false → s.stopped p = false →
    (2 ^ r.n < r.d → ∃ t, exec (.ringConsume p k) s = .next t ∧ ((t.part p).ring k).overrun = true ∧ ((t.part p).ring k).ridx = r.ridx ∧
      (t.part p).icause.testBit k = true) ∧
    (∀ (u : State) (bs : List Byte), r.d ≤ 2 ^ r.n → s.ringEntry p k = .ok (u, bs) →
      (leNat bs = 0 → ∃ t, exec (.ringConsume p k) s = .next t ∧ ((t.part p).ring k).ridx = (((u.part p).ring k).ridx + 1) % 2 ^ 32 ∧
        t.net = u.net ∧ t.mem = u.mem) ∧
      (leField bs 0 8 = 0x80 → ∃ t, exec (.ringConsume p k) s = .next t ∧ fld ((t.part p).ring k).rstat 8 16 = 0x040A ∧
        ((t.part p).ring k).ridx = (((u.part p).ring k).ridx + 1) % 2 ^ 32 ∧ (t.part p).icause.testBit k = true) ∧
      (∀ (v x : State) (hb : List Byte) (w : Who), leField bs 0 8 = 1 → leNat (bs.drop 16) = 0 → leField bs 8 8 % 256 = 0 →
        leField bs 8 8 < 2 ^ 54 → w = unitWho ((s.part p).sites.headD 0) p r.rasid (tgetD r.privs (r.ridx % 2 ^ r.n) 2) 0 →
        u.pull w .record (leField bs 8 8) 256 = .ok (v, hb) →
        v.acceptHeader { who := w, priv := w.priv } (W (leField bs 8 8)) hb none none = .queued x → ∃ t y, exec (.ringConsume p k) s = .next t ∧
          y ∈ (t.part p).kernels ∧ y.state = .queued ∧ y.hdr.kid = (parseHeader hb).kid ∧
          ((t.part p).ring k).ridx = (((x.part p).ring k).ridx + 1) % 2 ^ 32))) ∧
  (∀ (s : State) (p k v : Nat), ∃ t u, exec (.ringDoorbell p k v) s = .next t ∧ ((t.part p).ring k).widx = v % 2 ^ 32 ∧
    ((t.part p).ring k).ridx = ((s.part p).ring k).ridx ∧ exec (.ringReset p k v) s = .next u ∧
    ((u.part p).ring k).widx = ((s.part p).ring k).widx ∧
    (v.testBit 31 = true → ((u.part p).ring k).ridx = ((s.part p).ring k).widx ∧ ((u.part p).ring k).overrun = false) ∧
    (v.testBit 31 = false → ((u.part p).ring k).ridx = ((s.part p).ring k).ridx)) ∧
  (∀ (s : State) (dev pa : Nat) (d : List Byte),
    (∀ p, p = (s.parts.head?.map (·.1)).getD 0 → 0 < d.length → pa % 64 + d.length ≤ 64 → pa + d.length ≤ hbmEnd →
      s.slDown ((s.part p).home pa) = false → (∀ e ∈ s.cores, e.2.stash = [] ∧ (e.2.owned ≠ [] → (s.core e.1).serves = true)) → s.heldQ = [] →
      (∀ e ∈ s.lines, e.2.popWait = none) →
      (s.outerReady p (splitLines (d.length + 1) pa (List.replicate d.length 0#8)) true = .ok s → ∃ t,
        exec (.peerPacket dev pa (.write d)) s = .next t ∧
        (∀ i, i < d.length → t.rdByte (pa + i) = d.getD i 0#8) ∧ (∀ b, (b < pa ∨ pa + d.length ≤ b) → t.rdByte b = s.rdByte b) ∧
        ∃ z ∈ t.net, z.dst = .port dev ∧ z.body = .peerAnswer 0 []) ∧
      (s.outerReady p (splitLines (d.length + 1) pa (List.replicate d.length 0#8)) false = .ok s → ∃ t,
        exec (.peerPacket dev pa (.read d.length)) s = .next t ∧ (∀ b, t.rdByte b = s.rdByte b) ∧ t.lines = s.lines ∧
        ∃ z ∈ t.net, z.dst = .port dev ∧ z.body = .peerAnswer 0 (s.rd pa d.length))) ∧
    (∀ q, hbmEnd < pa + peerSpan q → pa < apertureBase ∨ apertureEnd ≤ pa ∨ (∀ x, q ≠ .write x) → ∃ t z,
      exec (.peerPacket dev pa q) s = .next t ∧
      t.mem = s.mem ∧ t.parts = s.parts ∧ t.net = s.net ++ [z] ∧ z.dst = .port dev ∧ z.body = .peerAnswer 0x22 [])) ∧
  (∀ (s : State) (dev off : Nat) (d : List Byte), off < 0x400 →
    ((((List.range 256).map fun i => parseAcl (tgetD s.reg.acl i 0#64)).find? fun e => e.v && e.src == dev) = none →
      ∃ t x, exec (.peerPacket dev (apertureBase + off) (.write d)) s = .next t ∧ t.mem = s.mem ∧ t.parts = s.parts ∧
        t.reg.log.getLast? = some x ∧ x.src = .link dev ∧
        x.cls = 0x12 ∧ x.sub = 0x22 ∧ ∃ z ∈ t.net, z.dst = .port dev ∧ z.body = .peerAnswer 0x22 []) ∧
    (∀ (e : AclEntry) (q : Nat) (y : Part) (r : Ring),
      (((List.range 256).map fun i => parseAcl (tgetD s.reg.acl i 0#64)).find? fun e => e.v && e.src == dev) = some e →
      s.parts.find? (fun x => (x.2.ring (off / 64)).rctl.testBit 29) = some (q, y) → r = (s.part q).ring (off / 64) →
      e.rings.testBit (off / 64) = true → 1 ≤ leField d 0 1 → leField d 0 1 ≤ 3 → e.kinds.testBit (leField d 0 1 - 1) = true →
      r.rctl.testBit 29 = true → r.rctl.testBit 28 = true → r.rctl.testBit 30 = false → d.length = 64 → off % 64 = 0 →
      (r.overrun = true ∨ 2 ^ r.n ≤ r.d → ∃ t z, exec (.peerPacket dev (apertureBase + off) (.write d)) s = .next t ∧
        t.mem = s.mem ∧ t.parts = s.parts ∧ t.net = s.net ++ [z] ∧ z.dst = .port dev ∧ z.body = .peerAnswer 0x21 []) ∧
      (r.overrun = false → r.d < 2 ^ r.n → (∀ e ∈ s.cores, e.2.stash = [] ∧ (e.2.owned ≠ [] → (s.core e.1).serves = true)) → s.heldQ = [] →
        (∀ e ∈ s.lines, e.2.popWait = none) →
        (r.rbase + 64 * (r.widx % 2 ^ r.n) < hbmEnd → s.outerReady q [(r.rbase + 64 * (r.widx % 2 ^ r.n), d)] true = .ok s) →
        ∃ t, exec (.peerPacket dev (apertureBase + off) (.write d)) s = .next t ∧
        (∀ i, i < 64 → t.rdByte (r.rbase + 64 * (r.widx % 2 ^ r.n) + i) = d.getD i 0#8) ∧
        (∀ b, (b < r.rbase + 64 * (r.widx % 2 ^ r.n) ∨ r.rbase + 64 * (r.widx % 2 ^ r.n) + 64 ≤ b) → t.rdByte b = s.rdByte b) ∧
        ((t.part q).ring (off / 64)).widx = (r.widx + 1) % 2 ^ 32 ∧
        tget ((t.part q).ring (off / 64)).privs (r.widx % 2 ^ r.n) = some e.priv)))

/-- A `wenq` whose pages and queue pass, with its issuer's earlier stores performed, is accepted: its entry, which names the address and length of its data, follows once the data is performed; a refused one raises QUEUE at the queue, and with a full queue it is held, or raises 0x07 with no room to hold it. Once nothing of its data is on its way the entry is pushed: WIDX grows by 1 and the operation ends. A `send` to a mailbox without a live context is dropped, one to a context that waits in `qpop` completes that with p15 = 1, and its sender goes on. A fault message that no descriptor can take is kept by the Regulator with ESC set and raises its cause; one that its descriptor takes is pushed there. `qstat` reads count, size, kind and state, `qpush` to a full queue answers p15 = 0, and one to a queue with room pushes its entry and answers p15 = 1. (R161, R312, R314, R315, R316, R324, R325, R326, R327, R369) -/
def Obligations.QueueSteps : Prop :=
  (∀ (s u v : State) (m sl va queue tok : Nat) (x : Msg) (w : Who) (payload : List Byte) (sc : Scope) (wk : Bool) (a : Acc) (d : Desc),
    s.reqMsg? m = some x → x.dst = .slice sl → x.body = .req w va (.wenq payload sc queue) tok wk → s.forkOpen w tok = false →
    s.pathWaits (dieOf w.site) (dieOfCl sl) = false → s.unreached (dieOf w.site) sl = none →
    s.xlateAll w (.wenq (sc == .recov)) (linesOf va payload.length) = .ok u → u.probeDesc w queue 0 = .ok (v, a, d) →
    v.HeldKinds (a.ga / 64) →
    (d.check queue (fun k => k == 0) true = none → v.room (a.ga / 64) (v.desc a.ga) 1 = true → tget v.heldQ (a.ga / 64) = none → ∃ t z e,
      exec (.wenqAccept m) s = .next t ∧ t.net.getLast? = some z ∧
      z.body = .wenqPush w va queue e tok none ∧ e.take 10 = leBytes 8 va ++ leBytes 2 payload.length ∧ e.length = 16) ∧
    (d.check queue (fun k => k == 0) true = none → v.room (a.ga / 64) (v.desc a.ga) 1 = false →
      v.mayHold w.part (v.homeAt w.part (a.ga / 64)) (a.ga / 64) = true → ∃ t, exec (.wenqAccept m) s = .next t ∧ tget t.heldQ (a.ga / 64) =
        some (tgetD v.heldQ (a.ga / 64) [] ++ [{ who := w, k := .wenq payload sc queue, va := va, msg := none, tok := tok, entry := none }])) ∧
    (∀ sub, w.key ≠ noKey → (d.check queue (fun k => k == 0) true = some sub ∨ (d.check queue (fun k => k == 0) true = none ∧
        v.room (a.ga / 64) (v.desc a.ga) 1 = false ∧
        v.mayHold w.part (v.homeAt w.part (a.ga / 64)) (a.ga / 64) = false ∧ sub = 0x07)) → ∃ t z f, exec (.wenqAccept m) s = .next t ∧
        t.net = (v.drop m).net ++ [z] ∧ z.dst = .line w.key ∧ z.body = .fault w f false false tok none false ∧ f.cls = 0x0A ∧ f.sub = sub ∧
        f.faddr = W queue)) ∧
  (∀ (s u : State) (m va queue tok : Nat) (w : Who) (entry : List Byte) (res : Option Nat) (a : Acc) (d : Desc),
    s.find? m = some (.wenqPush w va queue entry tok res) →
    (∀ y ∈ s.inFlight, (∀ b, (y.body = .acc b ∨ (∃ g o, y.body = .hostReq g o b) ∨ ∃ g i, y.body = .bisnp g i (some b)) → b.tok ≠ tok) ∧
      ∀ w' n g na mi e, y.body = .eack w' n g na mi e → n ≠ tok) →
    s.probeDesc w queue 0 = .ok (u, a, d) → d.check queue (fun k => k == 0) true = none → tget u.heldQ (a.ga / 64) = none →
    (u.drop m).room (a.ga / 64) (u.desc a.ga) 1 = true → ∃ t,
      exec (.wenqPush m) s = .next t ∧ tget t.ops tok = none ∧
      (a.leaf.cls = 0 → a.leaf.peer = false → u.line? (a.ga / 128) = none → (∀ e ∈ u.lines, e.2.popWait = none) →
        (t.desc a.ga).widx = ((u.desc a.ga).widx + 1) % 2 ^ 32)) ∧
  (∀ (s : State) (m sl : Nat) (a : Acc), s.Arrives m sl a →
    ∀ u : State, u = s.descAt a.ga →
    (∀ data, a.k = .send data →
      ((u.drop m).mailboxLine a.w a.va a.ga = none → ∃ t z, exec (.sendDelivery m) s = .next t ∧ t.mem = u.mem ∧ t.lines = u.lines ∧
        t.net = (u.drop m).net ++ [z] ∧ z.dst = .line a.w.key ∧ z.body = .reply a.w Answer.none false false 0) ∧
      (∀ sub key l, (u.drop m).mailboxLine a.w a.va a.ga = some (key, l) → a.w.key ≠ noKey →
        (u.desc a.ga).check a.va (fun k => k == 1) true = some sub → ∃ t z f rec_, exec (.sendDelivery m) s = .next t ∧ t.mem = u.mem ∧
        t.lines = u.lines ∧ t.net = (u.drop m).net ++ [z] ∧ z.body = .fault a.w f false false a.tok rec_ false ∧ f.cls = 0x0A ∧ f.sub = sub) ∧
      (∀ key l p, (u.drop m).mailboxLine a.w a.va a.ga = some (key, l) → u.line? key = some l → l.popWait = some p → p.who.key = key → p.dst = 0 →
        (u.desc a.ga).check a.va (fun k => k == 1) true = none → l.heldFaults = [] → l.v.length = 8 → a.leaf.cls ≠ 3 →
        ∃ t y z, exec (.sendDelivery m) s = .next t ∧ t.line? key = some y ∧ y.wt = 0#32 ∧ y.popWait = none ∧ y.pw.getLsbD 15 = true ∧
          (∀ i, i < 4 → y.v.getD i 0#64 = W (leField (fitBytes 32 data) (8 * i) 8)) ∧
          t.net.getLast? = some z ∧ z.body = .reply a.w Answer.none false false 0)) ∧
    (∀ d, a.k = .qstat d → (u.desc a.ga).bad a.va = false → ∃ t z st, exec (.homeAccess m) s = .next t ∧ t.mem = u.mem ∧ t.lines = u.lines ∧
      t.net.getLast? = some z ∧ z.body = .reply a.w
        { Answer.none with
          regs := [(d, W ((u.desc a.ga).c * 2 ^ 32 + (u.desc a.ga).log2n * 2 ^ 24 + (u.desc a.ga).kind * 2 ^ 16 + st))] } false false 0 ∧
      st = (if (u.desc a.ga).overrun then 3 else if (u.desc a.ga).closed then 4 else if (u.desc a.ga).c = 0 then 0
        else if (u.desc a.ga).c = (u.desc a.ga).cap then 2 else 1)) ∧
    (∀ v, a.k = .qpush v → (u.desc a.ga).check a.va (fun k => k == 0) true = none → u.HeldKinds (a.ga / 64) →
      ((u.desc a.ga).cap ≤ (u.desc a.ga).c → ∃ t z,
        exec (.homeAccess m) s = .next t ∧ t.mem = u.mem ∧ t.lines = u.lines ∧ t.net = (u.drop m).net ++ [z] ∧
        z.body = .reply a.w { regs := [], flags := Flags.none, p15 := some false } false false 0) ∧
      (∀ v : State, u.room (a.ga / 64) (u.desc a.ga) 1 = true → tget u.heldQ (a.ga / 64) = none → a.leaf.cls = 0 → a.leaf.peer = false →
        u.probe a.w .entryPush ((u.desc a.ga).entry (u.desc a.ga).widx) 16 true = .ok v → tget v.heldQ (a.ga / 64) = none →
        v.line? (a.ga / 128) = none → (∀ e ∈ v.lines, e.2.popWait = none) → ∃ t z, exec (.homeAccess m) s = .next t ∧
        (t.desc a.ga).widx = ((u.desc a.ga).widx + 1) % 2 ^ 32 ∧ t.net.getLast? = some z ∧
        z.body = .reply a.w { regs := [], flags := Flags.none, p15 := some true } false false 0))) ∧
  (∀ (s : State) (mid : Nat) (m : FaultMsg), s.find? mid = some (.msg m) → (s.part m.part).faultSlot m = none →
    (wfld (s.part m.part).svcq 11 43 = 0 → (tgetD s.reg.kept m.part []).length < 256 → ∃ t, exec (.faultMessage mid) s = .next t ∧
      tget t.reg.kept m.part = some (tgetD s.reg.kept m.part [] ++ [{ m with desc := 0, cause := m.cause ||| W (2 ^ 30) }]) ∧
      (t.part m.part).icause.testBit 17 = true ∧ t.net = (s.drop mid).net ∧ t.lines = s.lines) ∧
    (∀ (u v : State) (a : Acc) (d : Desc) (w : Who), w = s.svcWho m.part ((s.siteOfLogical m.core).getD 0) → m.record = none →
      wfld (s.part m.part).svcq 11 43 ≠ 0 → s.probeDesc w (wfld (s.part m.part).svcq 11 43 * 2048 + 64 * m.desc) 2 = .ok (u, a, d) →
      d.check (wfld (s.part m.part).svcq 11 43 * 2048 + 64 * m.desc) (fun k => k == 2) true = none →
      u.room (a.ga / 64) (u.desc a.ga) 1 = true → tget u.heldQ (a.ga / 64) = none →
      u.probe w .entryPush ((u.desc a.ga).entry (u.desc a.ga).widx) 32 true = .ok v → a.leaf.cls = 0 → a.leaf.peer = false →
      v.line? (a.ga / 128) = none → (∀ e ∈ v.lines, e.2.popWait = none) → ∃ t,
        exec (.faultMessage mid) s = .next t ∧ (t.desc a.ga).widx = ((v.desc a.ga).widx + 1) % 2 ^ 32))

/-- A `ldr.w` at its home joins the queue of its line behind those already there, up to 16, and leaves any other queue it is in; the line's head, once granted, goes to the tail; beyond that, or with 64 lines queued at the slice, it faults with QUEUE 0x01. The head of a queue that is not yet granted reads the line once no earlier store to it is on its way, and the context goes on with the 8 bytes. The head's `stc` stores its 8 bytes, sets p15 and leaves the queue; any other context's changes no byte and clears p15. A head that has held its grant for 2^20 issue cycles loses it. (R155, R156, R157, R158) -/
def Obligations.ReservationSteps : Prop :=
  (∀ (s : State) (m sl : Nat) (a : Acc) (d : Reg) (g : Nat) (q : ResvQ), s.Arrives m sl a → a.k = .ldrw d → g = a.ga / 64 →
    s.resvRefused a = none → s.heads g a.w.key = true → tget s.resv g = some q → q.granted = true →
    ((s.drop m).unreserve a.w.key).resv = (s.unreserveAt g a.w.key).resv → (q.entries.filter fun x => x.who.key != a.w.key) ≠ [] →
    (q.entries.filter fun x => x.who.key != a.w.key).length < 16 → ∃ t, exec (.reservationEnqueue m) s = .next t ∧ t.mem = s.mem ∧
      t.lines = s.lines ∧ t.net = (s.drop m).net ∧ tget t.resv g =
        some { q with entries := (q.entries.filter fun x => x.who.key != a.w.key) ++ [{ who := a.w, dst := d, acc := a }], granted := false }) ∧
  (∀ (s : State) (m sl : Nat) (a : Acc) (d : Reg) (g : Nat), s.Arrives m sl a → a.k = .ldrw d → g = a.ga / 64 →
    s.resvRefused a = none → s.heads g a.w.key = false → ((s.drop m).unreserve a.w.key).resv = s.resv →
    (∀ q, tget s.resv g = some q → q.entries ≠ [] →
      (q.entries.length < 16 → ∃ t, exec (.reservationEnqueue m) s = .next t ∧ t.mem = s.mem ∧ t.lines = s.lines ∧
        tget t.resv g = some { q with entries := q.entries ++ [{ who := a.w, dst := d, acc := a }] } ∧ t.net = (s.drop m).net) ∧
      (16 ≤ q.entries.length → a.w.key ≠ noKey → ∃ t z f rec_, exec (.reservationEnqueue m) s = .next t ∧ t.resv = s.resv ∧
        t.net = (s.drop m).net ++ [z] ∧ z.dst = .line a.w.key ∧ z.body = .fault a.w f false false a.tok rec_ false ∧ f.cls = 0x0A ∧ f.sub = 0x01)) ∧
    (tget s.resv g = none → (s.resv.filter fun x => s.homeAt a.w.part x.1 == sl).length < 64 → ∃ t,
      exec (.reservationEnqueue m) s = .next t ∧ t.mem = s.mem ∧ t.lines = s.lines ∧
        tget t.resv g = some { entries := [{ who := a.w, dst := d, acc := a }], granted := false, since := s.cycle })) ∧
  (∀ (s : State) (g : Nat) (q : ResvQ) (h : ResvEntry) (l : Line), tget s.resv g = some q → q.entries.head? = some h → h.acc.ga / 64 = g →
    h.acc.w = h.who →
    ((∃ y ∈ s.net, ∃ a v n, y.body = .inval a g v n) → exec (.reservationGrant g) s = .next s) ∧
    (q.granted = true → exec (.reservationGrant g) s = .next s) ∧
    (q.granted = false → (∀ y ∈ s.net, ∀ a v n, y.body ≠ .inval a g v n) →
      (∀ y ∈ s.net, ∀ b, (y.body = .acc b ∨ (∃ x o, y.body = .hostReq x o b) ∨ ∃ x i, y.body = .bisnp x i (some b)) → b.w ≠ h.who) →
      s.slDown (s.homeAt h.who.part g) = false → s.gate s.nextId h.acc = .pass → h.who.emu = 0 →
      (∀ e ∈ s.cores, e.2.stash = [] ∧ (e.2.owned ≠ [] → (s.core e.1).serves = true)) →
      h.acc.leaf.cls = 0 → h.acc.leaf.peer = false → s.line? h.who.key = some l → l.life = .live → l.gen = h.who.gen → l.wtKind = 3 → l.heldFaults = [] →
      h.dst.val < 8 → ∃ t x, exec (.reservationGrant g) s = .next t ∧ t.line? h.who.key = some x ∧ x.wt = 0#32 ∧ x.pc = l.pc ∧
        x.v = l.v.set h.dst.val (W (s.rdNat h.acc.ga 8)) ∧ (tget t.resv g).map (·.granted) = some true ∧ t.mem = s.mem)) ∧
  (∀ (s : State) (m sl : Nat) (a : Acc) (v : Word), s.Arrives m sl a → a.k = .stc v →
    (s.heads (a.ga / 64) a.w.key = true → a.leaf.cls = 0 → a.leaf.peer = false → (∀ e ∈ s.cores, e.2.stash = [] ∧ (e.2.owned ≠ [] → (s.core e.1).serves = true)) →
      tget s.heldQ (a.ga / 64) = none → (∀ e ∈ s.lines, e.2.popWait = none) → ∃ t z, exec (.conditionalStore m) s = .next t ∧
      (∀ i, i < 8 → t.rdByte (a.ga + i) = (leBytes 8 v.toNat).getD i 0#8) ∧
      (∀ b, (b < a.ga ∨ a.ga + 8 ≤ b) → t.rdByte b = s.rdByte b) ∧
      (∀ q, tget s.resv (a.ga / 64) = some q → tget t.resv (a.ga / 64) =
        if q.entries.length = 1 then none else some { q with entries := q.entries.drop 1, granted := false }) ∧
      z ∈ t.net ∧ z.dst = .line a.w.key ∧ z.body = .reply a.w { regs := [], flags := Flags.none, p15 := some true } false false 0) ∧
    (s.heads (a.ga / 64) a.w.key = false → a.leaf.durable = false → ∃ t z, exec (.conditionalStore m) s = .next t ∧ t.mem = s.mem ∧
      t.lines = s.lines ∧ t.resv = s.resv ∧ t.net = (s.drop m).net ++ [z] ∧ z.dst = .line a.w.key ∧
      z.body = .reply a.w { regs := [], flags := Flags.none, p15 := some false } false true a.tok)) ∧
  (∀ (s : State) (g : Nat) (q : ResvQ), tget s.resv g = some q → q.granted = true →
    (s.cycle < q.since + 2 ^ 20 → exec (.reservationTimeout g) s = .next s) ∧
    (q.since + 2 ^ 20 ≤ s.cycle → ∃ t, exec (.reservationTimeout g) s = .next t ∧ t.lines = s.lines ∧ t.mem = s.mem ∧
      tget t.resv g = if q.entries.length ≤ 1 then none else some { q with entries := q.entries.drop 1, granted := false }))

/-- A write of an injector's control keeps every bit but the reserved ones, and its count starts when it is armed; when the injector fires on a flit it corrupts it, poisons it, drops it, or holds it back, and disarms unless it repeats. On a link that carries traffic, a flit sent for the first time stays in the replay buffer, and an older one comes only as part of a replay or where it was held back; the expected one is accepted, one after a gap or with a bad CRC is discarded, asks for a replay and is counted, a duplicate is discarded; a poisoned one that is accepted answers an access at its home with NET 0x23; an acknowledgement frees the flits up to its number; a replay request for the first missing number, and 4,096 cycles without an acknowledgement, replay the buffer, which keeps every flit, and one that finds the last replay without success counts it failed; 16 failed replays retrain the link, its buffer kept. A DOWN link that is enabled trains; training completes within 20 µs, DEGRADED with a spared lane, and a later one is a link fault that discards the buffer and is logged; a first bad lane degrades a link, a second faults it; a FAULTED link that is disabled is DOWN. (R346, R347, R348, R349, R350, R354, R355, R356) -/
def Obligations.LinkSteps : Prop :=
  ∀ (s : State) (lk : Nat) (l : Link), l = s.link lk →
    (∀ v : Word, ∃ t, exec (.injctlWrite lk v) s = .next t ∧ (∀ i, i < 64 → (t.inj lk).ctl.getLsbD i = (v.getLsbD i && (decide (i < 4) || decide (8 ≤ i)))) ∧
      (v.getLsbD 0 = true → (t.inj lk).left = wfld v 32 32) ∧ (v.getLsbD 0 = false → (t.inj lk).left = (s.inj lk).left) ∧
      (t.inj lk).fired = (s.inj lk).fired ∧ (t.inj lk).mask = (s.inj lk).mask) ∧
    (∀ (f g : FlitBody), s.sendable lk f = true → s.counts lk f = true → (s.inj lk).left ≤ 1 →
      g = { f with poison := f.poison || wfld (s.inj lk).ctl 2 2 == 1 } → ∃ t, exec (.injectorFire ⟨lk, f⟩) s = .next t ∧
      (t.inj lk).fired = (s.inj lk).fired + 1 ∧ ((s.inj lk).ctl.getLsbD 1 = false → (t.inj lk).ctl.getLsbD 0 = false) ∧
      ((s.inj lk).ctl.getLsbD 1 = true → (t.inj lk).ctl = (s.inj lk).ctl ∧ (t.inj lk).left = wfld (s.inj lk).ctl 32 32) ∧
      (t.link lk).txSeq = l.txSeq + 1 ∧ (t.link lk).replay = l.replay ++ [{ sq := l.txSeq, body := g }] ∧
      (wfld (s.inj lk).ctl 2 2 = 0 → crcGood lk (disturb (flitWire lk l.txSeq g)
          (8 * l.stripe lk (wfld (s.inj lk).ctl 24 8)) (leBytes 8 (s.inj lk).mask.toNat)) = false →
        (t.link lk).rxSeq = l.rxSeq ∧ (t.link lk).corrected = l.corrected + 1 ∧ (t.link lk).asked = true) ∧
      (wfld (s.inj lk).ctl 2 2 = 1 → l.rxSeq = l.txSeq → (t.link lk).rxSeq = l.rxSeq + 1) ∧
      (2 ≤ wfld (s.inj lk).ctl 2 2 → (t.link lk).rxSeq = l.rxSeq ∧ (t.link lk).corrected = l.corrected) ∧
      (wfld (s.inj lk).ctl 2 2 = 3 → (t.link lk).held = some (l.txSeq, s.cycle + wfld (s.inj lk).ctl 8 16))) ∧
    (∀ (sq : Nat) (f g : FlitBody) (noise : List Byte), l.flows = true → sq ≤ l.txSeq → g = (if sq = l.txSeq then f else l.kept sq f) →
      (sq < l.txSeq → l.comes sq s.cycle = true) → s.canForward lk g = true →
      (sq = l.txSeq → s.sendable lk f = true ∧ (s.counts lk f = true → 1 < (s.inj lk).left)) → ∃ t, exec (.flitReceive lk sq f noise) s = .next t ∧
        (sq = l.txSeq → (t.link lk).replay = l.replay ++ [{ sq := sq, body := f }] ∧ (t.link lk).txSeq = sq + 1 ∧
          (s.counts lk f = true → (t.inj lk).left = (s.inj lk).left - 1)) ∧
        (sq < l.txSeq → (t.link lk).replay = l.replay ∧ (t.link lk).txSeq = l.txSeq ∧ (t.inj lk).left = (s.inj lk).left) ∧
        (crcGood lk (disturb (flitWire lk sq g) 0 noise) = false →
          (t.link lk).rxSeq = l.rxSeq ∧ (t.link lk).corrected = l.corrected + 1 ∧ (t.link lk).asked = true) ∧
        (noise = [] →
          (sq = l.rxSeq → (t.link lk).rxSeq = sq + 1 ∧ (t.link lk).fails = 0 ∧ (t.link lk).again = false ∧ (t.link lk).asked = false) ∧
          (sq < l.rxSeq → (t.link lk).rxSeq = l.rxSeq ∧ (t.link lk).corrected = l.corrected) ∧
          (l.rxSeq < sq → (t.link lk).rxSeq = l.rxSeq ∧ (t.link lk).asked = true ∧
            (t.link lk).corrected = if l.asked = true then l.corrected else l.corrected + 1) ∧
          (∀ (x : Msg) (sl : Nat) (a : Acc), sq = l.rxSeq → g.poison = true → lk < 100 → s.net.find? (fun y => y.id == g.msg) = some x →
            x.dst = .slice sl → x.body = .acc a → a.k.silent = false → (∀ d sc, a.k ≠ .eng d sc) → a.w.key ≠ noKey →
            ∃ z ∈ t.net, z.dst = .line a.w.key ∧ ∃ h b c d r u, z.body = .fault a.w h b c d r u ∧ h.cls = 0x12 ∧ h.sub = 0x23))) ∧
    (l.flows = true → l.asked = true → (∀ sq, sq ≠ l.rxSeq → exec (.replayRequest lk sq) s = .next s) ∧
      ((l.replay.any fun f => f.sq == l.rxSeq) = true → ∃ t, exec (.replayRequest lk l.rxSeq) s = .next t ∧ (t.link lk).replay = l.replay ∧
        (t.link lk).again = true ∧ (t.link lk).sentAt = s.cycle ∧ (t.link lk).fails = if l.again = true then l.fails + 1 else l.fails)) ∧
    (l.flows = true → ∀ sq, sq < l.rxSeq → ∃ t, exec (.linkAck lk sq) s = .next t ∧
      (t.link lk).replay = l.replay.filter (fun f => decide (sq < f.sq)) ∧ (t.link lk).sentAt = s.cycle) ∧
    (l.flows = true → l.replay ≠ [] → (l.sentAt + 4096 ≤ s.cycle → ∃ t, exec (.replayTimeout lk) s = .next t ∧
        (t.link lk).replay = l.replay ∧ (t.link lk).again = true ∧ (t.link lk).sentAt = s.cycle ∧
        (t.link lk).fails = if l.again = true then l.fails + 1 else l.fails) ∧
      (s.cycle < l.sentAt + 4096 → exec (.replayTimeout lk) s = .next s)) ∧
    (l.flows = true → 16 ≤ l.fails → ∃ t, exec (.linkRetrain lk) s = .next t ∧ (t.link lk).st = .training ∧ (t.link lk).replay = l.replay ∧
      (t.link lk).since = s.gtime) ∧
    (l.st = .down → isLink lk = true → ∃ t, exec (.linkEnable lk) s = .next t ∧ (t.link lk).st = .training ∧ (t.link lk).since = s.gtime) ∧
    (l.st = .faulted → ∃ t, exec (.linkDisable lk) s = .next t ∧ (t.link lk).st = .down) ∧
    (l.st = .training → s.gtime ≤ l.since + 20000 → ∃ t, exec (.trainingComplete lk) s = .next t ∧
      (t.link lk).st = (if l.bad = [] then .up else .degraded) ∧ exec (.trainingTimeout lk) s = .next s) ∧
    (l.st = .training → l.since + 20000 < s.gtime → ∃ t x, exec (.trainingTimeout lk) s = .next t ∧ (t.link lk).st = .faulted ∧
      (t.link lk).replay = [] ∧ t.reg.log.getLast? = some x ∧ x.cls = 0x12 ∧ x.sub = 0x20 ∧ exec (.trainingComplete lk) s = .next s) ∧
    (∀ lane, (l.bad = [] → (l.flows = true → ∃ t, exec (.laneDegrade lk lane) s = .next t ∧ (t.link lk).st = .degraded ∧ (t.link lk).bad = [lane]) ∧
        (l.st = .training → ∃ t, exec (.laneTrainingFailure lk lane) s = .next t ∧ (t.link lk).st = .degraded ∧ (t.link lk).bad = [lane])) ∧
      (l.bad ≠ [] → lane ∉ l.bad → (l.flows = true → ∃ t, exec (.laneDegrade lk lane) s = .next t ∧ (t.link lk).st = .faulted ∧
          (t.link lk).replay = []) ∧
        (l.st = .training → ∃ t, exec (.laneTrainingFailure lk lane) s = .next t ∧ (t.link lk).st = .faulted)))

/-- An operation with room in the queue is accepted in order and its context goes on; one whose slot or B has changed since its issue is issued again (log entry 105), and a `ctswap` marks its table. At the head of the queue, with its issuer's writes performed and the unit idle, `mcfg` sets its slot, `mloadb` and `mepi` start, and an `mmac` starts if the resident B has its slot's tag and else ends with MX 0x05. `mloadb` of a format without scales loads the columns of its handle with the slot's tag, INT8 elements as signed numbers; `mmacs` takes its masks from the metadata queue, all before its first pass; a pass, where the cluster has energy left, writes its row of hD, keeps the row's prior bytes for its check, and writes nothing else; an epilogue's row is converted into hD. A row whose two sums agree mod 2^20 leaves the replay store; one that fails is restored and to be passed again, and after a second failure its core is contained. A context with no unchecked row left is not HELD any more. An operation with every row written and settled ends, or ends in its fault. A pending table swap exchanges the active and the shadow copy once nothing that captured the table is left. A semaphore's grant ends the wait for it, and an engine's post gives the oldest waiter its grant, or counts, and waits at 255. (R94, R205, R206, R207, R209, R210, R211, R212, R213, R216, R217, R219) -/
def Obligations.MatrixSteps : Prop :=
  (∀ (s : State) (m cl : Nat) (x : Msg) (o : MatOp) (l : Line), s.engineMsg? m = some x → x.dst = .engine cl → x.body = .matReq o →
    (∀ t, o.k = .ctswap t → (s.cl cl).t3swap.contains t = false) →
    (s.cl cl).mops.length + b2n (s.cl cl).mrun.isSome + b2n (s.cl cl).erun.isSome < 16 → s.answers o.who = true →
    s.line? o.who.key = some l → l.wt = 0x90000001#32 → l.heldFaults = [] → ∃ t y, exec (.matrixAccept m) s = .next t ∧
      t.line? o.who.key = some y ∧ y.wt = 0#32 ∧ y.v = l.v ∧
      (o.seen = (s.cl cl).judged o.k → y.pc = l.pc ∧ (t.cl cl).mops = (s.cl cl).mops ++ [{ o with prev := (s.cl cl).lastMat }] ∧
        (t.cl cl).lastMat = some o.id ∧ ∀ n, o.k = .ctswap n → (t.cl cl).t3swap.contains n = true) ∧
      (o.seen ≠ (s.cl cl).judged o.k → y.pc = o.who.pc ∧ (t.cl cl).mops = (s.cl cl).mops ∧ tget t.ops o.id = none)) ∧
  (∀ (s : State) (cl : Nat) (o : MatOp) (rest : List MatOp), (s.cl cl).mops = o :: rest → (s.cl cl).mrun = none → (s.cl cl).erun = none →
    o.who.key ≠ noKey → (∀ i ∈ o.after, tget s.ops i = none) →
    (∀ n, o.k = .ctswap n → ∃ t, exec (.matrixOpStart cl) s = .next t ∧ (t.cl cl).mops = rest ∧ tget (t.cl cl).swapOps n = some o.id ∧
      t.ops = s.ops) ∧
    (∀ n bs, o.k = .mcfg n bs → ∃ t, exec (.matrixOpStart cl) s = .next t ∧ (t.cl cl).mops = rest ∧ tget (t.cl cl).mslots n = some bs ∧
      t.ops = tdel s.ops o.id) ∧
    (∀ n h, o.k = .mloadb n h → ∃ t, exec (.matrixOpStart cl) s = .next t ∧ (t.cl cl).mops = rest ∧ (t.cl cl).mrun = some (startRun (s.cl cl) o n)) ∧
    (∀ n a d hA hD sc bi w v, o.k = .mepi n a d hA hD sc bi w v → ∃ t, exec (.matrixOpStart cl) s = .next t ∧ (t.cl cl).mops = rest ∧
      (t.cl cl).erun = some (startRun (s.cl cl) o n)) ∧
    (∀ sp n d hA hD w, o.k = .mmac sp n d hA hD w →
      ((s.cl cl).resB.map (·.tag) = some (tagOf n (mcfgOf ((tget (s.cl cl).mslots n).getD []))) → ∃ t, exec (.matrixOpStart cl) s = .next t ∧
        (t.cl cl).mops = rest ∧ (t.cl cl).mrun = some (startRun (s.cl cl) o n) ∧ t.net = s.net) ∧
      ((s.cl cl).resB.map (·.tag) ≠ some (tagOf n (mcfgOf ((tget (s.cl cl).mslots n).getD []))) → ∃ t z f, exec (.matrixOpStart cl) s = .next t ∧
        (t.cl cl).mops = rest ∧ (t.cl cl).mrun = none ∧ t.net = s.net ++ [z] ∧ z.dst = .line o.who.key ∧ ∃ rec_,
        z.body = .fault o.who f true false o.id rec_ false ∧ f.cls = 0x0B ∧ f.sub = 0x05))) ∧
  (∀ (s : State) (cl n : Nat) (r : MatRun) (h : Handle) (k : KSlot), (s.cl cl).mrun = some r → r.op.k = .mloadb n h →
    4 ≤ (mcfgOf r.cfg).bfmt → k = (s.core r.op.who.site).ks.getD r.op.who.ks KSlot.reset → ∃ t b, exec (.mloadbExecute cl) s = .next t ∧
      (t.cl cl).mrun = none ∧ (t.cl cl).resB = some b ∧ b.tag = tagOf n (mcfgOf r.cfg) ∧
      b = loadB (tagOf n (mcfgOf r.cfg)) r.op.tab ((List.range h.rows).map (rowElems (s.core r.op.who.site).scratch k h))
        ((List.range h.rows).map fun _ => []) ∧
      ((mcfgOf r.cfg).bfmt = 4 → b.cells = (List.range h.rows).map fun i =>
        (rowElems (s.core r.op.who.site).scratch k h i).map (signed 8)) ∧ t.ops = tdel s.ops r.op.id ∧ t.cores = s.cores) ∧
  (∀ (s : State) (cl n d need : Nat) (r : MatRun) (hA hD : Handle) (o : Word) (q : List (List Byte)), (s.cl cl).mrun = some r →
    r.op.k = .mmac true n d hA hD o → r.masked = false → r.err = none → r.masks = [] → need = (mcfgOf r.cfg).kk / 48 →
    q = tgetD (s.cl cl).mqueues ((mcfgOf r.cfg).qt % 4) [] →
    (q.length < need → ∃ t y, exec (.maskPop cl) s = .next t ∧ (t.cl cl).mrun = some y ∧ y.masks = q.map leNat ∧ y.masked = false ∧
      tgetD (t.cl cl).mqueues ((mcfgOf r.cfg).qt % 4) [] = []) ∧
    (need ≤ q.length → (∀ e ∈ q.take need, maskFault (mcfgOf r.cfg).spn (leNat e) = none) → ∃ t y, exec (.maskPop cl) s = .next t ∧
      (t.cl cl).mrun = some y ∧ y.masks = (q.take need).map leNat ∧ y.masked = true ∧ y.err = none ∧
      tgetD (t.cl cl).mqueues ((mcfgOf r.cfg).qt % 4) [] = q.drop need)) ∧
  (∀ (s : State) (cl n d row : Nat) (r : MatRun) (b : ResB) (sp : Bool) (hA hD : Handle) (o : Word) (k : KSlot) (bs : List Byte) (f : Flags)
      (p q : Nat), (s.cl cl).mrun = some r → (s.cl cl).resB = some b → r.op.k = .mmac sp n d hA hD o → (∀ u ∈ (s.cl cl).unchecked, u.pending = false) →
    (sp = true → r.masked = true) → r.err = none → r.row < matRows o → (s.cl cl).unchecked.length < 16 → (s.cl cl).account ≠ 0 →
    k = (s.core r.op.who.site).ks.getD r.op.who.ks KSlot.reset → row = matRow0 o + r.row →
    passRow (s.core r.op.who.site) k (mcfgOf r.cfg) b r.op r.masks hA hD (matZ o) row = .ok (bs, f, p, q) → ∃ t u y, exec (.matrixPass cl) s = .next t ∧
      (t.core r.op.who.site).scratch = memWrite (s.core r.op.who.site).scratch (k.rowAt hD row) bs ∧
      (∀ a, (a < k.rowAt hD row ∨ k.rowAt hD row + bs.length ≤ a) →
        memGet (t.core r.op.who.site).scratch a = memGet (s.core r.op.who.site).scratch a) ∧ t.mem = s.mem ∧ t.lines = s.lines ∧
      (t.cl cl).unchecked = (s.cl cl).unchecked ++ [u] ∧ u.row = row ∧ u.h = d ∧ u.at_ = k.rowAt hD row ∧
      u.prior = memRead (s.core r.op.who.site).scratch (k.rowAt hD row) hD.rowBytes ∧ u.p = p ∧ u.q = q ∧ (t.cl cl).mrun = some y ∧ y.row = r.row + 1 ∧
      y.flags = r.flags.or f) ∧
  (∀ (s : State) (cl n a d addr row : Nat) (r : MatRun) (hA hD : Handle) (sc bi : Option Handle) (o : Word) (k : KSlot), (s.cl cl).erun = some r →
    r.op.k = .mepi n a d hA hD sc bi o addr → r.err = none → (s.cl cl).unchecked = [] → r.row < matRows o → (s.cl cl).mrun = none →
    hD.fmt ≠ 10 → matG o = false → (s.core r.op.who.site).hold = [] → row = matRow0 o + r.row →
    k = (s.core r.op.who.site).ks.getD r.op.who.ks KSlot.reset → ∃ t y, exec (.epilogueRow cl) s = .next t ∧
      (t.core r.op.who.site).scratch = memWrite (s.core r.op.who.site).scratch (k.rowAt hD row)
        (rowOf hD.fmt (epiRow (s.core r.op.who.site) k (mcfgOf r.cfg) r.op hA hD sc bi row).1) ∧
      (t.core r.op.who.site).lfsr = (epiRow (s.core r.op.who.site) k (mcfgOf r.cfg) r.op hA hD sc bi row).2.2 ∧
      (t.cl cl).erun = some y ∧ y.row = r.row + 1 ∧ t.mem = s.mem ∧ t.lines = s.lines) ∧
  (∀ (s : State) (cl upset mac row : Nat) (align : Bool) (u : Unchecked) (rest : List Unchecked), (s.cl cl).unchecked = u :: rest → u.lost = false →
    u.pending = false → u.redo = false → (s.core u.site).hold = [] → (s.core u.site).holders = [] →
    ((u.p + upset) % 2 ^ 20 = u.q % 2 ^ 20 → align = false → ∃ t, exec (.passCheck cl ⟨upset, align, mac, row⟩) s = .next t ∧ (t.cl cl).unchecked = (s.cl cl).unchecked.filter (fun v => v != u) ∧
      (t.core u.site).scratch = (s.core u.site).scratch ∧ t.lines = s.lines) ∧
    ((u.p + upset) % 2 ^ 20 ≠ u.q % 2 ^ 20 ∨ align = true → u.failed = false → ∃ t y, exec (.passCheck cl ⟨upset, align, mac, row⟩) s = .next t ∧ y ∈ (t.cl cl).unchecked ∧ y.row = u.row ∧ y.failed = true ∧
      y.pending = true ∧ (t.core u.site).scratch = memWrite (s.core u.site).scratch u.at_ u.prior ∧ t.lines = s.lines) ∧
    ((u.p + upset) % 2 ^ 20 ≠ u.q % 2 ^ 20 ∨ align = true → u.failed = true → (s.core u.site).life = .active → ∃ t y,
      exec (.passCheck cl ⟨upset, align, mac, row⟩) s = .next t ∧ (t.core u.site).life = .containing ∧ y ∈ (t.cl cl).unchecked ∧ y.row = u.row ∧
      y.lost = true ∧
      (t.core u.site).scratch = memWrite (s.core u.site).scratch u.at_ u.prior)) ∧
  (∀ (s : State) (c key : Nat) (l : Line), tget (s.core c).holders key = some [] → (s.core c).hold = [] → s.line? key = some l → ∃ t y,
    exec (.heldRelease c key) s = .next t ∧ t.line? key = some y ∧ y.held = false ∧ y.pc = l.pc ∧ y.v = l.v ∧ y.wt = l.wt ∧
      tget (t.core c).holders key = none) ∧
  (∀ (s : State) (cl n d : Nat) (r : MatRun) (sp : Bool) (hA hD : Handle) (o : Word), (s.cl cl).mrun = some r → r.op.k = .mmac sp n d hA hD o →
    s.settled cl r = true → r.op.who.key ≠ noKey →
    (r.err = none → matRows o ≤ r.row → ∃ t, exec (.matrixComplete cl) s = .next t ∧ (t.cl cl).mrun = none ∧ t.cores = s.cores ∧
      (r.flags = Flags.none → matSe o = false → t.ops = tdel s.ops r.op.id) ∧
      (r.flags = Flags.none → matSe o = true → ∃ z ∈ t.net, z.body = .semPost cl (matSem o) r.op.id) ∧
      (r.flags ≠ Flags.none → ∃ z ∈ t.net, z.dst = .line r.op.who.key ∧ 
        z.body = .opFlags r.op.who r.flags r.op.id (if matSe o = true then some (cl, matSem o) else none))) ∧
    (∀ f, r.err = some f → ∃ t z rec_, exec (.matrixComplete cl) s = .next t ∧ (t.cl cl).mrun = none ∧ t.net = s.net ++ [z] ∧
      z.dst = .line r.op.who.key ∧ z.body = .fault r.op.who f true false r.op.id rec_ false)) ∧
  (∀ (s : State) (cl n a d addr : Nat) (r : MatRun) (hA hD : Handle) (sc bi : Option Handle) (o : Word), (s.cl cl).mrun = none →
    (s.cl cl).erun = some r → r.op.k = .mepi n a d hA hD sc bi o addr → s.settled cl r = true → r.err = none → matRows o ≤ r.row → ∃ t,
      exec (.matrixComplete cl) s = .next t ∧ (t.cl cl).erun = none ∧ t.cores = s.cores ∧
      (r.flags = Flags.none → matSe o = false → t.ops = tdel s.ops r.op.id) ∧
      (r.flags = Flags.none → matSe o = true → ∃ z ∈ t.net, z.body = .semPost cl (matSem o) r.op.id)) ∧
  (∀ (s : State) (cl t : Nat), (s.cl cl).t3swap.contains t = true →
    (s.captured cl t = true → exec (.tableSwap cl t) s = .next s) ∧
    (s.captured cl t = false → ∃ u, exec (.tableSwap cl t) s = .next u ∧ (u.cl cl).table t = (s.cl cl).shadow t ∧
      (u.cl cl).shadow t = (s.cl cl).table t ∧ (u.cl cl).t3swap.contains t = false ∧
      ∀ id, tget (s.cl cl).swapOps t = some id → tget u.ops id = none)) ∧
  (∀ (s : State) (m key n : Nat) (l : Line), s.find? m = some (.semGrant key n) → s.line? key = some l → l.life = .live → l.wtKind = 8 →
    l.wtDetail % 16 = n → l.heldFaults = [] → ∃ t x, exec (.semaphoreGrant m) s = .next t ∧ t.line? key = some x ∧ x.wt = 0#32 ∧
      x.pc = l.pc ∧ x.v = l.v) ∧
  (∀ (s : State) (m cl n op : Nat), s.find? m = some (.semPost cl n op) → (s.drop m).doneOp op = (s.drop m).endOp op →
    ((s.cl cl).semHead n = none → tgetD (s.cl cl).sems n 0 < 255 → ∃ t, exec (.engineSemaphorePost m) s = .next t ∧
      tget (t.cl cl).sems n = some (tgetD (s.cl cl).sems n 0 + 1) ∧ tget t.ops op = none ∧ t.net = (s.drop m).net) ∧
    ((s.cl cl).semHead n = none → 255 ≤ tgetD (s.cl cl).sems n 0 → exec (.engineSemaphorePost m) s = .next s) ∧
    (∀ w, (s.cl cl).semHead n = some w → ∃ t z, exec (.engineSemaphorePost m) s = .next t ∧ (t.cl cl).sems = (s.cl cl).sems ∧
      tget t.ops op = none ∧ t.net = (s.drop m).net ++ [z] ∧ z.dst = .line w.key ∧ z.body = .semGrant w.key n))

/-- In a dense pass with AFMT and BFMT INT8 and INT32 accumulators, over a B that was loaded from columns of INT8 codes, each element of the accumulator row becomes itself plus the sum over K of the products of the signed elements of the row of A and of its column of B, modulo 2^32, and no flag is raised; and the two sums of its check agree. (R98, R99, R211, R215) -/
def Obligations.IntegerMatrixRow : Prop :=
  ∀ (c : MCfg) (tag : BTag) (tab tab' : List T3Entry) (cols : List (List Nat)) (masks row scales acc : List Nat) (b : ResB)
    (segs : List (Seg × ASeg)), c.mode = 0 → c.afmt = 4 → c.bfmt = 4 → c.acc = 1 → 0 < c.kk → tag.bfmt = 4 → row.length = c.kk →
    cols.length = acc.length → cols.length ≤ 256 → (∀ col ∈ cols, col.length = c.kk) → b = loadB tag tab' cols (cols.map fun _ => []) →
    segs = rowSegs c tab masks row scales →
    (macRow c b segs acc).2 = Flags.none ∧ (macRow c b segs acc).1.length = acc.length ∧
    (∀ j, j < acc.length → (macRow c b segs acc).1.getD j 0 =
      wrap 32 ((acc.getD j 0 : Int) +
        sumInt ((List.range c.kk).map fun i => signed 8 (row.getD i 0) * signed 8 ((cols.getD j []).getD i 0)))) ∧
    passP b segs = passQ b segs

/-- A commit record that passes its checks goes to the commit unit; a page of another class gives REC 0x02 with the page's first byte, whatever its size, and a record that overlaps its lines REC 0x03. The unit takes the commits of a stream in the order they arrived: one uses up its mark, reads its covered lines, each once it is durable, and writes its record; a home that cannot be reached gives REC 0x05 with the mark used up; once the record is performed and mirrored the stream points at it and the reply goes back. Sixteen corrected mismatches within a second, and an uncorrectable error, stop a core; containment drops its dirty data, its bound lines and its tile vector work, and ends with the core CONTAINED. A die reset ends every copy and matrix operation of its clusters. A lost stack changes no byte that does not lie on it alone; lost power clears HBM and keeps host memory, the firmware slots and the retired cores. (R377, R392, R393, R395, R396, R399, R401, R402, R423) -/
def Obligations.RecoverySteps : Prop :=
  (∀ (s t u : State) (m sl va st tok : Nat) (wk : Bool) (w : Who) (cover : Word) (x : Msg) (l : Leaf) (ls : List (Nat × Leaf)),
    s.reqMsg? m = some x → x.dst = .slice sl → x.body = .req w va (.rcommit st cover) tok wk → w.key ≠ noKey →
    s.pathWaits (dieOf w.site) (dieOfCl sl) = false → s.unreached (dieOf w.site) sl = none →
    s.xlate w.part w.asid w.priv va .commitW = .ok (t, l) → t.xlateCover w (coverPages cover) = .ok (u, ls) →
    (l.cls ≠ 2 → ∃ r z, exec (.commitRecord m) s = .next r ∧ r.net = (u.drop m).net ++ [z] ∧ z.dst = .line w.key ∧ r.mem = u.mem ∧
      z.body = .fault w (recFlt 0x02 (va / l.span * l.span)) false false tok none false) ∧
    (∀ y, l.cls = 2 → ls.find? (fun p => !p.2.durable) = some y → ∃ r z, exec (.commitRecord m) s = .next r ∧
      r.net = (u.drop m).net ++ [z] ∧ z.dst = .line w.key ∧ r.mem = u.mem ∧
      z.body = .fault w (recFlt 0x02 (y.1 / y.2.span * y.2.span)) false false tok none false) ∧
    (l.cls = 2 → (∀ y ∈ ls, y.2.durable = true) →
      (va < coverL cover + 64 * coverN cover → coverL cover < va + 32 →
        ∃ r z, exec (.commitRecord m) s = .next r ∧ r.net = (u.drop m).net ++ [z] ∧ z.dst = .line w.key ∧ r.mem = u.mem ∧
          z.body = .fault w (recFlt 0x03 va) false false tok none false) ∧
      (¬(va < coverL cover + 64 * coverN cover ∧ coverL cover < va + 32) →
        ∃ r z, exec (.commitRecord m) s = .next r ∧ r.net = (u.drop m).net ++ [z] ∧ z.dst = .regulator ∧ r.mem = u.mem ∧
          r.parts = u.parts ∧ z.body = .commit w
            { va := va, ga := l.ga va, leaf := l, st := st, cover := cover,
              lines := coverLines ls (coverL cover) (64 * coverN cover), data := [], mark := none, grp := none, tok := tok }))) ∧
  (∀ (s : State) (m : Nat) (w : Who) (c : CommitRun) (y : Stream), s.find? m = some (.commit w c) → y = (s.part w.part).stream c.st →
    w.key ≠ noKey →
    (s.committing w.part c.st m = true → exec (.commitRecord m) s = .next s) ∧
    (s.committing w.part c.st m = false →
      (c.mark = none → ∃ r z, exec (.commitRecord m) s = .next r ∧ r.mem = s.mem ∧ r.lines = s.lines ∧
        (r.part w.part).stream c.st = { y with next := y.next + 1 } ∧ z ∈ r.net ∧ z.id = m ∧
        z.body = .commit w { c with mark := some (y.next, y.rcp) }) ∧
      (∀ (mk : Nat × Word) (va ga : Nat) (l : Leaf) (rest : List (Nat × Leaf)) (a : Acc) (u v : State), c.mark = some mk →
        c.lines = (va, l) :: rest → ga = l.ga va → a = unitAcc w va ga l [] 64 false → s.unitWaits w .commitR l ga = false →
        ((s.unreached (dieOf w.site) (s.unitHome w .commitR l ga)).isSome = true → ∃ r z, exec (.commitRecord m) s = .next r ∧
          r.net = (s.drop m).net ++ [z] ∧ z.dst = .line w.key ∧ r.mem = s.mem ∧ (r.part w.part).stream c.st = y ∧
          z.body = .fault w (recFlt 0x05 c.va) false false c.tok none false) ∧
        (s.unreached (dieOf w.site) (s.unitHome w .commitR l ga) = none →
          u = (s.recallStashes (ga / 64) none false).recallOwned (ga / 64) none →
          (u.undurable (ga / 64) = true → exec (.commitRecord m) s = .next u) ∧
          (u.undurable (ga / 64) = false → u.readyLine a false = .ok v → exec (.commitRecord m) s =
            .next ((v.homeRead w.site a 64).1.rebody m
              (.commit w { c with lines := rest, data := c.data ++ (v.homeRead w.site a 64).2 }))))) ∧
      (∀ (mark home : Nat) (prev : Word) (bs : List Byte) (a : Acc) (v : State), c.mark = some (mark, prev) → c.lines = [] → c.grp = none →
        bs = commitRecord mark prev c.cover c.st w.asid c.data → a = unitAcc w c.va c.ga c.leaf bs 32 true →
        home = (s.part w.part).home c.ga → s.pathWaits (dieOf w.site) (dieOfCl home) = false →
        ((s.unreached (dieOf w.site) home).isSome = true → ∃ r z, exec (.commitRecord m) s = .next r ∧ r.net = (s.drop m).net ++ [z] ∧
          z.dst = .line w.key ∧ r.mem = s.mem ∧ (r.part w.part).stream c.st = y ∧
          z.body = .fault w (recFlt 0x05 c.va) false false c.tok none false) ∧
        (s.unreached (dieOf w.site) home = none → s.readyLine a true = .ok v → exec (.commitRecord m) s =
          .next ((v.performWrite home (v.via a) a bs).1.rebody m
            (.commit w { c with grp := some (v.performWrite home (v.via a) a bs).2 })))) ∧
      (∀ (mk : Nat × Word) (grp : Nat), c.mark = some mk → c.lines = [] → c.grp = some grp →
        (s.openGroup grp = true ∨ s.mirrorLate (c.ga / 64) = true ∨ s.mirrorDieAway (s.mirrorDie w.part c.ga) = true →
          exec (.commitRecord m) s = .next s) ∧
        (s.openGroup grp = false → s.mirrorLate (c.ga / 64) = false → s.mirrorDieAway (s.mirrorDie w.part c.ga) = false → ∃ r z,
          exec (.commitRecord m) s = .next r ∧ r.mem = s.mem ∧ r.lines = s.lines ∧
          (r.part w.part).stream c.st = { y with rcp := W (2 ^ 63 + c.ga) } ∧
          r.net = (s.drop m).net ++ [z] ∧ z.dst = .line w.key ∧ z.body = .reply w Answer.none false false c.tok)))) ∧
  (∀ (mark st asid : Nat) (prev cover : Word) (data : List Byte), mark < 2 ^ 64 → st < 8 → asid < 2 ^ 16 →
    (commitRecord mark prev cover st asid data).length = 32 ∧ leField (commitRecord mark prev cover st asid data) 0 8 = mark ∧
    leField (commitRecord mark prev cover st asid data) 8 8 = prev.toNat ∧ leField (commitRecord mark prev cover st asid data) 16 8 = cover.toNat ∧
    leField (commitRecord mark prev cover st asid data) 24 2 = asid ∧ leField (commitRecord mark prev cover st asid data) 26 2 = st ∧
    leField (commitRecord mark prev cover st asid data) 28 4 % 2 ^ 32 =
      crc32c (data ++ (commitRecord mark prev cover st asid data).take 28) % 2 ^ 32) ∧
  (∀ (s : State) (c : Nat), (s.core c).life = .active →
    (16 ≤ ((s.core c).mism.filter fun t => decide (s.gtime < t + 1000000000)).length → ∃ t, exec (.mismatchThreshold c) s = .next t ∧
      (t.core c).life = .containing ∧ t.lines = s.lines ∧ t.mem = s.mem) ∧
    (((s.core c).mism.filter fun t => decide (s.gtime < t + 1000000000)).length < 16 → exec (.mismatchThreshold c) s = .next s)) ∧
  (∀ (s : State) (c bank synd kind size : Nat) (pa : Word),
    ((s.core c).serves = false → exec (.machineCheck c bank synd kind size pa) s = .next s) ∧
    ((s.core c).serves = true → ∃ t z y, exec (.machineCheck c bank synd kind size pa) s = .next t ∧ (t.core c).life = .containing ∧
      t.lines = s.lines ∧ z ∈ t.net ∧ z.body = .msg y ∧ y.desc = 0 ∧ y.faddr = pa ∧ y.part = s.partOf c)) ∧
  (∀ (s : State) (c : Nat),
    ((s.core c).life ≠ .containing → exec (.contain c) s = .next s ∧ exec (.containmentComplete c) s = .next s) ∧
    ((s.core c).life = .containing → ∃ t u, exec (.contain c) s = .next t ∧ (t.core c).stash = [] ∧ (t.core c).owned = [] ∧
      (t.core c).hold = [] ∧ (t.core c).bound = [] ∧ (t.core c).tvq = [] ∧ (t.core c).tvRun = none ∧
      (∀ o ∈ (t.cl (clusterOf c)).mops, o.who.site ≠ c) ∧ exec (.containmentComplete c) s = .next u ∧ (u.core c).life = .contained)) ∧
  (∀ (s : State) (d : Nat) (keep : List Nat),
    (4 ≤ d ∨ s.reg.resetDies.contains d = true → exec (.dieReset d keep) s = .next s) ∧
    (d < 4 → s.reg.resetDies.contains d = false → ∃ t, exec (.dieReset d keep) s = .next t ∧ t.reg.resetDies.contains d = true ∧
      ∀ cl, dieOfCl cl = d → (t.cl cl).copies = [] ∧ (t.cl cl).mops = [])) ∧
  (∀ (s : State) (k b : Nat), ∃ t u, exec (.stackLoss k) s = .next t ∧ t.lines = s.lines ∧ t.cores = s.cores ∧
    (s.onStack k b = false → memGet t.mem b = memGet s.mem b) ∧ exec .powerLoss s = .next u ∧ u.reg.powered = false ∧ u.lines = [] ∧
    u.cores = [] ∧ (b < hbmEnd → memGet u.mem b = blankByte) ∧ (gHost ≤ b → b < gDev → memGet u.mem b = memGet s.mem b) ∧
    u.reg.slotA = s.reg.slotA ∧ u.reg.slotB = s.reg.slotB ∧ u.reg.fwMin = s.reg.fwMin ∧ u.reg.retired = s.reg.retired)

/-- A request that the Regulator serves ends in its mailbox as done or as refused with a reason. A merge takes only whole empty partitions and joins their quarters, a split gives the quarters it names to a new one; ending a kernel loses its live contexts and stops its placement. A contained core that passes its test returns ACTIVE with its state clear and its position kept, one that fails is retired. A quiet partition takes a patch image that verifies, and one whose switch is pending takes it with the switch. Firmware goes to the slot that does not run. A link is disabled when FAULTED and trained when DOWN. The power grants are zero for an empty cluster, the floor alone for a hot one, and never sum above the package budget; above 115 °C power is removed. (R350, R382, R392, R406, R417, R418, R421, R422, R423, R424, R425, R427) -/
def Obligations.RegulatorSteps : Prop :=
  (∀ (s : State) (m box : Nat) (r : Option Nat), ((s.regEnd m box r).box box).stat = (match r with | none => 2 | some n => 3 + n * 256) ∧
    (s.regEnd m box r).net = (s.drop m).net ∧ (s.regEnd m box r).lines = s.lines ∧ (s.regEnd m box r).cores = s.cores ∧
    (s.regEnd m box r).parts = s.parts ∧ (s.regEnd m box r).mem = s.mem) ∧
  (∀ (s : State) (m box p : Nat) (args : List Nat), s.regReq? m 1 = some (box, p, args) →
    (box < 16 → exec (.merge m) s = .next (s.regEnd m box (some 5))) ∧
    (16 ≤ box → p ≠ args.getD 0 0 → (tget s.parts p).isSome = true → (tget s.parts (args.getD 0 0)).isSome = true →
      (s.partEmpty p = false ∨ s.partEmpty (args.getD 0 0) = false → exec (.merge m) s = .next (s.regEnd m box (some 2))) ∧
      (s.partEmpty p = true → s.partEmpty (args.getD 0 0) = true → ∃ t, exec (.merge m) s = .next t ∧ (t.box box).stat = 2 ∧
        (t.part p).mask = (s.part p).mask ||| (s.part (args.getD 0 0)).mask ∧ tget t.parts (args.getD 0 0) = none))) ∧
  (∀ (s : State) (m box p : Nat) (args : List Nat), s.regReq? m 2 = some (box, p, args) →
    (box < 16 → exec (.split m) s = .next (s.regEnd m box (some 5))) ∧
    (16 ≤ box → (tget s.parts p).isSome = true → args.getD 0 0 < 16 → tget s.parts (args.getD 0 0) = none → args.getD 1 0 ≠ 0 →
      args.getD 1 0 &&& (s.part p).mask = args.getD 1 0 → args.getD 1 0 ≠ (s.part p).mask →
      (s.partEmpty p = false → exec (.split m) s = .next (s.regEnd m box (some 2))) ∧
      (s.partEmpty p = true → ∃ t, exec (.split m) s = .next t ∧ (t.box box).stat = 2 ∧
        (t.part p).mask = (s.part p).mask ^^^ args.getD 1 0 ∧ (t.part (args.getD 0 0)).mask = args.getD 1 0))) ∧
  (∀ (s : State) (m box p : Nat) (args : List Nat) (k : Kernel), s.regReq? m 3 = some (box, p, args) →
    ((s.part p).kernel? (args.getD 0 0) = none → exec (.endKernel m) s = .next (s.regEnd m box (some 5))) ∧
    ((s.part p).kernel? (args.getD 0 0) = some k → k.state ≠ .queued → ∃ t x, exec (.endKernel m) s = .next t ∧ (t.box box).stat = 2 ∧
      (t.part p).kernel? (args.getD 0 0) = some x ∧ x.ending = true ∧ x.nextSeed = x.hdr.count ∧
      ∀ key l, s.line? key = some l → l.life = .live → l.away = false → l.part = p → l.kid = args.getD 0 0 →
        ∃ y, t.line? key = some y ∧ y.life = .lost)) ∧
  (∀ (s : State) (m box p c : Nat) (args : List Nat), s.regReq? m 5 = some (box, p, args) → s.namedCore box (args.getD 0 0) = some c →
    ((s.core c).life = .contained → ∃ t u, exec (.restartCore m true) s = .next t ∧ (t.box box).stat = 2 ∧
      t.core c = { Core.reset with pos := (s.core c).pos, mism := (s.core c).mism } ∧ exec (.restartCore m false) s = .next u ∧
      (u.box box).stat = 3 + 5 * 256 ∧ c ∈ u.reg.retired ∧
      (((s.flood (dieOf c)).state = 0 ∨ (s.flood (dieOf c)).imgDone = true) → (u.core c).life = .retired)) ∧
    ((s.core c).life = .halted → ∃ (t : State) (x : Core), exec (.restartCore m true) s = .next t ∧ (t.box box).stat = 2 ∧
      t.core c = { Core.reset with pos := x.pos, mism := x.mism } ∧
      exec (.restartCore m false) s = .next (s.regEnd m box (some 5))) ∧
    ((s.core c).life ≠ .contained → (s.core c).life ≠ .halted → ∀ pass, exec (.restartCore m pass) s = .next (s.regEnd m box (some 5)))) ∧
  (∀ (s : State) (m box p c : Nat) (args : List Nat), s.regReq? m 6 = some (box, p, args) → s.namedCore box (args.getD 0 0) = some c →
    ((s.core c).life = .contained → ∃ t, exec (.retireCore m) s = .next t ∧ (t.box box).stat = 2 ∧ c ∈ t.reg.retired ∧
      (((s.flood (dieOf c)).state = 0 ∨ (s.flood (dieOf c)).imgDone = true) → (t.core c).life = .retired)) ∧
    ((s.core c).life ≠ .contained → exec (.retireCore m) s = .next (s.regEnd m box (some 5)))) ∧
  (∀ (s u v : State) (m box p : Nat) (args : List Nat) (head bs : List Byte), s.regReq? m 4 = some (box, p, args) →
    (tget s.parts p).isSome = true → inHbm (args.getD 0 0) 0x480 = true →
    ((s.part p).gsstat.toNat % 4 ≠ 1 → s.quiet p = false → exec (.loadPatchImage m) s = .next (s.regEnd m box (some 2))) ∧
    ((s.part p).gsstat.toNat % 4 = 1 ∨ s.quiet p = true → s.regFetch (args.getD 0 0) 16 = (u, head) → leField head 8 2 ≤ 64 →
      inHbm (args.getD 0 0) (0x440 + 64 * leField head 8 2 + 64) = true →
      u.regFetch (args.getD 0 0) (0x440 + 64 * leField head 8 2 + 64) = (v, bs) →
      (∀ r, verifyImage bs (s.part p).patchMin = .error r → exec (.loadPatchImage m) s = .next (s.regEnd m box (some r))) ∧
      (∀ i, verifyImage bs (s.part p).patchMin = .ok i → ∃ t, exec (.loadPatchImage m) s = .next t ∧ (t.box box).stat = 2 ∧
        ((s.part p).gsstat.toNat % 4 = 1 → (t.part p).imageNext = some i) ∧
        ((s.part p).gsstat.toNat % 4 ≠ 1 → (t.part p).image = i)))) ∧
  (∀ (s u : State) (m box p : Nat) (args : List Nat) (nonce : List Byte), s.regReq? m 7 = some (box, p, args) →
    (inHbm (args.getD 0 0) 32 = false → exec (.attest m) s = .next (s.regEnd m box (some 5))) ∧
    (inHbm (args.getD 0 0) 32 = true → s.regFetch (args.getD 0 0) 32 = (u, nonce) →
      inHbm (args.getD 1 0) ((u.report426 nonce).length + 64) = true → exec (.attest m) s = .next
        ((u.hostAccess (args.getD 1 0) true (u.report426 nonce ++ fitBytes 64 (Config.deviceSign (Config.sha256 (u.report426 nonce))))
          false).regEnd m box none))) ∧
  (∀ (s u : State) (m box p : Nat) (args : List Nat) (bs : List Byte), s.regReq? m 8 = some (box, p, args) → 68 ≤ args.getD 1 0 →
    inHbm (args.getD 0 0) (args.getD 1 0) = true → s.regFetch (args.getD 0 0) (args.getD 1 0) = (u, bs) →
    (signedOk firmwareKey bs = false → exec (.updateFirmware m) s = .next (s.regEnd m box (some 3))) ∧
    (signedOk firmwareKey bs = true → fwVersion bs < u.reg.fwMin → exec (.updateFirmware m) s = .next (s.regEnd m box (some 4))) ∧
    (signedOk firmwareKey bs = true → u.reg.fwMin ≤ fwVersion bs → ∃ t, exec (.updateFirmware m) s = .next t ∧ (t.box box).stat = 2 ∧
      t.reg.fwMin = fwVersion bs ∧ t.reg.running = u.reg.running ∧ (if u.reg.runsB = true then t.reg.slotA else t.reg.slotB) = bs)) ∧
  (∀ (s : State) (m box p n : Nat) (args : List Nat), s.regReq? m 9 = some (box, p, args) → args.getD 0 0 = n → n < 4 →
    (args.getD 1 0 = 0 → ∃ t, exec (.linkState m) s = .next t ∧ (t.box box).stat = 2 ∧
      ((s.link (2 * n)).st = .faulted → (t.link (2 * n)).st = .down) ∧ ((s.link (2 * n + 1)).st = .faulted → (t.link (2 * n + 1)).st = .down)) ∧
    (args.getD 1 0 = 1 → ∃ t, exec (.linkState m) s = .next t ∧ (t.box box).stat = 2 ∧
      ((s.link (2 * n)).st = .down → (t.link (2 * n)).st = .training) ∧
      ((s.link (2 * n + 1)).st = .down → (t.link (2 * n + 1)).st = .training)) ∧
    (2 ≤ args.getD 1 0 → exec (.linkState m) s = .next (s.regEnd m box (some 5)))) ∧
  (∀ (s : State) (v : Word), ∃ t, exec (.objectSelect v) s = .next t ∧ t.reg.selector = v ∧ t.lines = s.lines ∧ t.mem = s.mem ∧
    t.parts = s.parts) ∧
  (∀ (s : State) (req : List Nat), ∃ t, exec (.powerGrantStep req) s = .next t ∧
    (∀ c, c < 256 → (s.populated c = false → (t.cl c).grant = 0) ∧ (s.populated c = true → 160 ≤ (t.cl c).grant) ∧
      (s.populated c = true → 1680 < (s.cl c).temp → (t.cl c).grant = 160) ∧ (t.cl c).account = (t.cl c).grant ∧
      (t.cl c).temp = (s.cl c).temp) ∧
    ((List.range 256).map fun c => (t.cl c).grant).sum ≤ 128000) ∧
  (∀ (s : State) (cl temp : Nat), ∃ t, exec (.thermalLimit cl temp) s = .next t ∧
    (temp ≤ 1840 → (t.cl cl).temp = temp ∧ t.reg = s.reg) ∧ (1840 < temp → t.reg.powered = false))

/-- A switch waits until its time has come and everything accepted has completed. A save area that cannot be used aborts it: it is idle with ERR set, and the partition keeps its kernels. Otherwise the partition's kernels and rings are saved under the area, the partition has those of the incoming area, or none, and the switch goes on until every ejected message has been re-injected: each round takes the messages of fewest remaining hops, and no round starts before the last one was accepted. (R383, R385, R387, R388) -/
def Obligations.SwitchSteps : Prop :=
  (∀ (s : State) (p : Nat),
    ((s.part p).gsstat.toNat % 4 ≠ 1 ∨ s.gtime < (s.part p).gswt.toNat ∨ s.finished p = false ∨ s.ejectable p = false →
      exec (.gangSwitch p) s = .next s) ∧
    ((s.part p).gsstat.toNat % 4 = 1 → (s.part p).gswt.toNat ≤ s.gtime → s.finished p = true → s.ejectable p = true →
      (s.areaOk p (s.part p).gsout.toNat (.engWrite false) ((s.part p).areaSize / 4096) = false → ∃ t, exec (.gangSwitch p) s = .next t ∧
        (t.part p).gsstat.toNat % 8 = 4 ∧ (t.part p).kernels = (s.part p).kernels ∧ t.net = s.net ∧ t.lines = s.lines ∧ t.mem = s.mem) ∧
      (s.areaOk p (s.part p).gsout.toNat (.engWrite false) ((s.part p).areaSize / 4096) = true →
        ((s.part p).gsin = 0#64 → ∃ t ga v, exec (.gangSwitch p) s = .next t ∧
          (t.part p).gsstat.toNat % 4 = (if (t.part p).reinject.isEmpty = true then 3 else 2) ∧ (t.part p).kernels = [] ∧ (t.part p).rings = [] ∧
          tget (t.part p).saved ga = some v ∧ v.kernels = (s.part p).kernels ∧ v.rings = (s.part p).rings) ∧
        ((s.part p).gsin ≠ 0#64 → (s.part p).gsin ≠ (s.part p).gsout →
          s.areaValid p (s.areaGa p (s.part p).gsin.toNat .engRead) = false → ∃ t, exec (.gangSwitch p) s = .next t ∧
            (t.part p).gsstat.toNat % 8 = 4 ∧ (t.part p).kernels = (s.part p).kernels ∧ t.net = s.net ∧ t.lines = s.lines)))) ∧
  (∀ (s : State) (p : Nat),
    ((s.part p).gsstat.toNat % 4 ≠ 2 ∨ (∃ i ∈ (s.part p).round, s.accepted i = false) → exec (.reinjectRound p) s = .next s) ∧
    ((s.part p).gsstat.toNat % 4 = 2 → (∀ i ∈ (s.part p).round, s.accepted i = true) →
      ((s.part p).reinject = [] → ∃ t, exec (.reinjectRound p) s = .next t ∧ (t.part p).gsstat.toNat % 4 = 3 ∧ t.net = s.net ∧
        t.lines = s.lines ∧ t.mem = s.mem) ∧
      ((s.part p).reinject ≠ [] → ∃ t, exec (.reinjectRound p) s = .next t ∧ t.lines = s.lines ∧ t.mem = s.mem ∧
        (∀ z ∈ t.net, z ∈ s.net ∨ (z ∈ (s.part p).reinject ∧ ∀ y ∈ (s.part p).reinject, s.hopsOf z ≤ s.hopsOf y)) ∧
        (∀ z ∈ (s.part p).reinject, z ∈ t.net ∨ z ∈ (t.part p).reinject) ∧ (∀ z ∈ s.net, z ∈ t.net) ∧
        (t.part p).reinject.length < (s.part p).reinject.length ∧ (t.part p).gsstat = (s.part p).gsstat)))
end

