-- ==== Sys2Proof/Laws/Base.lean ====
section
/-! SUPPORT. The laws of sparse tables, sparse byte memories and byte order: read after write, the canonical form kept by
every memory operation, and numbers through their bytes. -/

namespace Sys2Proof.Machine

/-! ## Tables -/

variable {α : Type}

/-- Keys strictly rising, as a statement about every pair. -/
theorem tsorted_iff (t : Table α) : tsorted t = true ↔ t.Pairwise (fun x y => x.1 < y.1) := by
  induction t with
  | nil => simp [tsorted]
  | cons x r ih =>
    cases r with
    | nil => simp [tsorted]
    | cons y r =>
      rw [tsorted, Bool.and_eq_true, ih]
      constructor
      · rintro ⟨h, hr⟩
        refine List.pairwise_cons.mpr ⟨fun z hz => ?_, hr⟩
        have h' : x.1 < y.1 := by simpa using h
        rcases List.mem_cons.mp hz with rfl | hz
        · exact h'
        · exact h'.trans ((List.pairwise_cons.mp hr).1 z hz)
      · intro hp
        obtain ⟨h, hr⟩ := List.pairwise_cons.mp hp
        exact ⟨by simpa using h y List.mem_cons_self, hr⟩

@[simp] theorem tget_nil (k : Nat) : tget ([] : Table α) k = none := rfl

theorem tget_cons (i : Nat) (a : α) (t : Table α) (k : Nat) : tget ((i, a) :: t) k = if i = k then some a else tget t k := rfl

/-- An entry reads as it was written. -/
@[simp] theorem tget_tset_eq (t : Table α) (k : Nat) (a : α) : tget (tset t k a) k = some a := by
  induction t with
  | nil => simp [tset, tget]
  | cons e r ih => simp only [tset]; split_ifs <;> simp_all [tget, eq_comm]

/-- A write leaves every other entry alone. -/
theorem tget_tset_ne (t : Table α) {k j : Nat} (a : α) (h : j ≠ k) : tget (tset t k a) j = tget t j := by
  induction t with
  | nil => simp [tset, tget, h.symm]
  | cons e r ih =>
    obtain ⟨i, b⟩ := e
    simp only [tset]
    split_ifs with h1 h2
    · rw [tget_cons, if_neg (Ne.symm h)]
    · subst h2; rw [tget_cons, tget_cons, if_neg (Ne.symm h), if_neg (Ne.symm h)]
    · rw [tget_cons, tget_cons, ih]

/-- Both cases in one. -/
theorem tget_tset (t : Table α) (k j : Nat) (a : α) : tget (tset t k a) j = if j = k then some a else tget t j := by
  split_ifs with h
  · rw [h, tget_tset_eq]
  · exact tget_tset_ne t a h

@[simp] theorem tgetD_tset_eq (t : Table α) (k : Nat) (a d : α) : tgetD (tset t k a) k d = a := by simp [tgetD]

theorem tgetD_tset_ne (t : Table α) {k j : Nat} (a d : α) (h : j ≠ k) : tgetD (tset t k a) j d = tgetD t j d := by
  simp [tgetD, tget_tset_ne t a h]

/-- A removed entry is gone. -/
@[simp] theorem tget_tdel_eq (t : Table α) (k : Nat) : tget (tdel t k) k = none := by
  induction t with
  | nil => rfl
  | cons e r ih =>
    obtain ⟨i, a⟩ := e
    by_cases h : i = k <;> simp_all [tdel, tget]

/-- Removing an entry leaves every other alone. -/
theorem tget_tdel_ne (t : Table α) {k j : Nat} (h : j ≠ k) : tget (tdel t k) j = tget t j := by
  induction t with
  | nil => rfl
  | cons e r ih =>
    obtain ⟨i, a⟩ := e
    by_cases hi : i = k
    · subst hi; simp_all [tdel, tget, h.symm]
    · by_cases hj : i = j <;> simp_all [tdel, tget]

/-- The keys of a table with an entry set. -/
theorem mem_tset {t : Table α} {k : Nat} {a : α} {e : Nat × α} (h : e ∈ tset t k a) : e = (k, a) ∨ e ∈ t := by
  induction t with
  | nil => simpa [tset] using h
  | cons x r ih =>
    simp only [tset] at h
    split_ifs at h <;> simp only [List.mem_cons] at h ⊢ <;> grind

/-- Setting an entry keeps the keys rising. -/
theorem tsorted_tset {t : Table α} (h : tsorted t = true) (k : Nat) (a : α) : tsorted (tset t k a) = true := by
  rw [tsorted_iff] at h ⊢
  induction t with
  | nil => simp [tset]
  | cons x r ih =>
    have hp := List.pairwise_cons.mp h
    simp only [tset]
    split_ifs with h1 h2
    · exact List.pairwise_cons.mpr ⟨fun y hy => by
        rcases List.mem_cons.mp hy with rfl | hy
        · exact h1
        · exact h1.trans (hp.1 y hy), h⟩
    · exact List.pairwise_cons.mpr ⟨fun y hy => by simpa [h2] using hp.1 y hy, hp.2⟩
    · refine List.pairwise_cons.mpr ⟨fun y hy => ?_, ih hp.2⟩
      rcases mem_tset hy with rfl | hy
      · simp only; omega
      · exact hp.1 y hy

/-- Removing entries keeps the keys rising. -/
theorem tsorted_filter {t : Table α} (h : tsorted t = true) (p : Nat × α → Bool) : tsorted (t.filter p) = true := by
  rw [tsorted_iff] at h ⊢
  exact h.filter p

theorem tsorted_tdel {t : Table α} (h : tsorted t = true) (k : Nat) : tsorted (tdel t k) = true := tsorted_filter h _

/-! ## Byte memories -/

@[simp] theorem memGet_nil (a : Nat) : memGet [] a = blankByte := rfl

/-- A write leaves every other byte alone. -/
theorem memGet_memSet_ne (m : Mem) {a j : Nat} (b : Byte) (h : j ≠ a) : memGet (memSet m a b) j = memGet m j := by
  unfold memGet memSet
  split_ifs
  · rw [tget_tdel_ne m h]
  · rw [tget_tset_ne m b h]

/-- A byte reads as it was written. -/
@[simp] theorem memGet_memSet_eq (m : Mem) (a : Nat) (b : Byte) : memGet (memSet m a b) a = b := by
  unfold memGet memSet
  split_ifs with h
  · simp [h]
  · simp

/-- The canonical form, in its two parts. -/
theorem Memory.wf_iff (m : Mem) :
    Memory.wf m = true ↔ m.Pairwise (fun x y => x.1 < y.1) ∧ ∀ c ∈ m, c.2 ≠ blankByte := by
  simp [Memory.wf, memNoBlank, tsorted_iff]

theorem Memory.wf_sorted {m : Mem} (h : Memory.wf m = true) : tsorted m = true := ((Bool.and_eq_true _ _).mp h).1

@[simp] theorem Memory.wf_nil : Memory.wf [] = true := rfl

/-- Writing one byte keeps the canonical form. -/
theorem Memory.wf_memSet {m : Mem} (h : Memory.wf m = true) (a : Nat) (b : Byte) : Memory.wf (memSet m a b) = true := by
  have hs := Memory.wf_sorted h
  have hn := ((Memory.wf_iff m).mp h).2
  have : tsorted (memSet m a b) = true ∧ ∀ c ∈ memSet m a b, c.2 ≠ blankByte := by
    unfold memSet
    split_ifs with hb
    · exact ⟨tsorted_tdel hs a, fun c hc => hn c (List.mem_of_mem_filter hc)⟩
    · refine ⟨tsorted_tset hs a b, fun c hc => ?_⟩
      rcases mem_tset hc with rfl | hc
      exacts [hb, hn c hc]
  rw [Memory.wf_iff]
  exact ⟨(tsorted_iff _).mp this.1, this.2⟩

/-- Writing bytes keeps the canonical form. -/
theorem Memory.wf_memWrite {m : Mem} (h : Memory.wf m = true) (a : Nat) (bs : List Byte) :
    Memory.wf (memWrite m a bs) = true := by
  induction bs generalizing m a with
  | nil => exact h
  | cons b r ih => exact ih (Memory.wf_memSet h a b) (a + 1)

/-- Dropping cells keeps the canonical form. -/
theorem Memory.wf_filter {m : Mem} (h : Memory.wf m = true) (p : Host.Cell → Bool) : Memory.wf (m.filter p) = true := by
  rw [Memory.wf_iff] at h ⊢
  exact ⟨h.1.filter p, fun c hc => h.2 c (List.mem_of_mem_filter hc)⟩

/-- A fold of steps that each keep the canonical form keeps it. -/
theorem Memory.wf_foldl {β : Type} (f : Mem → β → Mem) (hf : ∀ m b, Memory.wf m = true → Memory.wf (f m b) = true)
    (l : List β) {m : Mem} (h : Memory.wf m = true) : Memory.wf (l.foldl f m) = true := by
  induction l generalizing m with
  | nil => exact h
  | cons b r ih => exact ih (hf m b h)

/-- Bytes outside a written range stay. -/
theorem memGet_memWrite_out (m : Mem) (a : Nat) (bs : List Byte) {j : Nat} (h : j < a ∨ a + bs.length ≤ j) :
    memGet (memWrite m a bs) j = memGet m j := by
  induction bs generalizing m a with
  | nil => rfl
  | cons b r ih =>
    simp only [List.length_cons] at h
    rw [memWrite, ih _ (a + 1) (by omega), memGet_memSet_ne _ _ (by omega)]

/-- Bytes inside a written range read as written. -/
theorem memGet_memWrite_in (m : Mem) (a : Nat) (bs : List Byte) (i : Nat) (h : i < bs.length) :
    memGet (memWrite m a bs) (a + i) = bs[i] := by
  induction bs generalizing m a i with
  | nil => simp at h
  | cons b r ih =>
    cases i with
    | zero =>
      rw [memWrite, memGet_memWrite_out _ _ _ (by omega), Nat.add_zero, memGet_memSet_eq]
      rfl
    | succ i =>
      rw [memWrite, show a + (i + 1) = a + 1 + i by omega, ih _ (a + 1) i (by simpa using h)]
      rfl

@[simp] theorem memRead_length (m : Mem) (a n : Nat) : (memRead m a n).length = n := by simp [memRead]

/-- Reading back what was written. -/
theorem memRead_memWrite (m : Mem) (a : Nat) (bs : List Byte) :
    memRead (memWrite m a bs) a bs.length = bs := by
  apply List.ext_getElem (by simp)
  intro i h1 h2
  simp only [memRead, List.getElem_map, List.getElem_range]
  exact memGet_memWrite_in m a bs i h2

/-- Reading what lies outside a written range. -/
theorem memRead_memWrite_out (m : Mem) (a : Nat) (bs : List Byte) (b n : Nat) (h : b + n ≤ a ∨ a + bs.length ≤ b) :
    memRead (memWrite m a bs) b n = memRead m b n := by
  apply List.map_congr_left
  intro i hi
  rw [List.mem_range] at hi
  exact memGet_memWrite_out m a bs (by omega)

/-! ## Byte order (R4) -/

@[simp] theorem leBytes_length (n x : Nat) : (leBytes n x).length = n := by
  induction n generalizing x with
  | zero => rfl
  | succ n ih => simp [leBytes, ih]

@[simp] theorem fitBytes_length (n : Nat) (bs : List Byte) : (fitBytes n bs).length = n := by
  simp [fitBytes]

/-- A number through its bytes. -/
theorem leNat_leBytes (n x : Nat) : leNat (leBytes n x) = x % 256 ^ n := by
  induction n generalizing x with
  | zero => simp [leBytes, leNat, Nat.mod_one]
  | succ n ih =>
    rw [leBytes, leNat, ih, Nat.pow_succ, Nat.mul_comm (256 ^ n), Nat.mod_mul]
    simp

theorem leNat_lt (bs : List Byte) : leNat bs < 256 ^ bs.length := by
  induction bs with
  | nil => simp [leNat]
  | cons b r ih =>
    have := b.isLt
    rw [leNat, List.length_cons, Nat.pow_succ]
    omega

/-- Bytes through their number. -/
theorem leBytes_leNat (bs : List Byte) : leBytes bs.length (leNat bs) = bs := by
  induction bs with
  | nil => rfl
  | cons b r ih =>
    have hb := b.isLt
    have h1 : BitVec.ofNat 8 (b.toNat + 256 * leNat r) = b := by
      apply BitVec.eq_of_toNat_eq
      simp only [BitVec.toNat_ofNat]
      omega
    have h2 : (b.toNat + 256 * leNat r) / 256 = leNat r := by omega
    rw [List.length_cons, leBytes, leNat, h1, h2, ih]

theorem leNat_append (a b : List Byte) : leNat (a ++ b) = leNat a + 256 ^ a.length * leNat b := by
  induction a with
  | nil => simp [leNat]
  | cons x r ih => simp only [List.cons_append, leNat, ih, List.length_cons, Nat.pow_succ]; ring

/-- A replaced part keeps the length when it lies inside. -/
theorem patchBytes_length (bs : List Byte) (i : Nat) (new : List Byte) (h : i + new.length ≤ bs.length) :
    (patchBytes bs i new).length = bs.length := by
  simp only [patchBytes, List.length_append, List.length_take, List.length_drop]
  omega

/-! ## Fields of words -/

theorem wordOfLe8 (x : Word) : BitVec.ofNat 64 (leNat (leBytes 8 x.toNat)) = x := by
  rw [leNat_leBytes, show (256 : Nat) ^ 8 = 2 ^ 64 by norm_num, Nat.mod_eq_of_lt x.isLt]
  simp

theorem wordOfLe4 (x : BitVec 32) : BitVec.ofNat 32 (leNat (leBytes 4 x.toNat)) = x := by
  rw [leNat_leBytes, show (256 : Nat) ^ 4 = 2 ^ 32 by norm_num, Nat.mod_eq_of_lt x.isLt]
  simp

/-- The memory after reset has the canonical form. -/
theorem State.reset_mem_wf : Memory.wf State.reset.mem = true := rfl

end Sys2Proof.Machine
end

