-- ==== Sys2Proof/Laws/Decode.lean ====
section
/-! SUPPORT. The laws of encodings: each code of the value tables of chapter 02 names the value it was made from, codes fit
their fields, and fields of sums of fields. -/

namespace Sys2Proof

theorem fld_lt (w lo n : Nat) : fld w lo n < 2 ^ n := Nat.mod_lt _ (by positivity)

/-- Bits below a field do not reach it. -/
theorem fld_add_low {x lo : Nat} (h : x < 2 ^ lo) (y n : Nat) : fld (x + 2 ^ lo * y) lo n = y % 2 ^ n := by
  rw [fld, Nat.add_mul_div_left _ _ (by positivity), Nat.div_eq_of_lt h, Nat.zero_add]

/-- Bits above a field do not reach it. -/
theorem fld_add_high {lo n hi : Nat} (h : lo + n ≤ hi) (x y : Nat) : fld (x + 2 ^ hi * y) lo n = fld x lo n := by
  obtain ⟨k, rfl⟩ := Nat.exists_eq_add_of_le h
  rw [fld, fld, show (2 : Nat) ^ (lo + n + k) * y = 2 ^ lo * (2 ^ n * (2 ^ k * y)) by rw [Nat.pow_add, Nat.pow_add]; ring,
    Nat.add_mul_div_left _ _ (by positivity), Nat.add_mul_mod_self_left]

theorem b2n_lt (b : Bool) : b2n b < 2 := by cases b <;> decide
theorem b2n_beq_one (b : Bool) : (b2n b == 1) = b := by cases b <;> rfl

@[simp] theorem LaneType.ofCode_code (x : LaneType) : LaneType.ofCode x.code = some x := by cases x <;> rfl
@[simp] theorem Round.ofCode_code (x : Round) : Round.ofCode x.code = some x := by cases x <;> rfl
@[simp] theorem Scope.ofCode_code (x : Scope) : Scope.ofCode x.code = some x := by cases x <;> rfl
@[simp] theorem Order.ofCode_code (x : Order) : Order.ofCode x.code = some x := by cases x <;> rfl
@[simp] theorem Cond.ofCode_code (x : Cond) : Cond.ofCode x.code = some x := by cases x <;> rfl
@[simp] theorem FCond.ofCode_code (x : FCond) : FCond.ofCode x.code = some x := by cases x <;> rfl
@[simp] theorem MSize.ofCode_code (x : MSize) : MSize.ofCode x.code = some x := by cases x <;> rfl
@[simp] theorem AmoType.ofCode_code (x : AmoType) : AmoType.ofCode x.code = some x := by cases x <;> rfl
@[simp] theorem MemFmt.ofCode_code (x : MemFmt) : MemFmt.ofCode x.code = some x := by cases x <;> rfl
@[simp] theorem RedOp.ofCode_code (x : RedOp) : RedOp.ofCode x.code = some x := by cases x <;> rfl
@[simp] theorem ResumeMode.ofCode_code (x : ResumeMode) : ResumeMode.ofCode x.code = some x := by cases x <;> rfl

theorem LaneType.code_lt (x : LaneType) : x.code < 8 := by cases x <;> decide
theorem Round.code_lt (x : Round) : x.code < 8 := by cases x <;> decide
theorem Scope.code_lt (x : Scope) : x.code < 8 := by cases x <;> decide
theorem Order.code_lt (x : Order) : x.code < 8 := by cases x <;> decide
theorem Cond.code_lt (x : Cond) : x.code < 16 := by cases x <;> decide
theorem FCond.code_lt (x : FCond) : x.code < 16 := by cases x <;> decide
theorem MSize.code_lt (x : MSize) : x.code < 8 := by cases x <;> decide
theorem AmoType.code_lt (x : AmoType) : x.code < 16 := by cases x <;> decide
theorem MemFmt.code_lt (x : MemFmt) : x.code < 8 := by cases x <;> decide
theorem RedOp.code_lt (x : RedOp) : x.code < 8 := by cases x <;> decide
theorem ResumeMode.code_lt (x : ResumeMode) : x.code < 4 := by cases x <;> decide

end Sys2Proof
end

