-- ==== Sys2Proof/Laws/Lanes.lean ====
section
/-! SUPPORT. The laws of lanes (R105): what a lane of a packed register holds, for one, two and three sources and with flags,
and of integers reduced to a width. -/

namespace Sys2Proof.Machine

/-! ## Digits -/

theorem packNat_lt (w : Nat) (l : List Nat) : packNat w l < 2 ^ (w * l.length) := by
  induction l with
  | nil => simp [packNat]
  | cons a r ih =>
    have h1 : a % 2 ^ w < 2 ^ w := Nat.mod_lt _ (by positivity)
    have h2 : 2 ^ w * (packNat w r + 1) ≤ 2 ^ w * 2 ^ (w * r.length) := Nat.mul_le_mul_left _ ih
    rw [packNat, List.length_cons, Nat.mul_add, Nat.mul_one, Nat.pow_add, Nat.mul_comm (2 ^ (w * r.length))]
    rw [Nat.mul_add] at h2
    omega

/-- A digit of the packed number. -/
theorem packNat_digit (w : Nat) (l : List Nat) (k : Nat) : packNat w l / 2 ^ (w * k) % 2 ^ w = l.getD k 0 % 2 ^ w := by
  induction l generalizing k with
  | nil => simp [packNat]
  | cons a r ih =>
    have hp : 0 < 2 ^ w := by positivity
    cases k with
    | zero => simp [packNat]
    | succ k =>
      have : (a % 2 ^ w + 2 ^ w * packNat w r) / 2 ^ (w * (k + 1)) = packNat w r / 2 ^ (w * k) := by
        rw [Nat.mul_add, Nat.mul_one, Nat.add_comm (w * k), Nat.pow_add, ← Nat.div_div_eq_div_mul, Nat.add_mul_div_left _ _ hp,
          Nat.div_eq_of_lt (Nat.mod_lt _ hp), Nat.zero_add]
      rw [packNat, this, ih]
      simp

/-- A lane of the packed register. -/
theorem lane_pack {w : Nat} {l : List Nat} (h : w * l.length ≤ 64) (k : Nat) : lane w (pack w l) k = l.getD k 0 % 2 ^ w := by
  have hlt : packNat w l < 2 ^ 64 := (packNat_lt w l).trans_le (Nat.pow_le_pow_right (by norm_num) h)
  rw [lane, pack, BitVec.toNat_ofNat, Nat.mod_eq_of_lt hlt, packNat_digit]

theorem lane_lt (w : Nat) (x : Word) (k : Nat) : lane w x k < 2 ^ w := Nat.mod_lt _ (by positivity)

@[simp] theorem lanes_length (w : Nat) (x : Word) : (lanes w x).length = 64 / w := by simp [lanes]

theorem lanes_getD {w : Nat} (x : Word) {k : Nat} (h : k < 64 / w) : (lanes w x).getD k 0 = lane w x k := by
  simp [lanes, h]

theorem mul_lanes_le (w : Nat) : w * (64 / w) ≤ 64 := Nat.mul_div_le 64 w

/-! ## Computations on each lane -/

theorem lane_lanes1 {w k : Nat} (f : Nat → Nat) (a : Word) (h : k < 64 / w) :
    lane w (lanes1 w f a) k = f (lane w a k) % 2 ^ w := by
  rw [lanes1, lane_pack (by simpa using mul_lanes_le w)]
  simp [lanes, h]

theorem lane_lanes2 {w k : Nat} (f : Nat → Nat → Nat) (a b : Word) (h : k < 64 / w) :
    lane w (lanes2 w f a b) k = f (lane w a k) (lane w b k) % 2 ^ w := by
  rw [lanes2, lane_pack (by simpa using mul_lanes_le w)]
  simp [lanes, h, List.getD_eq_getElem?_getD]

theorem lane_lanes3 {w k : Nat} (f : Nat → Nat → Nat → Nat) (a b c : Word) (h : k < 64 / w) :
    lane w (lanes3 w f a b c) k = f (lane w a k) (lane w b k) (lane w c k) % 2 ^ w := by
  rw [lanes3, lane_pack (by simpa using mul_lanes_le w)]
  simp [lanes, h, List.getD_eq_getElem?_getD]

/-! ## Flags (R86) -/

theorem Flags.foldl_nv (l : List Flags) (x : Flags) : (l.foldl Flags.or x).nv = (x.nv || l.any (·.nv)) := by
  induction l generalizing x with
  | nil => simp
  | cons y r ih => simp [ih, Flags.or, Bool.or_assoc]
theorem Flags.foldl_dz (l : List Flags) (x : Flags) : (l.foldl Flags.or x).dz = (x.dz || l.any (·.dz)) := by
  induction l generalizing x with
  | nil => simp
  | cons y r ih => simp [ih, Flags.or, Bool.or_assoc]
theorem Flags.foldl_of (l : List Flags) (x : Flags) : (l.foldl Flags.or x).of = (x.of || l.any (·.of)) := by
  induction l generalizing x with
  | nil => simp
  | cons y r ih => simp [ih, Flags.or, Bool.or_assoc]
theorem Flags.foldl_uf (l : List Flags) (x : Flags) : (l.foldl Flags.or x).uf = (x.uf || l.any (·.uf)) := by
  induction l generalizing x with
  | nil => simp
  | cons y r ih => simp [ih, Flags.or, Bool.or_assoc]
theorem Flags.foldl_nx (l : List Flags) (x : Flags) : (l.foldl Flags.or x).nx = (x.nx || l.any (·.nx)) := by
  induction l generalizing x with
  | nil => simp
  | cons y r ih => simp [ih, Flags.or, Bool.or_assoc]

/-- A flag of a result is raised when some lane raises it. -/
theorem Flags.all_nv (l : List Flags) : (Flags.all l).nv = l.any (·.nv) := by simp [Flags.all, Flags.foldl_nv, Flags.none]
theorem Flags.all_dz (l : List Flags) : (Flags.all l).dz = l.any (·.dz) := by simp [Flags.all, Flags.foldl_dz, Flags.none]
theorem Flags.all_of (l : List Flags) : (Flags.all l).of = l.any (·.of) := by simp [Flags.all, Flags.foldl_of, Flags.none]
theorem Flags.all_uf (l : List Flags) : (Flags.all l).uf = l.any (·.uf) := by simp [Flags.all, Flags.foldl_uf, Flags.none]
theorem Flags.all_nx (l : List Flags) : (Flags.all l).nx = l.any (·.nx) := by simp [Flags.all, Flags.foldl_nx, Flags.none]

/-! ## Integers reduced to a width (R10, R105) -/

theorem wrap_lt (w : Nat) (z : Int) : wrap w z < 2 ^ w := by
  have h1 : (0 : Int) < 2 ^ w := by positivity
  have h2 := Int.emod_lt_of_pos z h1
  have h3 := Int.emod_nonneg z h1.ne'
  rw [wrap]
  have : ((2 ^ w : Nat) : Int) = 2 ^ w := by push_cast; rfl
  omega

/-- The reduction of a value that fits is the value. -/
theorem wrap_natCast {w n : Nat} (h : n < 2 ^ w) : wrap w (n : Int) = n := by
  have : ((2 ^ w : Nat) : Int) = 2 ^ w := by push_cast; rfl
  rw [wrap, ← this, ← Int.natCast_mod, Int.toNat_natCast, Nat.mod_eq_of_lt h]

/-- A lane through its signed value. -/
theorem wrap_signed {w n : Nat} (h : n < 2 ^ w) : wrap w (signed w n) = n := by
  unfold signed
  split
  · exact wrap_natCast h
  · rw [wrap, Int.sub_emod_right]
    exact wrap_natCast h

theorem wrap_mod (w : Nat) (z : Int) : wrap w z % 2 ^ w = wrap w z := Nat.mod_eq_of_lt (wrap_lt w z)

end Sys2Proof.Machine
end

