-- ==== Sys2Proof/Laws/State.lean ====
section
/-! SUPPORT. The laws of the state's updates: one lemma for each field under each update, what an accessor reads after a
write, and the bytes of context lines. -/

namespace Sys2Proof.Machine

/-! ## Each field under each update -/

section
variable (s : State) (site : Nat) (c : Core)

@[simp] theorem State.setCore_cycle : (s.setCore site c).cycle = s.cycle := rfl
@[simp] theorem State.setCore_cur : (s.setCore site c).cur = s.cur := rfl
@[simp] theorem State.setCore_agenda : (s.setCore site c).agenda = s.agenda := rfl
@[simp] theorem State.setCore_fetched : (s.setCore site c).fetched = s.fetched := rfl
@[simp] theorem State.setCore_flen : (s.setCore site c).flen = s.flen := rfl
@[simp] theorem State.setCore_free : (s.setCore site c).free = s.free := rfl
@[simp] theorem State.setCore_nextId : (s.setCore site c).nextId = s.nextId := rfl
@[simp] theorem State.setCore_mem : (s.setCore site c).mem = s.mem := rfl
@[simp] theorem State.setCore_lines : (s.setCore site c).lines = s.lines := rfl
@[simp] theorem State.setCore_cores : (s.setCore site c).cores = tset s.cores site c := rfl
@[simp] theorem State.setCore_clusters : (s.setCore site c).clusters = s.clusters := rfl
@[simp] theorem State.setCore_parts : (s.setCore site c).parts = s.parts := rfl
@[simp] theorem State.setCore_net : (s.setCore site c).net = s.net := rfl
@[simp] theorem State.setCore_ops : (s.setCore site c).ops = s.ops := rfl
@[simp] theorem State.setCore_visitors : (s.setCore site c).visitors = s.visitors := rfl
@[simp] theorem State.setCore_slices : (s.setCore site c).slices = s.slices := rfl
@[simp] theorem State.setCore_mirrored : (s.setCore site c).mirrored = s.mirrored := rfl
@[simp] theorem State.setCore_lastBy : (s.setCore site c).lastBy = s.lastBy := rfl
@[simp] theorem State.setCore_resv : (s.setCore site c).resv = s.resv := rfl
@[simp] theorem State.setCore_appends : (s.setCore site c).appends = s.appends := rfl
@[simp] theorem State.setCore_heldQ : (s.setCore site c).heldQ = s.heldQ := rfl
@[simp] theorem State.setCore_hostHeld : (s.setCore site c).hostHeld = s.hostHeld := rfl
@[simp] theorem State.setCore_links : (s.setCore site c).links = s.links := rfl
@[simp] theorem State.setCore_injectors : (s.setCore site c).injectors = s.injectors := rfl
@[simp] theorem State.setCore_floods : (s.setCore site c).floods = s.floods := rfl
@[simp] theorem State.setCore_reg : (s.setCore site c).reg = s.reg := rfl
@[simp] theorem State.setCore_fused : (s.setCore site c).fused = s.fused := rfl
@[simp] theorem State.setCore_peerNo : (s.setCore site c).peerNo = s.peerNo := rfl
@[simp] theorem State.setCore_cxl : (s.setCore site c).cxl = s.cxl := rfl

end

section
variable (s : State) (site : Nat) (f : Core → Core)

@[simp] theorem State.modCore_cycle : (s.modCore site f).cycle = s.cycle := rfl
@[simp] theorem State.modCore_cur : (s.modCore site f).cur = s.cur := rfl
@[simp] theorem State.modCore_agenda : (s.modCore site f).agenda = s.agenda := rfl
@[simp] theorem State.modCore_fetched : (s.modCore site f).fetched = s.fetched := rfl
@[simp] theorem State.modCore_flen : (s.modCore site f).flen = s.flen := rfl
@[simp] theorem State.modCore_free : (s.modCore site f).free = s.free := rfl
@[simp] theorem State.modCore_nextId : (s.modCore site f).nextId = s.nextId := rfl
@[simp] theorem State.modCore_mem : (s.modCore site f).mem = s.mem := rfl
@[simp] theorem State.modCore_lines : (s.modCore site f).lines = s.lines := rfl
@[simp] theorem State.modCore_cores : (s.modCore site f).cores = tset s.cores site (f (s.core site)) := rfl
@[simp] theorem State.modCore_clusters : (s.modCore site f).clusters = s.clusters := rfl
@[simp] theorem State.modCore_parts : (s.modCore site f).parts = s.parts := rfl
@[simp] theorem State.modCore_net : (s.modCore site f).net = s.net := rfl
@[simp] theorem State.modCore_ops : (s.modCore site f).ops = s.ops := rfl
@[simp] theorem State.modCore_visitors : (s.modCore site f).visitors = s.visitors := rfl
@[simp] theorem State.modCore_slices : (s.modCore site f).slices = s.slices := rfl
@[simp] theorem State.modCore_mirrored : (s.modCore site f).mirrored = s.mirrored := rfl
@[simp] theorem State.modCore_lastBy : (s.modCore site f).lastBy = s.lastBy := rfl
@[simp] theorem State.modCore_resv : (s.modCore site f).resv = s.resv := rfl
@[simp] theorem State.modCore_appends : (s.modCore site f).appends = s.appends := rfl
@[simp] theorem State.modCore_heldQ : (s.modCore site f).heldQ = s.heldQ := rfl
@[simp] theorem State.modCore_hostHeld : (s.modCore site f).hostHeld = s.hostHeld := rfl
@[simp] theorem State.modCore_links : (s.modCore site f).links = s.links := rfl
@[simp] theorem State.modCore_injectors : (s.modCore site f).injectors = s.injectors := rfl
@[simp] theorem State.modCore_floods : (s.modCore site f).floods = s.floods := rfl
@[simp] theorem State.modCore_reg : (s.modCore site f).reg = s.reg := rfl
@[simp] theorem State.modCore_fused : (s.modCore site f).fused = s.fused := rfl
@[simp] theorem State.modCore_peerNo : (s.modCore site f).peerNo = s.peerNo := rfl
@[simp] theorem State.modCore_cxl : (s.modCore site f).cxl = s.cxl := rfl

end

section
variable (s : State) (k : Nat) (c : Cluster)

@[simp] theorem State.setCl_cycle : (s.setCl k c).cycle = s.cycle := rfl
@[simp] theorem State.setCl_cur : (s.setCl k c).cur = s.cur := rfl
@[simp] theorem State.setCl_agenda : (s.setCl k c).agenda = s.agenda := rfl
@[simp] theorem State.setCl_fetched : (s.setCl k c).fetched = s.fetched := rfl
@[simp] theorem State.setCl_flen : (s.setCl k c).flen = s.flen := rfl
@[simp] theorem State.setCl_free : (s.setCl k c).free = s.free := rfl
@[simp] theorem State.setCl_nextId : (s.setCl k c).nextId = s.nextId := rfl
@[simp] theorem State.setCl_mem : (s.setCl k c).mem = s.mem := rfl
@[simp] theorem State.setCl_lines : (s.setCl k c).lines = s.lines := rfl
@[simp] theorem State.setCl_cores : (s.setCl k c).cores = s.cores := rfl
@[simp] theorem State.setCl_clusters : (s.setCl k c).clusters = tset s.clusters k c := rfl
@[simp] theorem State.setCl_parts : (s.setCl k c).parts = s.parts := rfl
@[simp] theorem State.setCl_net : (s.setCl k c).net = s.net := rfl
@[simp] theorem State.setCl_ops : (s.setCl k c).ops = s.ops := rfl
@[simp] theorem State.setCl_visitors : (s.setCl k c).visitors = s.visitors := rfl
@[simp] theorem State.setCl_slices : (s.setCl k c).slices = s.slices := rfl
@[simp] theorem State.setCl_mirrored : (s.setCl k c).mirrored = s.mirrored := rfl
@[simp] theorem State.setCl_lastBy : (s.setCl k c).lastBy = s.lastBy := rfl
@[simp] theorem State.setCl_resv : (s.setCl k c).resv = s.resv := rfl
@[simp] theorem State.setCl_appends : (s.setCl k c).appends = s.appends := rfl
@[simp] theorem State.setCl_heldQ : (s.setCl k c).heldQ = s.heldQ := rfl
@[simp] theorem State.setCl_hostHeld : (s.setCl k c).hostHeld = s.hostHeld := rfl
@[simp] theorem State.setCl_links : (s.setCl k c).links = s.links := rfl
@[simp] theorem State.setCl_injectors : (s.setCl k c).injectors = s.injectors := rfl
@[simp] theorem State.setCl_floods : (s.setCl k c).floods = s.floods := rfl
@[simp] theorem State.setCl_reg : (s.setCl k c).reg = s.reg := rfl
@[simp] theorem State.setCl_fused : (s.setCl k c).fused = s.fused := rfl
@[simp] theorem State.setCl_peerNo : (s.setCl k c).peerNo = s.peerNo := rfl
@[simp] theorem State.setCl_cxl : (s.setCl k c).cxl = s.cxl := rfl

end

section
variable (s : State) (k : Nat) (f : Cluster → Cluster)

@[simp] theorem State.modCl_cycle : (s.modCl k f).cycle = s.cycle := rfl
@[simp] theorem State.modCl_cur : (s.modCl k f).cur = s.cur := rfl
@[simp] theorem State.modCl_agenda : (s.modCl k f).agenda = s.agenda := rfl
@[simp] theorem State.modCl_fetched : (s.modCl k f).fetched = s.fetched := rfl
@[simp] theorem State.modCl_flen : (s.modCl k f).flen = s.flen := rfl
@[simp] theorem State.modCl_free : (s.modCl k f).free = s.free := rfl
@[simp] theorem State.modCl_nextId : (s.modCl k f).nextId = s.nextId := rfl
@[simp] theorem State.modCl_mem : (s.modCl k f).mem = s.mem := rfl
@[simp] theorem State.modCl_lines : (s.modCl k f).lines = s.lines := rfl
@[simp] theorem State.modCl_cores : (s.modCl k f).cores = s.cores := rfl
@[simp] theorem State.modCl_clusters : (s.modCl k f).clusters = tset s.clusters k (f (s.cl k)) := rfl
@[simp] theorem State.modCl_parts : (s.modCl k f).parts = s.parts := rfl
@[simp] theorem State.modCl_net : (s.modCl k f).net = s.net := rfl
@[simp] theorem State.modCl_ops : (s.modCl k f).ops = s.ops := rfl
@[simp] theorem State.modCl_visitors : (s.modCl k f).visitors = s.visitors := rfl
@[simp] theorem State.modCl_slices : (s.modCl k f).slices = s.slices := rfl
@[simp] theorem State.modCl_mirrored : (s.modCl k f).mirrored = s.mirrored := rfl
@[simp] theorem State.modCl_lastBy : (s.modCl k f).lastBy = s.lastBy := rfl
@[simp] theorem State.modCl_resv : (s.modCl k f).resv = s.resv := rfl
@[simp] theorem State.modCl_appends : (s.modCl k f).appends = s.appends := rfl
@[simp] theorem State.modCl_heldQ : (s.modCl k f).heldQ = s.heldQ := rfl
@[simp] theorem State.modCl_hostHeld : (s.modCl k f).hostHeld = s.hostHeld := rfl
@[simp] theorem State.modCl_links : (s.modCl k f).links = s.links := rfl
@[simp] theorem State.modCl_injectors : (s.modCl k f).injectors = s.injectors := rfl
@[simp] theorem State.modCl_floods : (s.modCl k f).floods = s.floods := rfl
@[simp] theorem State.modCl_reg : (s.modCl k f).reg = s.reg := rfl
@[simp] theorem State.modCl_fused : (s.modCl k f).fused = s.fused := rfl
@[simp] theorem State.modCl_peerNo : (s.modCl k f).peerNo = s.peerNo := rfl
@[simp] theorem State.modCl_cxl : (s.modCl k f).cxl = s.cxl := rfl

end

section
variable (s : State) (p : Nat) (x : Part)

@[simp] theorem State.setPart_cycle : (s.setPart p x).cycle = s.cycle := rfl
@[simp] theorem State.setPart_cur : (s.setPart p x).cur = s.cur := rfl
@[simp] theorem State.setPart_agenda : (s.setPart p x).agenda = s.agenda := rfl
@[simp] theorem State.setPart_fetched : (s.setPart p x).fetched = s.fetched := rfl
@[simp] theorem State.setPart_flen : (s.setPart p x).flen = s.flen := rfl
@[simp] theorem State.setPart_free : (s.setPart p x).free = s.free := rfl
@[simp] theorem State.setPart_nextId : (s.setPart p x).nextId = s.nextId := rfl
@[simp] theorem State.setPart_mem : (s.setPart p x).mem = s.mem := rfl
@[simp] theorem State.setPart_lines : (s.setPart p x).lines = s.lines := rfl
@[simp] theorem State.setPart_cores : (s.setPart p x).cores = s.cores := rfl
@[simp] theorem State.setPart_clusters : (s.setPart p x).clusters = s.clusters := rfl
@[simp] theorem State.setPart_parts : (s.setPart p x).parts = tset s.parts p x := rfl
@[simp] theorem State.setPart_net : (s.setPart p x).net = s.net := rfl
@[simp] theorem State.setPart_ops : (s.setPart p x).ops = s.ops := rfl
@[simp] theorem State.setPart_visitors : (s.setPart p x).visitors = s.visitors := rfl
@[simp] theorem State.setPart_slices : (s.setPart p x).slices = s.slices := rfl
@[simp] theorem State.setPart_mirrored : (s.setPart p x).mirrored = s.mirrored := rfl
@[simp] theorem State.setPart_lastBy : (s.setPart p x).lastBy = s.lastBy := rfl
@[simp] theorem State.setPart_resv : (s.setPart p x).resv = s.resv := rfl
@[simp] theorem State.setPart_appends : (s.setPart p x).appends = s.appends := rfl
@[simp] theorem State.setPart_heldQ : (s.setPart p x).heldQ = s.heldQ := rfl
@[simp] theorem State.setPart_hostHeld : (s.setPart p x).hostHeld = s.hostHeld := rfl
@[simp] theorem State.setPart_links : (s.setPart p x).links = s.links := rfl
@[simp] theorem State.setPart_injectors : (s.setPart p x).injectors = s.injectors := rfl
@[simp] theorem State.setPart_floods : (s.setPart p x).floods = s.floods := rfl
@[simp] theorem State.setPart_reg : (s.setPart p x).reg = s.reg := rfl
@[simp] theorem State.setPart_fused : (s.setPart p x).fused = s.fused := rfl
@[simp] theorem State.setPart_peerNo : (s.setPart p x).peerNo = s.peerNo := rfl
@[simp] theorem State.setPart_cxl : (s.setPart p x).cxl = s.cxl := rfl

end

section
variable (s : State) (p : Nat) (f : Part → Part)

@[simp] theorem State.modPart_cycle : (s.modPart p f).cycle = s.cycle := rfl
@[simp] theorem State.modPart_cur : (s.modPart p f).cur = s.cur := rfl
@[simp] theorem State.modPart_agenda : (s.modPart p f).agenda = s.agenda := rfl
@[simp] theorem State.modPart_fetched : (s.modPart p f).fetched = s.fetched := rfl
@[simp] theorem State.modPart_flen : (s.modPart p f).flen = s.flen := rfl
@[simp] theorem State.modPart_free : (s.modPart p f).free = s.free := rfl
@[simp] theorem State.modPart_nextId : (s.modPart p f).nextId = s.nextId := rfl
@[simp] theorem State.modPart_mem : (s.modPart p f).mem = s.mem := rfl
@[simp] theorem State.modPart_lines : (s.modPart p f).lines = s.lines := rfl
@[simp] theorem State.modPart_cores : (s.modPart p f).cores = s.cores := rfl
@[simp] theorem State.modPart_clusters : (s.modPart p f).clusters = s.clusters := rfl
@[simp] theorem State.modPart_parts : (s.modPart p f).parts = tset s.parts p (f (s.part p)) := rfl
@[simp] theorem State.modPart_net : (s.modPart p f).net = s.net := rfl
@[simp] theorem State.modPart_ops : (s.modPart p f).ops = s.ops := rfl
@[simp] theorem State.modPart_visitors : (s.modPart p f).visitors = s.visitors := rfl
@[simp] theorem State.modPart_slices : (s.modPart p f).slices = s.slices := rfl
@[simp] theorem State.modPart_mirrored : (s.modPart p f).mirrored = s.mirrored := rfl
@[simp] theorem State.modPart_lastBy : (s.modPart p f).lastBy = s.lastBy := rfl
@[simp] theorem State.modPart_resv : (s.modPart p f).resv = s.resv := rfl
@[simp] theorem State.modPart_appends : (s.modPart p f).appends = s.appends := rfl
@[simp] theorem State.modPart_heldQ : (s.modPart p f).heldQ = s.heldQ := rfl
@[simp] theorem State.modPart_hostHeld : (s.modPart p f).hostHeld = s.hostHeld := rfl
@[simp] theorem State.modPart_links : (s.modPart p f).links = s.links := rfl
@[simp] theorem State.modPart_injectors : (s.modPart p f).injectors = s.injectors := rfl
@[simp] theorem State.modPart_floods : (s.modPart p f).floods = s.floods := rfl
@[simp] theorem State.modPart_reg : (s.modPart p f).reg = s.reg := rfl
@[simp] theorem State.modPart_fused : (s.modPart p f).fused = s.fused := rfl
@[simp] theorem State.modPart_peerNo : (s.modPart p f).peerNo = s.peerNo := rfl
@[simp] theorem State.modPart_cxl : (s.modPart p f).cxl = s.cxl := rfl

end

section
variable (s : State) (k : Nat) (l : Line)

@[simp] theorem State.moveLine_cycle : (s.moveLine k l).cycle = s.cycle := rfl
@[simp] theorem State.moveLine_cur : (s.moveLine k l).cur = s.cur := rfl
@[simp] theorem State.moveLine_agenda : (s.moveLine k l).agenda = s.agenda := rfl
@[simp] theorem State.moveLine_fetched : (s.moveLine k l).fetched = s.fetched := rfl
@[simp] theorem State.moveLine_flen : (s.moveLine k l).flen = s.flen := rfl
@[simp] theorem State.moveLine_free : (s.moveLine k l).free = s.free := rfl
@[simp] theorem State.moveLine_nextId : (s.moveLine k l).nextId = s.nextId := rfl
@[simp] theorem State.moveLine_mem : (s.moveLine k l).mem = s.mem := rfl
@[simp] theorem State.moveLine_lines : (s.moveLine k l).lines = tset s.lines k l := rfl
@[simp] theorem State.moveLine_cores : (s.moveLine k l).cores = s.cores := rfl
@[simp] theorem State.moveLine_clusters : (s.moveLine k l).clusters = s.clusters := rfl
@[simp] theorem State.moveLine_parts : (s.moveLine k l).parts = s.parts := rfl
@[simp] theorem State.moveLine_net : (s.moveLine k l).net = s.net := rfl
@[simp] theorem State.moveLine_ops : (s.moveLine k l).ops = s.ops := rfl
@[simp] theorem State.moveLine_visitors : (s.moveLine k l).visitors = s.visitors := rfl
@[simp] theorem State.moveLine_slices : (s.moveLine k l).slices = s.slices := rfl
@[simp] theorem State.moveLine_mirrored : (s.moveLine k l).mirrored = s.mirrored := rfl
@[simp] theorem State.moveLine_lastBy : (s.moveLine k l).lastBy = s.lastBy := rfl
@[simp] theorem State.moveLine_resv : (s.moveLine k l).resv = s.resv := rfl
@[simp] theorem State.moveLine_appends : (s.moveLine k l).appends = s.appends := rfl
@[simp] theorem State.moveLine_heldQ : (s.moveLine k l).heldQ = s.heldQ := rfl
@[simp] theorem State.moveLine_hostHeld : (s.moveLine k l).hostHeld = s.hostHeld := rfl
@[simp] theorem State.moveLine_links : (s.moveLine k l).links = s.links := rfl
@[simp] theorem State.moveLine_injectors : (s.moveLine k l).injectors = s.injectors := rfl
@[simp] theorem State.moveLine_floods : (s.moveLine k l).floods = s.floods := rfl
@[simp] theorem State.moveLine_reg : (s.moveLine k l).reg = s.reg := rfl
@[simp] theorem State.moveLine_fused : (s.moveLine k l).fused = s.fused := rfl
@[simp] theorem State.moveLine_peerNo : (s.moveLine k l).peerNo = s.peerNo := rfl
@[simp] theorem State.moveLine_cxl : (s.moveLine k l).cxl = s.cxl := rfl

end

section
variable (s : State) (k : Nat) (l : Line)

@[simp] theorem State.setLine_cycle : (s.setLine k l).cycle = s.cycle := rfl
@[simp] theorem State.setLine_cur : (s.setLine k l).cur = s.cur := rfl
@[simp] theorem State.setLine_agenda : (s.setLine k l).agenda = s.agenda := rfl
@[simp] theorem State.setLine_fetched : (s.setLine k l).fetched = s.fetched := rfl
@[simp] theorem State.setLine_flen : (s.setLine k l).flen = s.flen := rfl
@[simp] theorem State.setLine_free : (s.setLine k l).free = s.free := rfl
@[simp] theorem State.setLine_nextId : (s.setLine k l).nextId = s.nextId := rfl
@[simp] theorem State.setLine_mem : (s.setLine k l).mem = s.mem := rfl
@[simp] theorem State.setLine_lines : (s.setLine k l).lines = tset s.lines k { l with touched := true } := rfl
@[simp] theorem State.setLine_cores : (s.setLine k l).cores = s.cores := rfl
@[simp] theorem State.setLine_clusters : (s.setLine k l).clusters = s.clusters := rfl
@[simp] theorem State.setLine_parts : (s.setLine k l).parts = s.parts := rfl
@[simp] theorem State.setLine_net : (s.setLine k l).net = s.net := rfl
@[simp] theorem State.setLine_ops : (s.setLine k l).ops = s.ops := rfl
@[simp] theorem State.setLine_visitors : (s.setLine k l).visitors = s.visitors := rfl
@[simp] theorem State.setLine_slices : (s.setLine k l).slices = s.slices := rfl
@[simp] theorem State.setLine_mirrored : (s.setLine k l).mirrored = s.mirrored := rfl
@[simp] theorem State.setLine_lastBy : (s.setLine k l).lastBy = s.lastBy := rfl
@[simp] theorem State.setLine_resv : (s.setLine k l).resv = s.resv := rfl
@[simp] theorem State.setLine_appends : (s.setLine k l).appends = s.appends := rfl
@[simp] theorem State.setLine_heldQ : (s.setLine k l).heldQ = s.heldQ := rfl
@[simp] theorem State.setLine_hostHeld : (s.setLine k l).hostHeld = s.hostHeld := rfl
@[simp] theorem State.setLine_links : (s.setLine k l).links = s.links := rfl
@[simp] theorem State.setLine_injectors : (s.setLine k l).injectors = s.injectors := rfl
@[simp] theorem State.setLine_floods : (s.setLine k l).floods = s.floods := rfl
@[simp] theorem State.setLine_reg : (s.setLine k l).reg = s.reg := rfl
@[simp] theorem State.setLine_fused : (s.setLine k l).fused = s.fused := rfl
@[simp] theorem State.setLine_peerNo : (s.setLine k l).peerNo = s.peerNo := rfl
@[simp] theorem State.setLine_cxl : (s.setLine k l).cxl = s.cxl := rfl

end

section
variable (s : State) (a b : Node) (vn : Nat) (x : Body)

@[simp] theorem State.send_cycle : (s.send a b vn x).cycle = s.cycle := rfl
@[simp] theorem State.send_cur : (s.send a b vn x).cur = s.cur := rfl
@[simp] theorem State.send_agenda : (s.send a b vn x).agenda = s.agenda := rfl
@[simp] theorem State.send_fetched : (s.send a b vn x).fetched = s.fetched := rfl
@[simp] theorem State.send_flen : (s.send a b vn x).flen = s.flen := rfl
@[simp] theorem State.send_free : (s.send a b vn x).free = s.free := rfl
@[simp] theorem State.send_nextId : (s.send a b vn x).nextId = s.nextId + 1 := rfl
@[simp] theorem State.send_mem : (s.send a b vn x).mem = s.mem := rfl
@[simp] theorem State.send_lines : (s.send a b vn x).lines = s.lines := rfl
@[simp] theorem State.send_cores : (s.send a b vn x).cores = s.cores := rfl
@[simp] theorem State.send_clusters : (s.send a b vn x).clusters = s.clusters := rfl
@[simp] theorem State.send_parts : (s.send a b vn x).parts = s.parts := rfl
@[simp] theorem State.send_net : (s.send a b vn x).net = s.net ++ [{ id := s.nextId, src := a, dst := b, vn := vn, body := x }] := rfl
@[simp] theorem State.send_ops : (s.send a b vn x).ops = s.ops := rfl
@[simp] theorem State.send_visitors : (s.send a b vn x).visitors = s.visitors := rfl
@[simp] theorem State.send_slices : (s.send a b vn x).slices = s.slices := rfl
@[simp] theorem State.send_mirrored : (s.send a b vn x).mirrored = s.mirrored := rfl
@[simp] theorem State.send_lastBy : (s.send a b vn x).lastBy = s.lastBy := rfl
@[simp] theorem State.send_resv : (s.send a b vn x).resv = s.resv := rfl
@[simp] theorem State.send_appends : (s.send a b vn x).appends = s.appends := rfl
@[simp] theorem State.send_heldQ : (s.send a b vn x).heldQ = s.heldQ := rfl
@[simp] theorem State.send_hostHeld : (s.send a b vn x).hostHeld = s.hostHeld := rfl
@[simp] theorem State.send_links : (s.send a b vn x).links = s.links := rfl
@[simp] theorem State.send_injectors : (s.send a b vn x).injectors = s.injectors := rfl
@[simp] theorem State.send_floods : (s.send a b vn x).floods = s.floods := rfl
@[simp] theorem State.send_reg : (s.send a b vn x).reg = s.reg := rfl
@[simp] theorem State.send_fused : (s.send a b vn x).fused = s.fused := rfl
@[simp] theorem State.send_peerNo : (s.send a b vn x).peerNo = s.peerNo := rfl
@[simp] theorem State.send_cxl : (s.send a b vn x).cxl = s.cxl := rfl

end

section
variable (s : State) (m : Nat)

@[simp] theorem State.drop_cycle : (s.drop m).cycle = s.cycle := rfl
@[simp] theorem State.drop_cur : (s.drop m).cur = s.cur := rfl
@[simp] theorem State.drop_agenda : (s.drop m).agenda = s.agenda := rfl
@[simp] theorem State.drop_fetched : (s.drop m).fetched = s.fetched := rfl
@[simp] theorem State.drop_flen : (s.drop m).flen = s.flen := rfl
@[simp] theorem State.drop_free : (s.drop m).free = s.free := rfl
@[simp] theorem State.drop_nextId : (s.drop m).nextId = s.nextId := rfl
@[simp] theorem State.drop_mem : (s.drop m).mem = s.mem := rfl
@[simp] theorem State.drop_lines : (s.drop m).lines = s.lines := rfl
@[simp] theorem State.drop_cores : (s.drop m).cores = s.cores := rfl
@[simp] theorem State.drop_clusters : (s.drop m).clusters = s.clusters := rfl
@[simp] theorem State.drop_parts : (s.drop m).parts = s.parts := rfl
@[simp] theorem State.drop_net : (s.drop m).net = s.net.filter fun x => x.id != m := rfl
@[simp] theorem State.drop_ops : (s.drop m).ops = s.ops := rfl
@[simp] theorem State.drop_visitors : (s.drop m).visitors = s.visitors := rfl
@[simp] theorem State.drop_slices : (s.drop m).slices = s.slices := rfl
@[simp] theorem State.drop_mirrored : (s.drop m).mirrored = s.mirrored := rfl
@[simp] theorem State.drop_lastBy : (s.drop m).lastBy = s.lastBy := rfl
@[simp] theorem State.drop_resv : (s.drop m).resv = s.resv := rfl
@[simp] theorem State.drop_appends : (s.drop m).appends = s.appends := rfl
@[simp] theorem State.drop_heldQ : (s.drop m).heldQ = s.heldQ := rfl
@[simp] theorem State.drop_hostHeld : (s.drop m).hostHeld = s.hostHeld := rfl
@[simp] theorem State.drop_links : (s.drop m).links = s.links := rfl
@[simp] theorem State.drop_injectors : (s.drop m).injectors = s.injectors := rfl
@[simp] theorem State.drop_floods : (s.drop m).floods = s.floods := rfl
@[simp] theorem State.drop_reg : (s.drop m).reg = s.reg := rfl
@[simp] theorem State.drop_fused : (s.drop m).fused = s.fused := rfl
@[simp] theorem State.drop_peerNo : (s.drop m).peerNo = s.peerNo := rfl
@[simp] theorem State.drop_cxl : (s.drop m).cxl = s.cxl := rfl

end

section
variable (s : State) (m : Nat) (x : Body)

@[simp] theorem State.rebody_cycle : (s.rebody m x).cycle = s.cycle := rfl
@[simp] theorem State.rebody_cur : (s.rebody m x).cur = s.cur := rfl
@[simp] theorem State.rebody_agenda : (s.rebody m x).agenda = s.agenda := rfl
@[simp] theorem State.rebody_fetched : (s.rebody m x).fetched = s.fetched := rfl
@[simp] theorem State.rebody_flen : (s.rebody m x).flen = s.flen := rfl
@[simp] theorem State.rebody_free : (s.rebody m x).free = s.free := rfl
@[simp] theorem State.rebody_nextId : (s.rebody m x).nextId = s.nextId := rfl
@[simp] theorem State.rebody_mem : (s.rebody m x).mem = s.mem := rfl
@[simp] theorem State.rebody_lines : (s.rebody m x).lines = s.lines := rfl
@[simp] theorem State.rebody_cores : (s.rebody m x).cores = s.cores := rfl
@[simp] theorem State.rebody_clusters : (s.rebody m x).clusters = s.clusters := rfl
@[simp] theorem State.rebody_parts : (s.rebody m x).parts = s.parts := rfl
@[simp] theorem State.rebody_net : (s.rebody m x).net = s.net.map fun y => if y.id == m then { y with body := x } else y := rfl
@[simp] theorem State.rebody_ops : (s.rebody m x).ops = s.ops := rfl
@[simp] theorem State.rebody_visitors : (s.rebody m x).visitors = s.visitors := rfl
@[simp] theorem State.rebody_slices : (s.rebody m x).slices = s.slices := rfl
@[simp] theorem State.rebody_mirrored : (s.rebody m x).mirrored = s.mirrored := rfl
@[simp] theorem State.rebody_lastBy : (s.rebody m x).lastBy = s.lastBy := rfl
@[simp] theorem State.rebody_resv : (s.rebody m x).resv = s.resv := rfl
@[simp] theorem State.rebody_appends : (s.rebody m x).appends = s.appends := rfl
@[simp] theorem State.rebody_heldQ : (s.rebody m x).heldQ = s.heldQ := rfl
@[simp] theorem State.rebody_hostHeld : (s.rebody m x).hostHeld = s.hostHeld := rfl
@[simp] theorem State.rebody_links : (s.rebody m x).links = s.links := rfl
@[simp] theorem State.rebody_injectors : (s.rebody m x).injectors = s.injectors := rfl
@[simp] theorem State.rebody_floods : (s.rebody m x).floods = s.floods := rfl
@[simp] theorem State.rebody_reg : (s.rebody m x).reg = s.reg := rfl
@[simp] theorem State.rebody_fused : (s.rebody m x).fused = s.fused := rfl
@[simp] theorem State.rebody_peerNo : (s.rebody m x).peerNo = s.peerNo := rfl
@[simp] theorem State.rebody_cxl : (s.rebody m x).cxl = s.cxl := rfl

end

section
variable (s : State) (i : OpInfo)

@[simp] theorem State.newOp_cycle : (s.newOp i).2.cycle = s.cycle := rfl
@[simp] theorem State.newOp_cur : (s.newOp i).2.cur = s.cur := rfl
@[simp] theorem State.newOp_agenda : (s.newOp i).2.agenda = s.agenda := rfl
@[simp] theorem State.newOp_fetched : (s.newOp i).2.fetched = s.fetched := rfl
@[simp] theorem State.newOp_flen : (s.newOp i).2.flen = s.flen := rfl
@[simp] theorem State.newOp_free : (s.newOp i).2.free = s.free := rfl
@[simp] theorem State.newOp_nextId : (s.newOp i).2.nextId = s.nextId + 1 := rfl
@[simp] theorem State.newOp_mem : (s.newOp i).2.mem = s.mem := rfl
@[simp] theorem State.newOp_lines : (s.newOp i).2.lines = s.lines := rfl
@[simp] theorem State.newOp_cores : (s.newOp i).2.cores = s.cores := rfl
@[simp] theorem State.newOp_clusters : (s.newOp i).2.clusters = s.clusters := rfl
@[simp] theorem State.newOp_parts : (s.newOp i).2.parts = s.parts := rfl
@[simp] theorem State.newOp_net : (s.newOp i).2.net = s.net := rfl
@[simp] theorem State.newOp_ops : (s.newOp i).2.ops = tset s.ops s.nextId i := rfl
@[simp] theorem State.newOp_visitors : (s.newOp i).2.visitors = s.visitors := rfl
@[simp] theorem State.newOp_slices : (s.newOp i).2.slices = s.slices := rfl
@[simp] theorem State.newOp_mirrored : (s.newOp i).2.mirrored = s.mirrored := rfl
@[simp] theorem State.newOp_lastBy : (s.newOp i).2.lastBy = s.lastBy := rfl
@[simp] theorem State.newOp_resv : (s.newOp i).2.resv = s.resv := rfl
@[simp] theorem State.newOp_appends : (s.newOp i).2.appends = s.appends := rfl
@[simp] theorem State.newOp_heldQ : (s.newOp i).2.heldQ = s.heldQ := rfl
@[simp] theorem State.newOp_hostHeld : (s.newOp i).2.hostHeld = s.hostHeld := rfl
@[simp] theorem State.newOp_links : (s.newOp i).2.links = s.links := rfl
@[simp] theorem State.newOp_injectors : (s.newOp i).2.injectors = s.injectors := rfl
@[simp] theorem State.newOp_floods : (s.newOp i).2.floods = s.floods := rfl
@[simp] theorem State.newOp_reg : (s.newOp i).2.reg = s.reg := rfl
@[simp] theorem State.newOp_fused : (s.newOp i).2.fused = s.fused := rfl
@[simp] theorem State.newOp_peerNo : (s.newOp i).2.peerNo = s.peerNo := rfl
@[simp] theorem State.newOp_cxl : (s.newOp i).2.cxl = s.cxl := rfl
@[simp] theorem State.newOp_fst : (s.newOp i).1 = s.nextId := rfl

end

section
variable (s : State) (t : Nat)

@[simp] theorem State.endOp_cycle : (s.endOp t).cycle = s.cycle := rfl
@[simp] theorem State.endOp_cur : (s.endOp t).cur = s.cur := rfl
@[simp] theorem State.endOp_agenda : (s.endOp t).agenda = s.agenda := rfl
@[simp] theorem State.endOp_fetched : (s.endOp t).fetched = s.fetched := rfl
@[simp] theorem State.endOp_flen : (s.endOp t).flen = s.flen := rfl
@[simp] theorem State.endOp_free : (s.endOp t).free = s.free := rfl
@[simp] theorem State.endOp_nextId : (s.endOp t).nextId = s.nextId := rfl
@[simp] theorem State.endOp_mem : (s.endOp t).mem = s.mem := rfl
@[simp] theorem State.endOp_lines : (s.endOp t).lines = s.lines := rfl
@[simp] theorem State.endOp_cores : (s.endOp t).cores = s.cores := rfl
@[simp] theorem State.endOp_clusters : (s.endOp t).clusters = s.clusters := rfl
@[simp] theorem State.endOp_parts : (s.endOp t).parts = s.parts := rfl
@[simp] theorem State.endOp_net : (s.endOp t).net = s.net := rfl
@[simp] theorem State.endOp_ops : (s.endOp t).ops = tdel s.ops t := rfl
@[simp] theorem State.endOp_visitors : (s.endOp t).visitors = s.visitors := rfl
@[simp] theorem State.endOp_slices : (s.endOp t).slices = s.slices := rfl
@[simp] theorem State.endOp_mirrored : (s.endOp t).mirrored = s.mirrored := rfl
@[simp] theorem State.endOp_lastBy : (s.endOp t).lastBy = s.lastBy := rfl
@[simp] theorem State.endOp_resv : (s.endOp t).resv = s.resv := rfl
@[simp] theorem State.endOp_appends : (s.endOp t).appends = s.appends := rfl
@[simp] theorem State.endOp_heldQ : (s.endOp t).heldQ = s.heldQ := rfl
@[simp] theorem State.endOp_hostHeld : (s.endOp t).hostHeld = s.hostHeld := rfl
@[simp] theorem State.endOp_links : (s.endOp t).links = s.links := rfl
@[simp] theorem State.endOp_injectors : (s.endOp t).injectors = s.injectors := rfl
@[simp] theorem State.endOp_floods : (s.endOp t).floods = s.floods := rfl
@[simp] theorem State.endOp_reg : (s.endOp t).reg = s.reg := rfl
@[simp] theorem State.endOp_fused : (s.endOp t).fused = s.fused := rfl
@[simp] theorem State.endOp_peerNo : (s.endOp t).peerNo = s.peerNo := rfl
@[simp] theorem State.endOp_cxl : (s.endOp t).cxl = s.cxl := rfl

end

section
variable (s : State) (e : Env)

@[simp] theorem State.put_cycle : (s.put e).cycle = s.cycle := rfl
@[simp] theorem State.put_cur : (s.put e).cur = s.cur := rfl
@[simp] theorem State.put_agenda : (s.put e).agenda = s.agenda := rfl
@[simp] theorem State.put_fetched : (s.put e).fetched = s.fetched := rfl
@[simp] theorem State.put_flen : (s.put e).flen = s.flen := rfl
@[simp] theorem State.put_free : (s.put e).free = s.free := rfl
@[simp] theorem State.put_nextId : (s.put e).nextId = s.nextId := rfl
@[simp] theorem State.put_mem : (s.put e).mem = s.mem := rfl
@[simp] theorem State.put_lines : (s.put e).lines = tset s.lines e.key { e.line with touched := true } := rfl
@[simp] theorem State.put_cores : (s.put e).cores = tset s.cores e.site e.core := rfl
@[simp] theorem State.put_clusters : (s.put e).clusters = s.clusters := rfl
@[simp] theorem State.put_parts : (s.put e).parts = s.parts := rfl
@[simp] theorem State.put_net : (s.put e).net = s.net := rfl
@[simp] theorem State.put_ops : (s.put e).ops = s.ops := rfl
@[simp] theorem State.put_visitors : (s.put e).visitors = s.visitors := rfl
@[simp] theorem State.put_slices : (s.put e).slices = s.slices := rfl
@[simp] theorem State.put_mirrored : (s.put e).mirrored = s.mirrored := rfl
@[simp] theorem State.put_lastBy : (s.put e).lastBy = s.lastBy := rfl
@[simp] theorem State.put_resv : (s.put e).resv = s.resv := rfl
@[simp] theorem State.put_appends : (s.put e).appends = s.appends := rfl
@[simp] theorem State.put_heldQ : (s.put e).heldQ = s.heldQ := rfl
@[simp] theorem State.put_hostHeld : (s.put e).hostHeld = s.hostHeld := rfl
@[simp] theorem State.put_links : (s.put e).links = s.links := rfl
@[simp] theorem State.put_injectors : (s.put e).injectors = s.injectors := rfl
@[simp] theorem State.put_floods : (s.put e).floods = s.floods := rfl
@[simp] theorem State.put_reg : (s.put e).reg = s.reg := rfl
@[simp] theorem State.put_fused : (s.put e).fused = s.fused := rfl
@[simp] theorem State.put_peerNo : (s.put e).peerNo = s.peerNo := rfl
@[simp] theorem State.put_cxl : (s.put e).cxl = s.cxl := rfl

end

/-! ## Accessors after writes -/

section
variable (s : State)

@[simp] theorem State.core_setCore_eq (site : Nat) (c : Core) : (s.setCore site c).core site = c := by
  simp [State.core]
theorem State.core_setCore_ne {site k : Nat} (c : Core) (h : k ≠ site) : (s.setCore site c).core k = s.core k := by
  simp [State.core, tgetD_tset_ne _ _ _ h]
@[simp] theorem State.core_modCore_eq (site : Nat) (f : Core → Core) : (s.modCore site f).core site = f (s.core site) := by
  simp [State.modCore]
theorem State.core_modCore_ne {site k : Nat} (f : Core → Core) (h : k ≠ site) : (s.modCore site f).core k = s.core k :=
  s.core_setCore_ne _ h
@[simp] theorem State.cl_setCl_eq (k : Nat) (c : Cluster) : (s.setCl k c).cl k = c := by
  simp [State.cl]
theorem State.cl_setCl_ne {k j : Nat} (c : Cluster) (h : j ≠ k) : (s.setCl k c).cl j = s.cl j := by
  simp [State.cl, tgetD_tset_ne _ _ _ h]
@[simp] theorem State.cl_modCl_eq (k : Nat) (f : Cluster → Cluster) : (s.modCl k f).cl k = f (s.cl k) := by
  simp [State.modCl]
theorem State.cl_modCl_ne {k j : Nat} (f : Cluster → Cluster) (h : j ≠ k) : (s.modCl k f).cl j = s.cl j :=
  s.cl_setCl_ne _ h
@[simp] theorem State.part_setPart_eq (p : Nat) (x : Part) : (s.setPart p x).part p = x := by
  simp [State.part]
theorem State.part_setPart_ne {p q : Nat} (x : Part) (h : q ≠ p) : (s.setPart p x).part q = s.part q := by
  simp [State.part, tgetD_tset_ne _ _ _ h]
@[simp] theorem State.part_modPart_eq (p : Nat) (f : Part → Part) : (s.modPart p f).part p = f (s.part p) := by
  simp [State.modPart]
theorem State.part_modPart_ne {p q : Nat} (f : Part → Part) (h : q ≠ p) : (s.modPart p f).part q = s.part q :=
  s.part_setPart_ne _ h

@[simp] theorem State.line?_moveLine_eq (k : Nat) (l : Line) : (s.moveLine k l).line? k = some l := by
  simp [State.line?]
theorem State.line?_moveLine_ne {k j : Nat} (l : Line) (h : j ≠ k) : (s.moveLine k l).line? j = s.line? j := by
  simp [State.line?, tget_tset_ne _ _ h]
@[simp] theorem State.line?_setLine_eq (k : Nat) (l : Line) : (s.setLine k l).line? k = some { l with touched := true } := by
  simp [State.line?]
theorem State.line?_setLine_ne {k j : Nat} (l : Line) (h : j ≠ k) : (s.setLine k l).line? j = s.line? j := by
  simp [State.line?, tget_tset_ne _ _ h]
@[simp] theorem State.line?_put_eq (e : Env) : (s.put e).line? e.key = some { e.line with touched := true } := by
  simp [State.line?]
theorem State.line?_put_ne {e : Env} {j : Nat} (h : j ≠ e.key) : (s.put e).line? j = s.line? j := by
  simp [State.line?, tget_tset_ne _ _ h]
@[simp] theorem State.core_put_eq (e : Env) : (s.put e).core e.site = e.core := by
  simp [State.core]
theorem State.core_put_ne {e : Env} {k : Nat} (h : k ≠ e.site) : (s.put e).core k = s.core k := by
  simp [State.core, tgetD_tset_ne _ _ _ h]

/-- A line changed in place. -/
theorem State.modLine_some {k : Nat} {l : Line} (f : Line → Line) (h : s.line? k = some l) : s.modLine k f = s.setLine k (f l) := by
  simp [State.modLine, h]
/-- With no line at the key nothing changes. -/
theorem State.modLine_none {k : Nat} (f : Line → Line) (h : s.line? k = none) : s.modLine k f = s := by
  simp [State.modLine, h]
theorem State.line?_modLine_eq (k : Nat) (f : Line → Line) :
    (s.modLine k f).line? k = (s.line? k).map fun l => { f l with touched := true } := by
  unfold State.modLine
  cases h : s.line? k with
  | none => simp [h]
  | some l => simp
theorem State.line?_modLine_ne {k j : Nat} (f : Line → Line) (h : j ≠ k) : (s.modLine k f).line? j = s.line? j := by
  unfold State.modLine
  split
  · exact s.line?_setLine_ne _ h
  · rfl
/-- Everything but the lines is as before when a line is changed in place. -/
theorem State.modLine_frame (k : Nat) (f : Line → Line) : ∃ ls, s.modLine k f = { s with lines := ls } := by
  unfold State.modLine
  split
  · exact ⟨_, rfl⟩
  · exact ⟨s.lines, rfl⟩

end

/-! ## Accessors that an update leaves alone -/

section
variable (s : State) (site : Nat) (c : Core)

@[simp] theorem State.cl_setCore (j : Nat) : (s.setCore site c).cl j = s.cl j := rfl
@[simp] theorem State.part_setCore (j : Nat) : (s.setCore site c).part j = s.part j := rfl
@[simp] theorem State.line?_setCore (j : Nat) : (s.setCore site c).line? j = s.line? j := rfl
@[simp] theorem State.rdByte_setCore (j : Nat) : (s.setCore site c).rdByte j = s.rdByte j := rfl
@[simp] theorem State.rd_setCore (j n : Nat) : (s.setCore site c).rd j n = s.rd j n := rfl
@[simp] theorem State.gtime_setCore : (s.setCore site c).gtime = s.gtime := rfl
@[simp] theorem State.slot_setCore : (s.setCore site c).slot = s.slot := rfl

end

section
variable (s : State) (site : Nat) (f : Core → Core)

@[simp] theorem State.cl_modCore (j : Nat) : (s.modCore site f).cl j = s.cl j := rfl
@[simp] theorem State.part_modCore (j : Nat) : (s.modCore site f).part j = s.part j := rfl
@[simp] theorem State.line?_modCore (j : Nat) : (s.modCore site f).line? j = s.line? j := rfl
@[simp] theorem State.rdByte_modCore (j : Nat) : (s.modCore site f).rdByte j = s.rdByte j := rfl
@[simp] theorem State.rd_modCore (j n : Nat) : (s.modCore site f).rd j n = s.rd j n := rfl
@[simp] theorem State.gtime_modCore : (s.modCore site f).gtime = s.gtime := rfl
@[simp] theorem State.slot_modCore : (s.modCore site f).slot = s.slot := rfl

end

section
variable (s : State) (k : Nat) (c : Cluster)

@[simp] theorem State.core_setCl (j : Nat) : (s.setCl k c).core j = s.core j := rfl
@[simp] theorem State.part_setCl (j : Nat) : (s.setCl k c).part j = s.part j := rfl
@[simp] theorem State.line?_setCl (j : Nat) : (s.setCl k c).line? j = s.line? j := rfl
@[simp] theorem State.rdByte_setCl (j : Nat) : (s.setCl k c).rdByte j = s.rdByte j := rfl
@[simp] theorem State.rd_setCl (j n : Nat) : (s.setCl k c).rd j n = s.rd j n := rfl
@[simp] theorem State.gtime_setCl : (s.setCl k c).gtime = s.gtime := rfl
@[simp] theorem State.slot_setCl : (s.setCl k c).slot = s.slot := rfl

end

section
variable (s : State) (k : Nat) (f : Cluster → Cluster)

@[simp] theorem State.core_modCl (j : Nat) : (s.modCl k f).core j = s.core j := rfl
@[simp] theorem State.part_modCl (j : Nat) : (s.modCl k f).part j = s.part j := rfl
@[simp] theorem State.line?_modCl (j : Nat) : (s.modCl k f).line? j = s.line? j := rfl
@[simp] theorem State.rdByte_modCl (j : Nat) : (s.modCl k f).rdByte j = s.rdByte j := rfl
@[simp] theorem State.rd_modCl (j n : Nat) : (s.modCl k f).rd j n = s.rd j n := rfl
@[simp] theorem State.gtime_modCl : (s.modCl k f).gtime = s.gtime := rfl
@[simp] theorem State.slot_modCl : (s.modCl k f).slot = s.slot := rfl

end

section
variable (s : State) (p : Nat) (x : Part)

@[simp] theorem State.core_setPart (j : Nat) : (s.setPart p x).core j = s.core j := rfl
@[simp] theorem State.cl_setPart (j : Nat) : (s.setPart p x).cl j = s.cl j := rfl
@[simp] theorem State.line?_setPart (j : Nat) : (s.setPart p x).line? j = s.line? j := rfl
@[simp] theorem State.rdByte_setPart (j : Nat) : (s.setPart p x).rdByte j = s.rdByte j := rfl
@[simp] theorem State.rd_setPart (j n : Nat) : (s.setPart p x).rd j n = s.rd j n := rfl
@[simp] theorem State.gtime_setPart : (s.setPart p x).gtime = s.gtime := rfl
@[simp] theorem State.slot_setPart : (s.setPart p x).slot = s.slot := rfl

end

section
variable (s : State) (p : Nat) (f : Part → Part)

@[simp] theorem State.core_modPart (j : Nat) : (s.modPart p f).core j = s.core j := rfl
@[simp] theorem State.cl_modPart (j : Nat) : (s.modPart p f).cl j = s.cl j := rfl
@[simp] theorem State.line?_modPart (j : Nat) : (s.modPart p f).line? j = s.line? j := rfl
@[simp] theorem State.rdByte_modPart (j : Nat) : (s.modPart p f).rdByte j = s.rdByte j := rfl
@[simp] theorem State.rd_modPart (j n : Nat) : (s.modPart p f).rd j n = s.rd j n := rfl
@[simp] theorem State.gtime_modPart : (s.modPart p f).gtime = s.gtime := rfl
@[simp] theorem State.slot_modPart : (s.modPart p f).slot = s.slot := rfl

end

section
variable (s : State) (k : Nat) (l : Line)

@[simp] theorem State.core_moveLine (j : Nat) : (s.moveLine k l).core j = s.core j := rfl
@[simp] theorem State.cl_moveLine (j : Nat) : (s.moveLine k l).cl j = s.cl j := rfl
@[simp] theorem State.part_moveLine (j : Nat) : (s.moveLine k l).part j = s.part j := rfl
@[simp] theorem State.gtime_moveLine : (s.moveLine k l).gtime = s.gtime := rfl
@[simp] theorem State.slot_moveLine : (s.moveLine k l).slot = s.slot := rfl

end

section
variable (s : State) (k : Nat) (l : Line)

@[simp] theorem State.core_setLine (j : Nat) : (s.setLine k l).core j = s.core j := rfl
@[simp] theorem State.cl_setLine (j : Nat) : (s.setLine k l).cl j = s.cl j := rfl
@[simp] theorem State.part_setLine (j : Nat) : (s.setLine k l).part j = s.part j := rfl
@[simp] theorem State.gtime_setLine : (s.setLine k l).gtime = s.gtime := rfl
@[simp] theorem State.slot_setLine : (s.setLine k l).slot = s.slot := rfl

end

section
variable (s : State) (a b : Node) (vn : Nat) (x : Body)

@[simp] theorem State.core_send (j : Nat) : (s.send a b vn x).core j = s.core j := rfl
@[simp] theorem State.cl_send (j : Nat) : (s.send a b vn x).cl j = s.cl j := rfl
@[simp] theorem State.part_send (j : Nat) : (s.send a b vn x).part j = s.part j := rfl
@[simp] theorem State.line?_send (j : Nat) : (s.send a b vn x).line? j = s.line? j := rfl
@[simp] theorem State.rdByte_send (j : Nat) : (s.send a b vn x).rdByte j = s.rdByte j := rfl
@[simp] theorem State.rd_send (j n : Nat) : (s.send a b vn x).rd j n = s.rd j n := rfl
@[simp] theorem State.gtime_send : (s.send a b vn x).gtime = s.gtime := rfl
@[simp] theorem State.slot_send : (s.send a b vn x).slot = s.slot := rfl

end

section
variable (s : State) (m : Nat)

@[simp] theorem State.core_drop (j : Nat) : (s.drop m).core j = s.core j := rfl
@[simp] theorem State.cl_drop (j : Nat) : (s.drop m).cl j = s.cl j := rfl
@[simp] theorem State.part_drop (j : Nat) : (s.drop m).part j = s.part j := rfl
@[simp] theorem State.line?_drop (j : Nat) : (s.drop m).line? j = s.line? j := rfl
@[simp] theorem State.rdByte_drop (j : Nat) : (s.drop m).rdByte j = s.rdByte j := rfl
@[simp] theorem State.rd_drop (j n : Nat) : (s.drop m).rd j n = s.rd j n := rfl
@[simp] theorem State.gtime_drop : (s.drop m).gtime = s.gtime := rfl
@[simp] theorem State.slot_drop : (s.drop m).slot = s.slot := rfl

end

section
variable (s : State) (m : Nat) (x : Body)

@[simp] theorem State.core_rebody (j : Nat) : (s.rebody m x).core j = s.core j := rfl
@[simp] theorem State.cl_rebody (j : Nat) : (s.rebody m x).cl j = s.cl j := rfl
@[simp] theorem State.part_rebody (j : Nat) : (s.rebody m x).part j = s.part j := rfl
@[simp] theorem State.line?_rebody (j : Nat) : (s.rebody m x).line? j = s.line? j := rfl
@[simp] theorem State.rdByte_rebody (j : Nat) : (s.rebody m x).rdByte j = s.rdByte j := rfl
@[simp] theorem State.rd_rebody (j n : Nat) : (s.rebody m x).rd j n = s.rd j n := rfl
@[simp] theorem State.gtime_rebody : (s.rebody m x).gtime = s.gtime := rfl
@[simp] theorem State.slot_rebody : (s.rebody m x).slot = s.slot := rfl

end

section
variable (s : State) (i : OpInfo)

@[simp] theorem State.core_newOp (j : Nat) : (s.newOp i).2.core j = s.core j := rfl
@[simp] theorem State.cl_newOp (j : Nat) : (s.newOp i).2.cl j = s.cl j := rfl
@[simp] theorem State.part_newOp (j : Nat) : (s.newOp i).2.part j = s.part j := rfl
@[simp] theorem State.line?_newOp (j : Nat) : (s.newOp i).2.line? j = s.line? j := rfl
@[simp] theorem State.rdByte_newOp (j : Nat) : (s.newOp i).2.rdByte j = s.rdByte j := rfl
@[simp] theorem State.rd_newOp (j n : Nat) : (s.newOp i).2.rd j n = s.rd j n := rfl
@[simp] theorem State.gtime_newOp : (s.newOp i).2.gtime = s.gtime := rfl
@[simp] theorem State.slot_newOp : (s.newOp i).2.slot = s.slot := rfl

end

section
variable (s : State) (t : Nat)

@[simp] theorem State.core_endOp (j : Nat) : (s.endOp t).core j = s.core j := rfl
@[simp] theorem State.cl_endOp (j : Nat) : (s.endOp t).cl j = s.cl j := rfl
@[simp] theorem State.part_endOp (j : Nat) : (s.endOp t).part j = s.part j := rfl
@[simp] theorem State.line?_endOp (j : Nat) : (s.endOp t).line? j = s.line? j := rfl
@[simp] theorem State.rdByte_endOp (j : Nat) : (s.endOp t).rdByte j = s.rdByte j := rfl
@[simp] theorem State.rd_endOp (j n : Nat) : (s.endOp t).rd j n = s.rd j n := rfl
@[simp] theorem State.gtime_endOp : (s.endOp t).gtime = s.gtime := rfl
@[simp] theorem State.slot_endOp : (s.endOp t).slot = s.slot := rfl

end

section
variable (s : State) (e : Env)

@[simp] theorem State.cl_put (j : Nat) : (s.put e).cl j = s.cl j := rfl
@[simp] theorem State.part_put (j : Nat) : (s.put e).part j = s.part j := rfl
@[simp] theorem State.gtime_put : (s.put e).gtime = s.gtime := rfl
@[simp] theorem State.slot_put : (s.put e).slot = s.slot := rfl

end


/-! ## The bytes of a context line (R58, R70) -/

/-- A part of a list of bytes is the bytes of its number. -/
theorem leBytes_leField {bs : List Byte} {i n : Nat} (h : i + n ≤ bs.length) : leBytes n (leField bs i n) = (bs.drop i).take n := by
  have hl : ((bs.drop i).take n).length = n := by simp; omega
  conv_lhs => rw [← hl]
  rw [leField, show ((bs.drop i).take n).length = n from hl]
  have := leBytes_leNat ((bs.drop i).take n)
  rwa [hl] at this

theorem leField_lt (bs : List Byte) (i n : Nat) : leField bs i n < 256 ^ n := by
  refine (leNat_lt _).trans_le (Nat.pow_le_pow_right (by norm_num) ?_)
  simp

theorem W_leField8 (bs : List Byte) (i : Nat) : (W (leField bs i 8)).toNat = leField bs i 8 := by
  rw [W, BitVec.toNat_ofNat, Nat.mod_eq_of_lt]
  exact (leField_lt bs i 8).trans_eq (by norm_num)

theorem leField4_toNat (bs : List Byte) (i : Nat) : (BitVec.ofNat 32 (leField bs i 4)).toNat = leField bs i 4 := by
  rw [BitVec.toNat_ofNat, Nat.mod_eq_of_lt]
  exact (leField_lt bs i 4).trans_eq (by norm_num)

/-- Two neighbouring parts of a list in one. -/
theorem take_drop_append (bs : List Byte) (i n m : Nat) :
    (bs.drop i).take n ++ (bs.drop (i + n)).take m = (bs.drop i).take (n + m) := by
  rw [List.take_add, List.drop_drop]

/-- A line is 128 bytes. -/
@[simp] theorem Line.bytes_length (l : Line) : l.bytes.length = 128 := by
  simp [Line.bytes, List.length_flatMap]

/-- A line holds the bytes written into it. -/
theorem Line.bytes_ofBytes (l : Line) {bs : List Byte} (h : bs.length = 128) : (l.ofBytes bs).bytes = bs := by
  have f8 : ∀ i, i + 8 ≤ 128 → leBytes 8 (W (leField bs i 8)).toNat = (bs.drop i).take 8 := fun i hi => by
    rw [W_leField8, leBytes_leField (by omega)]
  have f4 : ∀ i, i + 4 ≤ 128 → leBytes 4 (BitVec.ofNat 32 (leField bs i 4)).toNat = (bs.drop i).take 4 := fun i hi => by
    rw [leField4_toNat, leBytes_leField (by omega)]
  have hv : (List.range 8).flatMap (fun i => leBytes 8 ((l.ofBytes bs).v.getD i 0#64).toNat) = (bs.drop 32).take 64 := by
    simp only [Line.ofBytes, List.range_succ, List.range_zero, List.nil_append, List.cons_append, List.map_cons, List.map_nil,
      List.flatMap_cons, List.flatMap_nil, List.getD_cons_zero, List.getD_cons_succ, List.append_nil, Nat.reduceMul, Nat.reduceAdd]
    rw [f8 32 (by norm_num), f8 40 (by norm_num), f8 48 (by norm_num), f8 56 (by norm_num), f8 64 (by norm_num), f8 72 (by norm_num),
      f8 80 (by norm_num), f8 88 (by norm_num)]
    simp only [take_drop_append bs 80 8 8, take_drop_append bs 72 8 16, take_drop_append bs 64 8 24, take_drop_append bs 56 8 32,
      take_drop_append bs 48 8 40, take_drop_append bs 40 8 48, take_drop_append bs 32 8 56]
  rw [Line.bytes, hv]
  simp only [Line.ofBytes]
  rw [f8 0 (by norm_num), f8 8 (by norm_num), f4 16 (by norm_num), f4 20 (by norm_num), f8 24 (by norm_num), f8 96 (by norm_num),
    f8 104 (by norm_num), f8 112 (by norm_num), f8 120 (by norm_num)]
  simp only [List.append_assoc]
  simp only [take_drop_append bs 112 8 8, take_drop_append bs 104 8 16, take_drop_append bs 96 8 24, take_drop_append bs 32 64 32,
    take_drop_append bs 24 8 96, take_drop_append bs 20 4 104, take_drop_append bs 16 4 108, take_drop_append bs 8 8 112,
    take_drop_append bs 0 8 120]
  rw [List.drop_zero, List.take_of_length_le (by omega)]

@[simp] theorem Line.ofBytes_life (l : Line) (bs : List Byte) : (l.ofBytes bs).life = l.life := rfl

/-! ## Reading and writing bytes through the lines (R4, R70) -/

section
variable {s : State}

/-- A live or exited line's bytes stand for the memory below them. -/
theorem State.rdByte_of_line {a : Nat} {l : Line} (h : s.line? (a / 128) = some l) (hl : (l.life == .live || l.life == .exited) = true) :
    s.rdByte a = l.bytes.getD (a % 128) 0#8 := by
  simp only [State.rdByte, h, hl, if_true]

/-- Elsewhere memory's byte is read. -/
theorem State.rdByte_of_mem {a : Nat} (h : ∀ l, s.line? (a / 128) = some l → (l.life == .live || l.life == .exited) = false) :
    s.rdByte a = memGet s.mem a := by
  unfold State.rdByte
  split
  · rename_i l hl; rw [h l hl]; rfl
  · rfl

/-- What a write of a byte does: into a live or exited line. -/
theorem State.wrByte_of_line {a : Nat} {l : Line} (b : Byte) (h : s.line? (a / 128) = some l)
    (hl : (l.life == .live || l.life == .exited) = true) :
    s.wrByte a b = s.setLine (a / 128) (l.ofBytes (l.bytes.set (a % 128) b)) := by
  simp only [State.wrByte, h, hl, if_true]

/-- And elsewhere into memory. -/
theorem State.wrByte_of_mem {a : Nat} (b : Byte)
    (h : ∀ l, s.line? (a / 128) = some l → (l.life == .live || l.life == .exited) = false) :
    s.wrByte a b = { s with mem := memSet s.mem a b } := by
  unfold State.wrByte
  split
  · rename_i l hl; rw [h l hl]; rfl
  · rfl

/-- An address lies in a live or exited line, or no such line covers it. -/
theorem State.line_cases (s : State) (a : Nat) :
    (∃ l, s.line? (a / 128) = some l ∧ (l.life == .live || l.life == .exited) = true) ∨
    (∀ l, s.line? (a / 128) = some l → (l.life == .live || l.life == .exited) = false) := by
  cases h : s.line? (a / 128) with
  | none => exact .inr fun l hl => by simp at hl
  | some l =>
    cases hl : (l.life == Life.live || l.life == Life.exited) with
    | true => exact .inl ⟨l, rfl, hl⟩
    | false => exact .inr fun l' h' => by rw [← Option.some.inj h']; exact hl

/-- What the bytes of a line read after one of them is written. -/
theorem State.rdByte_setLine_bytes {k j : Nat} {l : Line} (bs : List Byte) (hb : bs.length = 128) (hk : j / 128 = k)
    (hl : (l.life == .live || l.life == .exited) = true) : (s.setLine k (l.ofBytes bs)).rdByte j = bs.getD (j % 128) 0#8 := by
  subst hk
  rw [State.rdByte_of_line (s := s.setLine (j / 128) (l.ofBytes bs)) (s.line?_setLine_eq _ _) hl]
  exact congrArg (fun x => List.getD x (j % 128) 0#8) (Line.bytes_ofBytes l hb)

/-- A byte reads as it was written. -/
theorem State.rdByte_wrByte_eq (a : Nat) (b : Byte) : (s.wrByte a b).rdByte a = b := by
  rcases s.line_cases a with ⟨l, h, hl⟩ | h
  · rw [State.wrByte_of_line b h hl, State.rdByte_setLine_bytes _ (by simp) rfl hl, List.getD_eq_getElem _ _ (by simp; omega),
      List.getElem_set_self]
  · rw [State.wrByte_of_mem b h, State.rdByte_of_mem (s := { s with mem := memSet s.mem a b }) h]
    exact memGet_memSet_eq s.mem a b

/-- A write leaves every other byte alone. -/
theorem State.rdByte_wrByte_ne (a j : Nat) (b : Byte) (hj : j ≠ a) : (s.wrByte a b).rdByte j = s.rdByte j := by
  rcases s.line_cases a with ⟨l, h, hl⟩ | h
  · rw [State.wrByte_of_line b h hl]
    by_cases hk : j / 128 = a / 128
    · have hne : a % 128 ≠ j % 128 := by omega
      rw [State.rdByte_setLine_bytes _ (by simp) hk hl, State.rdByte_of_line (hk ▸ h) hl, List.getD_eq_getElem?_getD,
        List.getD_eq_getElem?_getD, List.getElem?_set_ne hne]
    · simp only [State.rdByte, State.line?_setLine_ne s _ hk, State.setLine_mem]
  · rw [State.wrByte_of_mem b h]
    show (match s.line? (j / 128) with
      | some l => if l.life == .live || l.life == .exited then l.bytes.getD (j % 128) 0#8 else memGet (memSet s.mem a b) j
      | none => memGet (memSet s.mem a b) j) = s.rdByte j
    rw [memGet_memSet_ne s.mem b hj]
    rfl

/-- Writing a byte keeps the canonical form. -/
theorem State.wrByte_wf (hm : Memory.wf s.mem = true) (a : Nat) (b : Byte) : Memory.wf (s.wrByte a b).mem = true := by
  unfold State.wrByte
  have := Memory.wf_memSet hm a b
  split
  · split_ifs
    · exact hm
    · exact this
  · exact this

/-- Writing bytes keeps the canonical form. -/
theorem State.wr_wf (hm : Memory.wf s.mem = true) (a : Nat) (bs : List Byte) : Memory.wf (s.wr a bs).mem = true := by
  induction bs generalizing s a with
  | nil => exact hm
  | cons b r ih => exact ih (State.wrByte_wf hm a b) (a + 1)

/-- Bytes outside a written range stay. -/
theorem State.rdByte_wr_out (a : Nat) (bs : List Byte) {j : Nat} (h : j < a ∨ a + bs.length ≤ j) :
    (s.wr a bs).rdByte j = s.rdByte j := by
  induction bs generalizing s a with
  | nil => rfl
  | cons b r ih =>
    simp only [List.length_cons] at h
    rw [State.wr, ih (a + 1) (by omega), State.rdByte_wrByte_ne _ _ _ (by omega)]

/-- Bytes inside a written range read as written. -/
theorem State.rdByte_wr_in (a : Nat) (bs : List Byte) (i : Nat) (h : i < bs.length) :
    (s.wr a bs).rdByte (a + i) = bs[i] := by
  induction bs generalizing s a i with
  | nil => simp at h
  | cons b r ih =>
    cases i with
    | zero => rw [State.wr, State.rdByte_wr_out _ _ (by omega), Nat.add_zero, State.rdByte_wrByte_eq]; rfl
    | succ i =>
      rw [State.wr, show a + (i + 1) = a + 1 + i by omega, ih (a + 1) i (by simpa using h)]
      rfl

/-- Reading back what was written. -/
theorem State.rd_wr (a : Nat) (bs : List Byte) : (s.wr a bs).rd a bs.length = bs := by
  apply List.ext_getElem (by simp [State.rd])
  intro i h1 h2
  simp only [State.rd, List.getElem_map, List.getElem_range]
  exact State.rdByte_wr_in a bs i h2

/-- Reading what lies outside a written range. -/
theorem State.rd_wr_out (a : Nat) (bs : List Byte) (b n : Nat) (h : b + n ≤ a ∨ a + bs.length ≤ b) :
    (s.wr a bs).rd b n = s.rd b n := by
  apply List.map_congr_left
  intro i hi
  rw [List.mem_range] at hi
  exact State.rdByte_wr_out a bs (by omega)

/-- A write of bytes changes the memory and the lines and nothing else. -/
theorem State.wr_frame (a : Nat) (bs : List Byte) : ∃ m ls, s.wr a bs = { s with mem := m, lines := ls } := by
  induction bs generalizing s a with
  | nil => exact ⟨s.mem, s.lines, rfl⟩
  | cons b r ih =>
    obtain ⟨m, ls, h⟩ : ∃ m ls, s.wrByte a b = { s with mem := m, lines := ls } := by
      unfold State.wrByte
      split
      · split_ifs
        · exact ⟨s.mem, _, rfl⟩
        · exact ⟨_, s.lines, rfl⟩
      · exact ⟨_, s.lines, rfl⟩
    obtain ⟨m', ls', h'⟩ := ih (s := { s with mem := m, lines := ls }) (a + 1)
    exact ⟨m', ls', by rw [State.wr, h, h']⟩

end

end Sys2Proof.Machine
end

