-- ==== Sys2Proof/Laws/Ops.lean ====
section
/-! SUPPORT. The laws of the shared operations: the issuing context, the forms of the instructions, waits, answers and faults,
with what each of them leaves alone. -/

namespace Sys2Proof.Machine

/-! ## The issuing context (R62, R64) -/

/-- What it means that a context issues: it is the line bound to the current core's current slot, live and READY, of a kernel
the core hosts. -/
theorem State.env?_some {s : State} {e : Env} (h : s.env? = some e) :
    e.site = s.cur ∧ e.slot = s.slot ∧ e.core = s.core s.cur ∧ tget (s.core s.cur).bound s.slot = some e.key ∧
      s.line? e.key = some e.line ∧ e.line.isReady = true ∧ (s.core s.cur).life = .active ∧
      (s.core s.cur).slotOf e.line.part e.line.kid = some e.ks ∧ s.invalsBefore (dieOf s.cur) e.line.acqTo = false := by
  simp only [State.env?] at h
  split at h
  · simp at h
  · rename_i key hk
    split at h
    · simp at h
    · rename_i l hl
      split_ifs at h with hr
      rw [Bool.and_eq_true, Bool.and_eq_true] at hr
      split at h
      · rename_i k hks
        rw [← Option.some.inj h]
        exact ⟨rfl, rfl, rfl, hk, hl, hr.1.1, by simpa using hr.1.2, hks, by simpa using hr.2⟩
      · simp at h

/-- A READY line is live. -/
theorem Line.live_of_isReady {l : Line} (h : l.isReady = true) : l.life = .live := by
  rw [Line.isReady, Bool.and_eq_true] at h
  simpa using h.1

@[simp] theorem withEnv_some {s : State} {e : Env} (f : Env → State) (h : s.env? = some e) : withEnv s f = .next (f e) := by
  simp [withEnv, h]
@[simp] theorem withEnv_none {s : State} (f : Env → State) (h : s.env? = none) : withEnv s f = .next s := by
  simp [withEnv, h]
/-- An instruction of a context answers a next state, whatever it does. -/
theorem withEnv_next (s : State) (f : Env → State) : ∃ t, withEnv s f = .next t := by
  unfold withEnv
  split <;> exact ⟨_, rfl⟩
/-- With a guard that holds the instruction has its effect (R27). -/
theorem guarded_runs {s : State} {e : Env} {g : Guard} (f : Env → State) (h : s.env? = some e) (hg : e.line.guard g = true) :
    guarded g s f = .next (f e) := by
  simp [guarded, withEnv, h, hg]
/-- With a guard that fails only the PC advances (R27). -/
theorem guarded_skips {s : State} {e : Env} {g : Guard} (f : Env → State) (h : s.env? = some e) (hg : e.line.guard g = false) :
    guarded g s f = .next (s.put (e.adv 4)) := by
  simp [guarded, withEnv, h, hg]
theorem guarded_next (g : Guard) (s : State) (f : Env → State) : ∃ t, guarded g s f = .next t := withEnv_next s _

/-- Whatever an instruction of a context does, it is one of three things: nothing, its effect, or the advance of the PC. -/
theorem guarded_cases {g : Guard} {s t : State} {f : Env → State} (h : guarded g s f = .next t) :
    t = s ∨ ∃ e, s.env? = some e ∧ ((e.line.guard g = true ∧ t = f e) ∨ (e.line.guard g = false ∧ t = s.put (e.adv 4))) := by
  cases he : s.env? with
  | none => left; simpa [guarded, withEnv, he, eq_comm] using h
  | some e =>
    right
    refine ⟨e, rfl, ?_⟩
    cases hg : e.line.guard g with
    | true => left; simpa [guarded, withEnv, he, hg, eq_comm] using h
    | false => right; simpa [guarded, withEnv, he, hg, eq_comm] using h

/-! ## The parts of the issuing context -/

/-- A context whose line is replaced runs on the same core. -/
theorem Env.withLine_core (e : Env) (l : Line) : ({ e with line := l } : Env).core = e.core := rfl
theorem Env.withLine_key (e : Env) (l : Line) : ({ e with line := l } : Env).key = e.key := rfl

section
variable (e : Env) (n : Nat) (r : Reg) (v : Word)

@[simp] theorem Env.setReg_site : (e.setReg n r v).site = e.site := by unfold Env.setReg; split <;> rfl
@[simp] theorem Env.setReg_slot : (e.setReg n r v).slot = e.slot := by unfold Env.setReg; split <;> rfl
@[simp] theorem Env.setReg_key : (e.setReg n r v).key = e.key := by unfold Env.setReg; split <;> rfl
@[simp] theorem Env.setReg_ks : (e.setReg n r v).ks = e.ks := by unfold Env.setReg; split <;> rfl
/-- A register write leaves every part of the line but the v registers alone. -/
theorem Env.setReg_line : ∃ vs, (e.setReg n r v).line = { e.line with v := vs } := by
  unfold Env.setReg; split
  · exact ⟨_, rfl⟩
  · exact ⟨e.line.v, rfl⟩
@[simp] theorem Env.setReg_pc : (e.setReg n r v).line.pc = e.line.pc := by unfold Env.setReg; split <;> rfl
@[simp] theorem Env.setReg_pw : (e.setReg n r v).line.pw = e.line.pw := by unfold Env.setReg; split <;> rfl
@[simp] theorem Env.setReg_tsw : (e.setReg n r v).line.tsw = e.line.tsw := by unfold Env.setReg; split <;> rfl
@[simp] theorem Env.setReg_wt : (e.setReg n r v).line.wt = e.line.wt := by unfold Env.setReg; split <;> rfl
@[simp] theorem Env.setReg_life : (e.setReg n r v).line.life = e.line.life := by unfold Env.setReg; split <;> rfl
@[simp] theorem Env.setReg_bound : (e.setReg n r v).core.bound = e.core.bound := by unfold Env.setReg; split <;> rfl
@[simp] theorem Env.setReg_lfsr : (e.setReg n r v).core.lfsr = e.core.lfsr := by unfold Env.setReg; split <;> rfl
@[simp] theorem Env.adv_site : (e.adv n).site = e.site := rfl
@[simp] theorem Env.adv_slot : (e.adv n).slot = e.slot := rfl
@[simp] theorem Env.adv_key : (e.adv n).key = e.key := rfl
@[simp] theorem Env.adv_ks : (e.adv n).ks = e.ks := rfl
@[simp] theorem Env.adv_core : (e.adv n).core = e.core := rfl
@[simp] theorem Env.adv_pc : (e.adv n).line.pc = e.line.pc + W n := rfl
@[simp] theorem Env.adv_v : (e.adv n).line.v = e.line.v := rfl
@[simp] theorem Env.adv_pw : (e.adv n).line.pw = e.line.pw := rfl
@[simp] theorem Env.wait_core (k d : Nat) : (e.wait n k d).core = e.core := Env.withLine_core e _
@[simp] theorem Env.wait_key (k d : Nat) : (e.wait n k d).key = e.key := Env.withLine_key e _
@[simp] theorem Env.note_core (s : State) : (e.note s).core = e.core := by simp only [Env.note]
@[simp] theorem Env.note_key (s : State) : (e.note s).key = e.key := by simp only [Env.note]
@[simp] theorem Env.trace_line (k p : Nat) : (e.trace n k p).line = e.line := rfl
@[simp] theorem Env.trace_key (k p : Nat) : (e.trace n k p).key = e.key := rfl
@[simp] theorem Env.trace_site (k p : Nat) : (e.trace n k p).site = e.site := rfl

/-- A v register reads as it was written. -/
theorem Env.reg_setReg_v (h : r.val < 8) (hl : e.line.v.length = 8) : (e.setReg n r v).reg r = v := by
  simp only [Env.setReg, Env.reg, h, if_true, List.getD_eq_getElem?_getD, List.getElem?_set_self (show r.val < e.line.v.length by omega),
    Option.getD_some]

/-- A write of a v register leaves every other register alone. -/
theorem Env.reg_setReg_ne_v {q : Reg} (h : r.val < 8) (hq : q ≠ r) : (e.setReg n r v).reg q = e.reg q := by
  have hne : r.val ≠ q.val := fun x => hq (Fin.ext x.symm)
  simp only [Env.setReg, Env.reg, h, if_true, Env.kslot, List.getD_eq_getElem?_getD, List.getElem?_set_ne hne]

end

/-- What a write of an s register does to its bank: the value is there, unless a later rank has written in the same cycle
(R72). -/
theorem KSlot.setS_cases (k : KSlot) (cycle rank i : Nat) (v : Word) :
    (k.setS cycle rank i v = k ∧ (k.stamps.getD i (0, 0)).1 = cycle + 1 ∧ rank < (k.stamps.getD i (0, 0)).2) ∨
    k.setS cycle rank i v = { k with s := k.s.set i v, stamps := k.stamps.set i (cycle + 1, rank) } := by
  simp only [KSlot.setS]
  split_ifs with h
  · exact .inl ⟨rfl, h⟩
  · exact .inr rfl

/-! ## The forms of the instructions (R105–R108) -/

section
variable {s : State} {e : Env} {g : Guard} {d : Reg}

theorem computeRd_runs (f : Env → Word) (h : s.env? = some e) (hg : e.line.guard g = true) :
    computeRd g s d f = .next (s.put (e.commit s.cycle 4 d (f e))) := guarded_runs _ h hg
theorem computeRdF_runs (f : Env → Word × Flags) (h : s.env? = some e) (hg : e.line.guard g = true) :
    computeRdF g s d f = .next (s.put
      { e.commit s.cycle 4 d (f e).1 with line := (e.commit s.cycle 4 d (f e).1).line.orFlags (f e).2 }) := guarded_runs _ h hg
theorem computeRd16_runs (f : Env → Word) (h : s.env? = some e) :
    computeRd16 s d f = .next (s.put (e.commit s.cycle 2 d (f e))) := withEnv_some _ h
theorem computeRdF16_runs (f : Env → Word × Flags) (h : s.env? = some e) :
    computeRdF16 s d f = .next (s.put
      { e.commit s.cycle 2 d (f e).1 with line := (e.commit s.cycle 2 d (f e).1).line.orFlags (f e).2 }) := withEnv_some _ h
theorem computeRdU_runs (f : Env → Word) (h : s.env? = some e) :
    computeRdU s d f = .next (s.put (e.commit s.cycle 4 d (f e))) := withEnv_some _ h
theorem longOp_runs (f : Env → Word × Flags) (h : s.env? = some e) (hg : e.line.guard g = true) :
    longOp g s d f = .next ((s.put (((e.note s).adv 4).wait s.gtime 9 1)).send (.core e.site) (.line e.key) vnReply
      (.longDone (s.who e) d (f e).1 (f e).2)) := guarded_runs _ h hg
theorem computePred_runs (f : Env → Line) (h : s.env? = some e) (hg : e.line.guard g = true) :
    computePred g s f = .next (s.put ((({ e with line := f e } : Env).trace s.gtime 2 ((f e).pw.toNat % 2 ^ 16)).adv 4)) :=
  guarded_runs _ h hg

end

/-- No flag changes nothing. -/
@[simp] theorem Line.orFlags_none (l : Line) : l.orFlags Flags.none = l := by
  have : Flags.none.bits = 0#32 := by decide
  simp [Line.orFlags, this]

/-! ## Predicates (R26) -/

@[simp] theorem Line.pred_zero (l : Line) : l.pred 0 = true := rfl
@[simp] theorem Line.setPred_zero (l : Line) (b : Bool) : l.setPred 0 b = l := rfl
/-- A predicate reads as it was written. -/
theorem Line.pred_setPred_eq (l : Line) {p : Nat} (b : Bool) (h0 : p ≠ 0) (hp : p < 32) : (l.setPred p b).pred p = b := by
  cases b <;> simp [Line.pred, Line.setPred, h0, hp]
/-- A write leaves every other predicate alone. -/
theorem Line.pred_setPred_ne (l : Line) {p q : Nat} (b : Bool) (h : q ≠ p) : (l.setPred p b).pred q = l.pred q := by
  unfold Line.pred Line.setPred
  have hs : ∀ n : Nat, (1#32 <<< p).getLsbD n = (decide (n < 32) && decide (n = p)) := fun n => by
    rcases Nat.lt_trichotomy n p with hn | rfl | hn
    · simp [BitVec.getLsbD_shiftLeft, hn, hn.ne]
    · simp [BitVec.getLsbD_shiftLeft]
    · have : n - p ≠ 0 := by omega
      simp [BitVec.getLsbD_shiftLeft, hn.ne', this, BitVec.getLsbD_one]
  have hqp : decide (q = p) = false := by simpa using h
  by_cases hq : q = 0
  · simp [hq]
  · by_cases hp : p = 0
    · simp [hp]
    · cases b
      · simp only [hq, hp, if_false, Bool.false_eq_true, BitVec.getLsbD_and, BitVec.getLsbD_not, hs, hqp, Bool.and_false, Bool.not_false,
          Bool.and_true]
        by_cases h32 : q < 32
        · simp [h32]
        · simp [BitVec.getLsbD_of_ge l.pw q (by omega)]
      · simp [hq, hp, hs, hqp]

/-! ## Memory left alone by the operations on lines, cores and messages -/

section
variable (s : State)

@[simp] theorem State.modLine_mem (k : Nat) (f : Line → Line) : (s.modLine k f).mem = s.mem := by
  unfold State.modLine; split <;> rfl
@[simp] theorem State.makeReady_mem (k : Nat) : (s.makeReady k).mem = s.mem := by simp [State.makeReady]
@[simp] theorem State.decWait_mem (k : Nat) : (s.decWait k).mem = s.mem := by
  unfold State.decWait; split
  · rfl
  · split_ifs <;> simp
@[simp] theorem State.decPwc_mem (k : Nat) : (s.decPwc k).mem = s.mem := by simp [State.decPwc]
@[simp] theorem State.decPdc_mem (k : Nat) : (s.decPdc k).mem = s.mem := by simp [State.decPdc]
@[simp] theorem State.noteClass_mem (l : Line) (c : Nat) : (s.noteClass l c).mem = s.mem := by
  unfold State.noteClass; split <;> rfl
@[simp] theorem State.countOut_mem (l : Line) (b : Bool) : (s.countOut l b).mem = s.mem := by
  unfold State.countOut; split <;> rfl
@[simp] theorem State.unreserve_mem (k : Nat) : (s.unreserve k).mem = s.mem := rfl
@[simp] theorem State.logEvent_mem (a : LogSrc) (b c d : Nat) : (s.logEvent a b c d).mem = s.mem := by simp only [State.logEvent]
@[simp] theorem State.pushFault_mem (site : Nat) (l : Option Line) (k : Option Nat) (p d : Nat) (c f : Word) (r : Option (List Byte)) :
    (s.pushFault site l k p d c f r).mem = s.mem := rfl
@[simp] theorem State.loseLine_mem (k : Nat) : (s.loseLine k).mem = s.mem := by
  unfold State.loseLine
  split
  · rfl
  · split_ifs
    · simp only [State.setLine_mem]; split <;> simp
    · rfl
@[simp] theorem State.abandon_mem (k : Nat) : (s.abandon k).mem = s.mem := by unfold State.abandon; split <;> simp
@[simp] theorem State.doubleFault_mem (k : Nat) (l : Line) (site : Nat) (b : Bool) (enc : BitVec 32) (n : Nat) (f : Flt) :
    (s.doubleFault k l site b enc n f).mem = s.mem := by
  unfold State.doubleFault
  cases b <;> simp
@[simp] theorem State.faultLine_mem (k site : Nat) (m r a : Bool) (enc : BitVec 32) (n : Nat) (pc : Option Word) (f : Flt)
    (x : Option (List Byte)) : (s.faultLine k site m r a enc n pc f x).mem = s.mem := by
  simp only [State.faultLine]
  split
  · rfl
  · split
    · rfl
    · split
      · simp
      · simp only [State.pushFault_mem]
        repeat' split
        all_goals simp only [State.setLine_mem, State.abandon_mem, State.noteClass_mem]
@[simp] theorem State.raise_mem (e : Env) (f : Flt) : (s.raise e f).mem = s.mem := by simp [State.raise]
@[simp] theorem State.faultAt_mem (w : Who) (f : Flt) (b : Bool) : (s.faultAt w f b).mem = s.mem := by simp [State.faultAt]
@[simp] theorem State.tracePred_mem (k : Nat) : (s.tracePred k).mem = s.mem := by
  unfold State.tracePred; repeat' split
  all_goals rfl
@[simp] theorem State.answerReg_mem (w : Who) (m : Bool) (r : Reg) (v : Word) : (s.answerReg w m r v).mem = s.mem := by
  unfold State.answerReg; split_ifs <;> simp
theorem State.answerRegs_mem (w : Who) (m : Bool) (l : List (Reg × Word)) :
    (l.foldl (fun s x => s.answerReg w m x.1 x.2) s).mem = s.mem := by
  induction l generalizing s with
  | nil => rfl
  | cons x r ih => rw [List.foldl_cons, ih, State.answerReg_mem]
@[simp] theorem State.answer_mem (w : Who) (a : Answer) (m : Bool) : (s.answer w a m).mem = s.mem := by
  unfold State.answer
  split <;> simp only [State.tracePred_mem, State.modLine_mem, State.answerRegs_mem]

/-! ## Accesses on their way -/

@[simp] theorem State.mirrorWrite_mem (h : Nat) (w : Who) (t : Nat) (a : Option Answer) (b : Bool) :
    (s.mirrorWrite h w t a b).mem = s.mem := by unfold State.mirrorWrite; simp only; split_ifs <;> rfl
@[simp] theorem State.ackWrite_mem (h : Nat) (w : Who) (t g : Nat) (d : Bool) (a : Option Answer) (o r : Bool) :
    (s.ackWrite h w t g d a o r).mem = s.mem := by unfold State.ackWrite; simp only; split_ifs <;> simp
@[simp] theorem State.noteMirror_mem (h g : Nat) (d : Bool) : (s.noteMirror h g d).mem = s.mem := by
  unfold State.noteMirror; simp only; split_ifs <;> rfl
@[simp] theorem State.dropVisitors_mem (g : Nat) : (s.dropVisitors g).mem = s.mem := rfl
@[simp] theorem State.gmOp_mem (w : Who) (b : Bool) : (s.gmOp w b).2.mem = s.mem := rfl
@[simp] theorem State.sendReq_mem (w : Who) (va : Nat) (k : ReqKind) (p : Option Nat) : (s.sendReq w va k p).mem = s.mem := by
  unfold State.sendReq
  cases p with
  | some t => simp
  | none => cases k.drained <;> cases k.counts <;> simp
@[simp] theorem State.hold_mem (w : Who) (va : Nat) (k : ReqKind) : (s.hold w va k).mem = s.mem := by simp [State.hold]
@[simp] theorem State.leave_mem (e : Env) (k : Nat) : (s.leave e k).mem = s.mem := rfl
@[simp] theorem State.issueWait_mem (e : Env) (k : Nat) (c : List WaitFor) (a : After) : (s.issueWait e k c a).mem = s.mem := by
  simp [State.issueWait]
@[simp] theorem State.issueReq_mem (e : Env) (va : Nat) (r : ReqKind) (k : Nat) : (s.issueReq e va r k).mem = s.mem := by
  simp [State.issueReq]

end

/-! ## The canonical form kept by the accesses that write (R4, R70) -/

theorem State.foldl_wf {β : Type} (f : State → β → State)
    (hf : ∀ s b, Memory.wf s.mem = true → Memory.wf (f s b).mem = true) (l : List β) {s : State} (h : Memory.wf s.mem = true) :
    Memory.wf (l.foldl f s).mem = true := by
  induction l generalizing s with
  | nil => exact h
  | cons b r ih => exact ih (hf s b h)

section
variable {s : State}

/-- A fold of operations that leave memory alone leaves it alone. -/
theorem State.foldl_mem {β : Type} (f : State → β → State) (hf : ∀ s b, (f s b).mem = s.mem) (l : List β) (s : State) :
    (l.foldl f s).mem = s.mem := by
  induction l generalizing s with
  | nil => rfl
  | cons b r ih => rw [List.foldl_cons, ih, hf]

@[simp] theorem State.invalidate_mem (s : State) (h v g : Nat) (d : List Nat) (n : Nat) : (s.invalidate h v g d n).mem = s.mem :=
  State.foldl_mem _ (fun s b => by split_ifs <;> rfl) d s
@[simp] theorem State.sliceRoom_mem (s : State) (c g : Nat) : (s.sliceRoom c g).mem = s.mem := by
  unfold State.sliceRoom; repeat' split
  all_goals rfl
@[simp] theorem State.noteSlice_mem (s : State) (h g : Nat) (o : List Byte) (ws : List Acc) (d : Bool) :
    (s.noteSlice h g o ws d).mem = s.mem := by unfold State.noteSlice; split_ifs <;> simp
@[simp] theorem State.answerFault_mem (s : State) (n : Node) (w : Who) (f : Flt) (a c : Bool) (t : Nat) (r : Option (List Byte)) (d : Bool) :
    (s.answerFault n w f a c t r d).mem = s.mem := by unfold State.answerFault; split_ifs <;> rfl
@[simp] theorem State.loseWrite_mem (s : State) (n : Node) (x : Writer) (c d : Bool) (k : Nat) : (s.loseWrite n x c d k).mem = s.mem := by
  unfold State.loseWrite; split_ifs
  · rfl
  all_goals exact State.answerFault_mem ..
@[simp] theorem State.commitStt_mem (s : State) (w : Who) (k : ReqKind) : (s.commitStt w k).1.mem = s.mem := by
  unfold State.commitStt; split <;> simp

@[simp] theorem State.failHeld_mem (s : State) (sl : Nat) (x : HeldReq) : (s.failHeld sl x).mem = s.mem := by
  unfold State.failHeld; simp only; split <;> simp
@[simp] theorem State.closePop_mem (s : State) (w : Who) (va ga : Nat) : (s.closePop w va ga).mem = s.mem := by
  unfold State.closePop; repeat' split
  all_goals simp
@[simp] theorem State.closeHeld_mem (s : State) (sl : Nat) (w : Who) (va ga : Nat) : (s.closeHeld sl w va ga).mem = s.mem := by
  unfold State.closeHeld
  simp only
  split_ifs
  · rw [State.closePop_mem, State.foldl_mem _ (fun s b => State.failHeld_mem ..)]
  · rfl
@[simp] theorem State.loseStash_mem (s : State) (site : Nat) (x : StashLine) : (s.loseStash site x).mem = s.mem := by
  rw [State.loseStash, State.foldl_mem _ (fun s b => State.loseWrite_mem ..), State.logEvent_mem]

/-- What a stopped core has done to an owned line is undone, which writes the line's saved bytes alone. -/
theorem State.loseOwned_wf (h : Memory.wf s.mem = true) (site : Nat) (o : Owned) : Memory.wf (s.loseOwned site o).mem = true := by
  unfold State.loseOwned
  simp only
  rw [State.foldl_mem _ (fun s b => State.loseWrite_mem ..), State.logEvent_mem]
  exact State.wr_wf h _ _

theorem State.giveUp_wf (h : Memory.wf s.mem = true) (site : Nat) (o : Owned) : Memory.wf (s.giveUp site o).mem = true := by
  unfold State.giveUp
  simp only
  split_ifs
  · exact h
  · simpa using h
  · exact State.loseOwned_wf (s := s.modCore site _) h _ _

theorem State.recallOwned_wf (h : Memory.wf s.mem = true) (g : Nat) (b : Option Nat) : Memory.wf (s.recallOwned g b).mem = true := by
  unfold State.recallOwned
  refine State.foldl_wf _ (fun s e hs => ?_) _ h
  split_ifs
  · exact hs
  · exact State.foldl_wf _ (fun s o hs => State.giveUp_wf hs _ _) _ hs

/-- A stash line written back keeps the form: its bytes are the only ones that change. -/
theorem State.writeBack_wf (h : Memory.wf s.mem = true) (site : Nat) (x : StashLine) : Memory.wf (s.writeBack site x).mem = true := by
  unfold State.writeBack
  simp only
  split
  · rwa [State.foldl_mem _ (fun s b => State.loseWrite_mem ..)]
  · rw [State.closeHeld_mem, State.noteMirror_mem, State.foldl_mem _ (fun s b => State.ackWrite_mem ..), State.noteSlice_mem, State.invalidate_mem]
    exact State.wr_wf h _ _

theorem State.recallStash_wf (h : Memory.wf s.mem = true) (site : Nat) (x : StashLine) (k : Bool) :
    Memory.wf (s.recallStash site x k).mem = true := by
  unfold State.recallStash
  simp only [State.modCore_mem]
  split_ifs
  · exact h
  · exact State.writeBack_wf h _ _
  · rwa [State.loseStash_mem]

theorem State.recallStashes_wf (h : Memory.wf s.mem = true) (g : Nat) (b : Option Nat) (w : Bool) :
    Memory.wf (s.recallStashes g b w).mem = true := by
  unfold State.recallStashes
  refine State.foldl_wf _ (fun s e hs => ?_) _ h
  split_ifs
  · exact hs
  · refine State.foldl_wf _ (fun s x hs => ?_) _ hs
    split_ifs
    · exact State.recallStash_wf hs _ _ _
    · exact hs

theorem State.stashStore_wf (h : Memory.wf s.mem = true) (w : Who) (x : StashLine) (va : Nat) (k : ReqKind) (d : List Byte) (e : Bool)
    (p : Option Nat) : Memory.wf (s.stashStore w x va k d e p).mem = true := by
  have := State.recallStashes_wf h x.ga (some w.site) true
  cases p <;> simpa [State.stashStore] using this

theorem State.stashHit_wf (h : Memory.wf s.mem = true) (w : Who) (x : StashLine) (va : Nat) (k : ReqKind) (p : Option Nat) :
    Memory.wf (s.stashHit w x va k p).mem = true := by
  unfold State.stashHit
  have h : Memory.wf (s.commitStt w k).1.mem = true := by rwa [State.commitStt_mem]
  simp only
  split
  · exact h
  · exact h
  · split_ifs
    · exact State.stashStore_wf h ..
    · exact State.stashStore_wf h ..
  · exact State.stashStore_wf h ..
  · exact h

theorem State.localAmo_wf (h : Memory.wf s.mem = true) (w : Who) (o : Owned) (va : Nat) (op : AmoOp) (y : AmoType) (a c : Nat)
    (d : Option Reg) (q : Bool) : Memory.wf (s.localAmo w o va op y a c d q).mem = true := by
  unfold State.localAmo
  simp only
  split <;> split_ifs <;> first
    | simpa using State.wr_wf h _ _
    | simpa using h

theorem State.access_wf (h : Memory.wf s.mem = true) (w : Who) (va : Nat) (k : ReqKind) (p : Option Nat) :
    Memory.wf (s.access w va k p).mem = true := by
  unfold State.access
  simp only
  split
  · split
    · refine State.localAmo_wf ?_ ..
      split
      · simpa using h
      · simpa using h
    · simpa using h
  · split_ifs
    · split
      · exact State.stashHit_wf h ..
      · simpa using h
    · simpa using h

theorem State.accessOrHold_wf (h : Memory.wf s.mem = true) (w : Who) (va : Nat) (k : ReqKind) :
    Memory.wf (s.accessOrHold w va k).mem = true := by
  unfold State.accessOrHold
  split_ifs
  · simpa using h
  · exact State.access_wf h ..

theorem State.issueAccess_wf (h : Memory.wf s.mem = true) (e : Env) (va : Nat) (k : ReqKind) (c : List WaitFor) :
    Memory.wf (s.issueAccess e va k c).mem = true := by
  unfold State.issueAccess
  simp only
  split_ifs <;> first
    | exact h
    | exact State.accessOrHold_wf (by simpa using h) ..
    | simpa using h

theorem State.checkedAccess_wf (h : Memory.wf s.mem = true) (e : Env) (k b : Nat) (ea : Word) (r : ReqKind) (c : List WaitFor) :
    Memory.wf (s.checkedAccess e k b ea r c).mem = true := by
  unfold State.checkedAccess
  split
  · simpa using h
  · exact State.issueAccess_wf h ..

end

/-! ## What the operations of an access say, where no special case applies (R135–R139) -/

section
variable {s : State} {e : Env}

/-- An address that breaks no rule of R135 gives no fault; the access is issued with its address in the trace. -/
theorem State.checkedAccess_ok {k b : Nat} {ea : Word} (r : ReqKind) (c : List WaitFor) (h : eaFault k b ea = none) :
    s.checkedAccess e k b ea r c = s.issueAccess (e.trace s.gtime 3 ea.toNat) ea.toNat r c := by
  simp [State.checkedAccess, h]

/-- One that breaks a rule faults, and nothing else happens. -/
theorem State.checkedAccess_fault {k b : Nat} {ea : Word} {f : Flt} (r : ReqKind) (c : List WaitFor) (h : eaFault k b ea = some f) :
    s.checkedAccess e k b ea r c = s.raise e f := by
  simp [State.checkedAccess, h]

/-- A context that holds no unchecked data sends its access at once, or waits for its conditions. -/
theorem State.issueAccess_plain {va : Nat} {k : ReqKind} {c : List WaitFor} (hm : e.meetsHeld k va = false)
    (hf : s.holdFull e.site e.key va k = false) :
    s.issueAccess e va k c =
      if c.isEmpty then (s.leave (e.at va k) 1).accessOrHold (s.who e) va k else s.issueWait (e.at va k) 1 c (.send va k) := by
  simp only [State.issueAccess, hm, hf, Bool.false_eq_true, if_false]

/-- Who issues an access does not depend on the address that the line remembers. -/
@[simp] theorem State.who_at (s : State) (e : Env) (va : Nat) (k : ReqKind) : s.who (e.at va k) = s.who e := rfl

end

end Sys2Proof.Machine
end

