-- ==== Sys2Proof/Laws/Keeps.lean ====
section
/-! SUPPORT. The canonical form of memory kept by the shared operations: one lemma for each, conditional rewrites that compose. -/

namespace Sys2Proof.Machine

/-- The canonical form, as a predicate that rewriting leaves whole. -/
def Memory.Ok (m : Mem) : Prop := Memory.wf m = true

/-- The invariant of a state is that of its memory. -/
theorem State.memOk_iff (s : State) : s.MemOk ↔ Memory.Ok s.mem := Iff.rfl

@[simp] theorem Memory.ok_nil : Memory.Ok [] := rfl
@[simp] theorem Memory.ok_memSet {m : Mem} (h : Memory.Ok m) (a : Nat) (b : Byte) : Memory.Ok (memSet m a b) :=
  Memory.wf_memSet h a b
@[simp] theorem Memory.ok_memWrite {m : Mem} (h : Memory.Ok m) (a : Nat) (b : List Byte) : Memory.Ok (memWrite m a b) :=
  Memory.wf_memWrite h a b
@[simp] theorem Memory.ok_filter {m : Mem} (h : Memory.Ok m) (p : Host.Cell → Bool) : Memory.Ok (m.filter p) :=
  Memory.wf_filter h p
/-- A fold of operations that each keep the form keeps it. -/
@[simp] theorem State.foldl_keeps {β : Type} (f : State → β → State)
    (hf : ∀ s b, Memory.Ok s.mem → Memory.Ok (f s b).mem) (l : List β) {s : State} (h : Memory.Ok s.mem) :
    Memory.Ok (l.foldl f s).mem := State.foldl_wf f hf l h
/-- Both branches keep it. -/
@[simp] theorem ok_ite {c : Prop} [Decidable c] {a b : State} (ha : Memory.Ok a.mem) (hb : Memory.Ok b.mem) :
    Memory.Ok (if c then a else b).mem := by split <;> assumption

/-- The cells of a stack that become free values (R396). -/
@[simp] theorem Memory.ok_freeCells (p : Nat → Bool) (n : Nat) {m : Mem} (cells : Mem) (h : Memory.Ok m) :
    Memory.Ok (freeCells p n m cells) := by
  induction cells generalizing n m with
  | nil => exact h
  | cons c r ih => rw [freeCells]; split; exacts [ih _ (Memory.wf_memSet h _ _), ih _ h]

@[simp] theorem State.wrByte_keeps (s : State) (ga : Nat) (b : Byte) (h : Memory.Ok s.mem) :
    Memory.Ok (State.wrByte s ga b).mem := by
  unfold State.wrByte
  repeat' split
  all_goals simp +contextual [*]

@[simp] theorem State.wr_keeps (s : State) (ga : Nat) (bs : List Byte) (h : Memory.Ok s.mem) :
    Memory.Ok (State.wr s ga bs).mem := by
  exact State.wr_wf h ga bs

@[simp] theorem State.noteClass_keeps (s : State) (l : Line) (cls : Nat) (h : Memory.Ok s.mem) :
    Memory.Ok (State.noteClass s l cls).mem := by
  unfold State.noteClass
  repeat' split
  all_goals simp +contextual [*]

@[simp] theorem State.pushFault_keeps (s : State) (site : Nat) (l : Option Line) (key : Option Nat) (part desc : Nat) (cause faddr : Word) (record : Option (List Byte)) (h : Memory.Ok s.mem) :
    Memory.Ok (State.pushFault s site l key part desc cause faddr record).mem := by
  simp +contextual [State.pushFault, h]

@[simp] theorem State.logEvent_keeps (s : State) (src : LogSrc) (cls sub detail : Nat) (h : Memory.Ok s.mem) :
    Memory.Ok (State.logEvent s src cls sub detail).mem := by
  rw [State.logEvent_mem]; exact h

@[simp] theorem State.countOut_keeps (s : State) (l : Line) (lost : Bool) (h : Memory.Ok s.mem) :
    Memory.Ok (State.countOut s l lost).mem := by
  unfold State.countOut
  repeat' split
  all_goals simp +contextual [*]

@[simp] theorem State.unreserve_keeps (s : State) (key : Nat) (h : Memory.Ok s.mem) :
    Memory.Ok (State.unreserve s key).mem := by
  simp +contextual [State.unreserve, h]

@[simp] theorem State.loseLine_keeps (s : State) (key : Nat) (h : Memory.Ok s.mem) :
    Memory.Ok (State.loseLine s key).mem := by
  unfold State.loseLine
  repeat' split
  all_goals simp +contextual [*]

@[simp] theorem State.doubleFault_keeps (s : State) (key : Nat) (l : Line) (site : Nat) (running : Bool) (enc : BitVec 32) (len : Nat) (f : Flt) (h : Memory.Ok s.mem) :
    Memory.Ok (State.doubleFault s key l site running enc len f).mem := by
  simp +contextual [State.doubleFault, h]

@[simp] theorem State.faultLine_keeps (s : State) (key site : Nat) (mine running async : Bool) (enc : BitVec 32) (len : Nat) (pc : Option Word) (f : Flt) (record : Option (List Byte)) (h : Memory.Ok s.mem) :
    Memory.Ok (State.faultLine s key site mine running async enc len pc f record).mem := by
  rw [State.faultLine_mem]; exact h

@[simp] theorem State.raise_keeps (s : State) (e : Env) (f : Flt) (h : Memory.Ok s.mem) :
    Memory.Ok (State.raise s e f).mem := by
  simp +contextual [State.raise, h]

@[simp] theorem State.makeReady_keeps (s : State) (key : Nat) (h : Memory.Ok s.mem) :
    Memory.Ok (State.makeReady s key).mem := by
  simp +contextual [State.makeReady, h]

@[simp] theorem State.decWait_keeps (s : State) (key : Nat) (h : Memory.Ok s.mem) :
    Memory.Ok (State.decWait s key).mem := by
  unfold State.decWait
  repeat' split
  all_goals simp +contextual [*]

@[simp] theorem State.decPwc_keeps (s : State) (key : Nat) (h : Memory.Ok s.mem) :
    Memory.Ok (State.decPwc s key).mem := by
  simp +contextual [State.decPwc, h]

@[simp] theorem State.decPdc_keeps (s : State) (key : Nat) (h : Memory.Ok s.mem) :
    Memory.Ok (State.decPdc s key).mem := by
  simp +contextual [State.decPdc, h]

@[simp] theorem State.answerReg_keeps (s : State) (w : Who) (mem : Bool) (r : Reg) (v : Word) (h : Memory.Ok s.mem) :
    Memory.Ok (State.answerReg s w mem r v).mem := by
  unfold State.answerReg
  repeat' split
  all_goals simp +contextual [*]

@[simp] theorem State.answer_keeps (s : State) (w : Who) (a : Answer) (mem : Bool) (h : Memory.Ok s.mem) :
    Memory.Ok (State.answer s w a mem).mem := by
  rw [State.answer_mem]; exact h

@[simp] theorem State.tracePred_keeps (s : State) (key : Nat) (h : Memory.Ok s.mem) : Memory.Ok (State.tracePred s key).mem := by
  rw [State.tracePred_mem]; exact h

@[simp] theorem State.faultAt_keeps (s : State) (w : Who) (f : Flt) (running : Bool) (h : Memory.Ok s.mem) :
    Memory.Ok (State.faultAt s w f running).mem := by
  rw [State.faultAt_mem]; exact h

@[simp] theorem State.tfill_keeps (s : State) (part asid va : Nat) (l : Leaf) (a : Bool) (h : Memory.Ok s.mem) :
    Memory.Ok (State.tfill s part asid va l a).mem := by
  simp +contextual [State.tfill, h]

@[simp] theorem State.mirrorWrite_keeps (s : State) (home : Nat) (w : Who) (tok : Nat) (ends : Option Answer) (counted : Bool) (h : Memory.Ok s.mem) :
    Memory.Ok (State.mirrorWrite s home w tok ends counted).mem := by
  unfold State.mirrorWrite
  simp only []
  repeat' split
  all_goals simp +contextual [*]

@[simp] theorem State.ackWrite_keeps (s : State) (home : Nat) (w : Who) (tok grp : Nat) (dur : Bool) (ends : Option Answer) (scOp recRelease : Bool) (h : Memory.Ok s.mem) :
    Memory.Ok (State.ackWrite s home w tok grp dur ends scOp recRelease).mem := by
  unfold State.ackWrite
  repeat' split
  all_goals simp +contextual [*]

@[simp] theorem State.invalidate_keeps (s : State) (home via g : Nat) (dies : List Nat) (grp : Nat) (h : Memory.Ok s.mem) :
    Memory.Ok (State.invalidate s home via g dies grp).mem := by
  rw [State.invalidate_mem]; exact h

@[simp] theorem State.sliceRoom_keeps (s : State) (cl g : Nat) (h : Memory.Ok s.mem) : Memory.Ok (State.sliceRoom s cl g).mem := by
  rw [State.sliceRoom_mem]; exact h

@[simp] theorem State.noteSlice_keeps (s : State) (home g : Nat) (old : List Byte) (ws : List Acc) (dur : Bool) (h : Memory.Ok s.mem) :
    Memory.Ok (State.noteSlice s home g old ws dur).mem := by
  rw [State.noteSlice_mem]; exact h

@[simp] theorem State.loseWrite_keeps (s : State) (src : Node) (x : Writer) (counted dur : Bool) (sub : Nat) (h : Memory.Ok s.mem) :
    Memory.Ok (State.loseWrite s src x counted dur sub).mem := by
  rw [State.loseWrite_mem]; exact h

@[simp] theorem State.commitStt_keeps (s : State) (w : Who) (k : ReqKind) (h : Memory.Ok s.mem) :
    Memory.Ok (State.commitStt s w k).1.mem := by
  rw [State.commitStt_mem]; exact h

@[simp] theorem State.writeBack_keeps (s : State) (site : Nat) (x : StashLine) (h : Memory.Ok s.mem) :
    Memory.Ok (State.writeBack s site x).mem := State.writeBack_wf h site x

@[simp] theorem State.noteMirror_keeps (s : State) (home gline : Nat) (dur : Bool) (h : Memory.Ok s.mem) :
    Memory.Ok (State.noteMirror s home gline dur).mem := by
  unfold State.noteMirror
  simp only []
  repeat' split
  all_goals simp +contextual [*]

@[simp] theorem State.recallStash_keeps (s : State) (site : Nat) (x : StashLine) (keep : Bool) (h : Memory.Ok s.mem) :
    Memory.Ok (State.recallStash s site x keep).mem := by
  exact State.recallStash_wf h site x keep

@[simp] theorem State.recallStashes_keeps (s : State) (gline : Nat) (but : Option Nat) (write : Bool) (h : Memory.Ok s.mem) :
    Memory.Ok (State.recallStashes s gline but write).mem := by
  exact State.recallStashes_wf h gline but write

@[simp] theorem State.recallOwned_keeps (s : State) (gline : Nat) (but : Option Nat) (h : Memory.Ok s.mem) :
    Memory.Ok (State.recallOwned s gline but).mem := State.recallOwned_wf h gline but

@[simp] theorem State.giveUp_keeps (s : State) (site : Nat) (o : Owned) (h : Memory.Ok s.mem) :
    Memory.Ok (State.giveUp s site o).mem := State.giveUp_wf h site o

@[simp] theorem State.loseOwned_keeps (s : State) (site : Nat) (o : Owned) (h : Memory.Ok s.mem) :
    Memory.Ok (State.loseOwned s site o).mem := State.loseOwned_wf h site o

@[simp] theorem State.loseStash_keeps (s : State) (site : Nat) (x : StashLine) (h : Memory.Ok s.mem) :
    Memory.Ok (State.loseStash s site x).mem := by
  rw [State.loseStash_mem]; exact h

@[simp] theorem State.closeHeld_keeps (s : State) (sl : Nat) (w : Who) (va ga : Nat) (h : Memory.Ok s.mem) :
    Memory.Ok (State.closeHeld s sl w va ga).mem := by
  rw [State.closeHeld_mem]; exact h

/-- An entry of a page table is read after every dirty copy of its line has come home (R250). -/
theorem State.entryRead_keeps {s t : State} {part sl ga x : Nat} (h : Memory.Ok s.mem) (hr : s.entryRead part sl ga = .ok (t, x)) :
    Memory.Ok t.mem := by
  unfold State.entryRead at hr
  split at hr
  · cases hr
  · cases hr
    exact State.recallOwned_keeps _ _ _ (State.recallStashes_keeps _ _ _ _ h)

@[simp] theorem State.contigFill_keeps (s : State) (part asid va at_ : Nat) (h : Memory.Ok s.mem) :
    Memory.Ok (State.contigFill s part asid va at_).mem := by
  unfold State.contigFill
  refine State.foldl_keeps _ (fun s i h => ?_) _ h
  split
  · exact h
  · rename_i hr
    split_ifs
    · exact State.entryRead_keeps h hr
    · exact State.tfill_keeps _ _ _ _ _ _ (State.entryRead_keeps h hr)

@[simp] theorem State.settleOps_keeps (s : State) (h : Memory.Ok s.mem) : Memory.Ok (State.settleOps s).mem := h

@[simp] theorem State.dropVisitors_keeps (s : State) (gline : Nat) (h : Memory.Ok s.mem) :
    Memory.Ok (State.dropVisitors s gline).mem := by
  simp +contextual [State.dropVisitors, h]

@[simp] theorem State.storeLine_keeps (s : State) (home via ga : Nat) (data : List Byte) (dies : List Nat) (h : Memory.Ok s.mem) :
    Memory.Ok (State.storeLine s home via ga data dies).1.mem := by
  unfold State.storeLine
  exact State.invalidate_keeps _ _ _ _ _ _ (State.wr_keeps _ _ _ (State.recallOwned_keeps _ _ _ (State.recallStashes_keeps _ _ _ _ h)))

@[simp] theorem State.setAdesc_keeps (s : State) (part pa : Nat) (d : ADesc) (mir : Bool) (h : Memory.Ok s.mem) :
    Memory.Ok (State.setAdesc s part pa d mir).mem := by
  unfold State.setAdesc
  simp only []
  split_ifs <;> simp [h]

@[simp] theorem State.stashStore_keeps (s : State) (w : Who) (x : StashLine) (va : Nat) (k : ReqKind) (data : List Byte) (ends : Bool) (pre : Option Nat) (h : Memory.Ok s.mem) :
    Memory.Ok (State.stashStore s w x va k data ends pre).mem := by
  exact State.stashStore_wf h w x va k data ends pre

@[simp] theorem State.stashHit_keeps (s : State) (w : Who) (x : StashLine) (va : Nat) (k : ReqKind) (pre : Option Nat) (h : Memory.Ok s.mem) :
    Memory.Ok (State.stashHit s w x va k pre).mem := by
  exact State.stashHit_wf h w x va k pre

@[simp] theorem State.localAmo_keeps (s : State) (w : Who) (o : Owned) (va : Nat) (op : AmoOp) (y : AmoType) (src cmp : Nat) (dst : Option Reg) (acq : Bool) (h : Memory.Ok s.mem) :
    Memory.Ok (State.localAmo s w o va op y src cmp dst acq).mem := by
  exact State.localAmo_wf h w o va op y src cmp dst acq

@[simp] theorem State.sendReq_keeps (s : State) (w : Who) (va : Nat) (k : ReqKind) (pre : Option Nat) (h : Memory.Ok s.mem) :
    Memory.Ok (State.sendReq s w va k pre).mem := by
  rw [State.sendReq_mem]; exact h

@[simp] theorem State.access_keeps (s : State) (w : Who) (va : Nat) (k : ReqKind) (pre : Option Nat) (h : Memory.Ok s.mem) :
    Memory.Ok (State.access s w va k pre).mem := by
  exact State.access_wf h w va k pre

@[simp] theorem State.hold_keeps (s : State) (w : Who) (va : Nat) (k : ReqKind) (h : Memory.Ok s.mem) :
    Memory.Ok (State.hold s w va k).mem := by
  simp +contextual [State.hold, h]

@[simp] theorem State.accessOrHold_keeps (s : State) (w : Who) (va : Nat) (k : ReqKind) (h : Memory.Ok s.mem) :
    Memory.Ok (State.accessOrHold s w va k).mem := by
  simp +contextual [State.accessOrHold, h]

@[simp] theorem State.leave_keeps (s : State) (e : Env) (kind : Nat) (h : Memory.Ok s.mem) :
    Memory.Ok (State.leave s e kind).mem := by
  simp +contextual [State.leave, h]

@[simp] theorem State.issueWait_keeps (s : State) (e : Env) (kind : Nat) (conds : List WaitFor) (act : After) (h : Memory.Ok s.mem) :
    Memory.Ok (State.issueWait s e kind conds act).mem := by
  simp +contextual [State.issueWait, h]

@[simp] theorem State.issueReq_keeps (s : State) (e : Env) (va : Nat) (k : ReqKind) (kind : Nat) (h : Memory.Ok s.mem) :
    Memory.Ok (State.issueReq s e va k kind).mem := by
  simp +contextual [State.issueReq, h]

@[simp] theorem State.issueAccess_keeps (s : State) (e : Env) (va : Nat) (k : ReqKind) (conds : List WaitFor) (h : Memory.Ok s.mem) :
    Memory.Ok (State.issueAccess s e va k conds).mem := by
  exact State.issueAccess_wf h e va k conds

@[simp] theorem State.checkedAccess_keeps (s : State) (e : Env) (kind bytes : Nat) (ea : Word) (k : ReqKind) (conds : List WaitFor) (h : Memory.Ok s.mem) :
    Memory.Ok (State.checkedAccess s e kind bytes ea k conds).mem := by
  exact State.checkedAccess_wf h e kind bytes ea k conds

@[simp] theorem State.raiseOpen_keeps (s : State) (e : Env) (cls sub kind size : Nat) (h : Memory.Ok s.mem) :
    Memory.Ok (State.raiseOpen s e cls sub kind size).mem := by
  simp +contextual [State.raiseOpen, h]

@[simp] theorem State.awaitSwap_keeps (s : State) (e : Env) (t : Nat) (h : Memory.Ok s.mem) :
    Memory.Ok (State.awaitSwap s e t).mem := by
  simp +contextual [State.awaitSwap, h]

@[simp] theorem State.causeBit_keeps (s : State) (p bit : Nat) (h : Memory.Ok s.mem) :
    Memory.Ok (State.causeBit s p bit).mem := by
  simp +contextual [State.causeBit, h]

@[simp] theorem State.writeCause_keeps (s : State) (p v : Nat) (h : Memory.Ok s.mem) :
    Memory.Ok (State.writeCause s p v).mem := by
  simp +contextual [State.writeCause, h]

@[simp] theorem State.setBox_keeps (s : State) (m : Nat) (b : Mailbox) (h : Memory.Ok s.mem) :
    Memory.Ok (State.setBox s m b).mem := by
  simp +contextual [State.setBox, h]

@[simp] theorem State.mailCmd_keeps (s : State) (m v : Nat) (h : Memory.Ok s.mem) :
    Memory.Ok (State.mailCmd s m v).mem := by
  unfold State.mailCmd
  simp only []
  repeat' split
  all_goals simp +contextual [*]

@[simp] theorem State.mailDone_keeps (s : State) (m : Nat) (reason : Option Nat) (h : Memory.Ok s.mem) :
    Memory.Ok (State.mailDone s m reason).mem := by
  simp +contextual [State.mailDone, h]

@[simp] theorem State.writeInjctl_keeps (s : State) (i : Nat) (v : Word) (h : Memory.Ok s.mem) :
    Memory.Ok (State.writeInjctl s i v).mem := by
  simp +contextual [State.writeInjctl, h]

@[simp] theorem State.setFlood_keeps (s : State) (die : Nat) (f : Flood) (h : Memory.Ok s.mem) :
    Memory.Ok (State.setFlood s die f).mem := by
  simp +contextual [State.setFlood, h]

@[simp] theorem State.report_keeps (s : State) (site part desc cookie : Nat) (f : Flt) (h : Memory.Ok s.mem) :
    Memory.Ok (State.report s site part desc cookie f).mem := by
  simp +contextual [State.report, h]

@[simp] theorem State.answerFault_keeps (s : State) (from_ : Node) (w : Who) (f : Flt) (async counted : Bool) (tok : Nat) (record : Option (List Byte)) (dur : Bool) (h : Memory.Ok s.mem) :
    Memory.Ok (State.answerFault s from_ w f async counted tok record dur).mem := by
  rw [State.answerFault_mem]; exact h

@[simp] theorem State.refuse_keeps (s : State) (sl : Nat) (w : Who) (va : Nat) (k : ReqKind) (tok : Nat) (f : Nat × Nat) (h : Memory.Ok s.mem) :
    Memory.Ok (State.refuse s sl w va k tok f).mem := by
  unfold State.refuse
  repeat' split
  all_goals simp +contextual [*]

@[simp] theorem State.engineError_keeps (s : State) (sl : Nat) (a : Acc) (f : Flt) (h : Memory.Ok s.mem) :
    Memory.Ok (State.engineError s sl a f).mem := by
  unfold State.engineError
  simp only []
  repeat' split
  all_goals simp +contextual [*]

@[simp] theorem State.accFault_keeps (s : State) (sl : Nat) (a : Acc) (f : Nat × Nat) (h : Memory.Ok s.mem) :
    Memory.Ok (State.accFault s sl a f).mem := by
  unfold State.accFault
  repeat' split
  all_goals simp +contextual [*]

@[simp] theorem State.acceptEnds_keeps (s : State) (w : Who) (k : ReqKind) (h : Memory.Ok s.mem) :
    Memory.Ok (State.acceptEnds s w k).mem := by
  unfold State.acceptEnds
  repeat' split
  all_goals simp +contextual [*]

@[simp] theorem State.leaveVisitor_keeps (s : State) (sl : Nat) (a : Acc) (h : Memory.Ok s.mem) :
    Memory.Ok (State.leaveVisitor s sl a).mem := by
  unfold State.leaveVisitor
  simp only []
  split_ifs <;> simp [h]

@[simp] theorem State.reply_keeps (s : State) (sl : Nat) (w : Who) (a : Answer) (sc : Bool) (h : Memory.Ok s.mem) :
    Memory.Ok (State.reply s sl w a sc).mem := by
  simp +contextual [State.reply, h]

@[simp] theorem State.loadReply_keeps (s : State) (sl : Nat) (a : Acc) (dst : LdDst) (data : List Byte) (sc : Bool) (h : Memory.Ok s.mem) :
    Memory.Ok (State.loadReply s sl a dst data sc).mem := by
  unfold State.loadReply
  repeat' split
  all_goals simp +contextual [*]

@[simp] theorem State.unbind_keeps (s : State) (site slot : Nat) (renew : Bool) (h : Memory.Ok s.mem) :
    Memory.Ok (State.unbind s site slot renew).mem := by
  unfold State.unbind
  simp only []
  repeat' split
  all_goals simp +contextual [*]

@[simp] theorem State.bindLine_keeps (s : State) (site slot key : Nat) (h : Memory.Ok s.mem) :
    Memory.Ok (State.bindLine s site slot key).mem := by
  unfold State.bindLine
  repeat' split
  all_goals simp +contextual [*]

@[simp] theorem State.acquires_keeps (s : State) (key : Nat) (h : Memory.Ok s.mem) : Memory.Ok (State.acquires s key).mem := by
  unfold State.acquires
  split <;> exact h

@[simp] theorem State.wakeCid_keeps (s : State) (part cid : Nat) (h : Memory.Ok s.mem) :
    Memory.Ok (State.wakeCid s part cid).mem := by
  unfold State.wakeCid
  repeat' split
  all_goals simp +contextual [*]

@[simp] theorem State.handleFault_keeps (s : State) (e : Env) (sub : Nat) (kind : Nat) (h : Memory.Ok s.mem) :
    Memory.Ok (State.handleFault s e sub kind).mem := by
  simp +contextual [State.handleFault, h]

@[simp] theorem State.noteReply_keeps (s : State) (key m : Nat) (h : Memory.Ok s.mem) :
    Memory.Ok (State.noteReply s key m).mem := by
  simp +contextual [State.noteReply, h]

@[simp] theorem State.netAnswer_keeps (s : State) (w : Who) (sub kind size : Nat) (h : Memory.Ok s.mem) :
    Memory.Ok (State.netAnswer s w sub kind size).mem := by
  simp +contextual [State.netAnswer, h]

@[simp] theorem State.emuAnswer_keeps (s : State) (m : Nat) (w : Who) (a : Answer) (h : Memory.Ok s.mem) :
    Memory.Ok (State.emuAnswer s m w a).mem := by
  unfold State.emuAnswer
  split
  · exact h
  · exact State.noteReply_keeps _ _ _ h

@[simp] theorem State.applyReply_keeps (s : State) (m : Nat) (w : Who) (a : Answer) (counted : Bool) (tok : Nat) (h : Memory.Ok s.mem) :
    Memory.Ok (State.applyReply s m w a counted tok).mem := by
  unfold State.applyReply
  repeat' split
  all_goals simp +contextual [*]

@[simp] theorem State.recordMcfg_keeps (s : State) (w : Who) (slot : Nat) (bs : List Byte) (h : Memory.Ok s.mem) :
    Memory.Ok (State.recordMcfg s w slot bs).mem := by
  simp +contextual [State.recordMcfg, h]

@[simp] theorem State.giveEnds_keeps (s : State) (w : Who) (tok : Nat) (a : Answer) (h : Memory.Ok s.mem) :
    Memory.Ok (State.giveEnds s w tok a).mem := by
  simp +contextual [State.giveEnds, h]

@[simp] theorem State.setResv_keeps (s : State) (g : Nat) (q : ResvQ) (h : Memory.Ok s.mem) :
    Memory.Ok (State.setResv s g q).mem := by
  simp +contextual [State.setResv, h]

@[simp] theorem State.unreserveAt_keeps (s : State) (g key : Nat) (h : Memory.Ok s.mem) :
    Memory.Ok (State.unreserveAt s g key).mem := by
  unfold State.unreserveAt
  repeat' split
  all_goals simp +contextual [*]

@[simp] theorem State.setApp_keeps (s : State) (f : Nat) (a : Append) (h : Memory.Ok s.mem) :
    Memory.Ok (State.setApp s f a).mem := by
  simp +contextual [State.setApp, h]

@[simp] theorem State.noteSealed_keeps (s : State) (f : Nat) (h : Memory.Ok s.mem) :
    Memory.Ok (State.noteSealed s f).mem := by
  simp +contextual [State.noteSealed, h]

@[simp] theorem State.dropReplica_keeps (s : State) (f die : Nat) (h : Memory.Ok s.mem) :
    Memory.Ok (State.dropReplica s f die).mem := by
  unfold State.dropReplica
  repeat' split
  all_goals simp +contextual [*]

@[simp] theorem State.dropReplicas_keeps (s : State) (f : Nat) (h : Memory.Ok s.mem) :
    Memory.Ok (State.dropReplicas s f).mem := by
  unfold State.dropReplicas
  split
  · exact h
  · simp only []
    split_ifs <;> simp [h]

@[simp] theorem State.answerSealed_keeps (s : State) (sl : Nat) (a : Acc) (h : Memory.Ok s.mem) :
    Memory.Ok (State.answerSealed s sl a).mem := by
  unfold State.answerSealed
  repeat' split
  all_goals simp +contextual [*]

@[simp] theorem State.unhold_keeps (s : State) (g : Nat) (h : Memory.Ok s.mem) :
    Memory.Ok (State.unhold s g).mem := by
  unfold State.unhold
  repeat' split
  all_goals simp +contextual [*]

@[simp] theorem State.queueFault_keeps (s : State) (sl : Nat) (a : Acc) (sub : Nat) (h : Memory.Ok s.mem) :
    Memory.Ok (State.queueFault s sl a sub).mem := by
  simp +contextual [State.queueFault, h]

@[simp] theorem State.regulatorTakes_keeps (s : State) (m : FaultMsg) (h : Memory.Ok s.mem) :
    Memory.Ok (State.regulatorTakes s m).mem := by
  simp +contextual [State.regulatorTakes, h]

@[simp] theorem State.modKernel_keeps (s : State) (p kid : Nat) (f : Kernel → Kernel) (h : Memory.Ok s.mem) :
    Memory.Ok (State.modKernel s p kid f).mem := by
  simp +contextual [State.modKernel, h]

@[simp] theorem State.modNode_keeps (s : State) (p kid site : Nat) (f : TreeNode → TreeNode) (h : Memory.Ok s.mem) :
    Memory.Ok (State.modNode s p kid site f).mem := by
  simp +contextual [State.modNode, h]

@[simp] theorem State.reserveSlot_keeps (s : State) (k : Kernel) (site : Nat) (h : Memory.Ok s.mem) :
    Memory.Ok (State.reserveSlot s k site).mem := by
  simp +contextual [State.reserveSlot, h]

@[simp] theorem State.drainKernels_keeps (s : State) (p : Nat) (h : Memory.Ok s.mem) :
    Memory.Ok (State.drainKernels s p).mem := by
  unfold State.drainKernels
  simp only []
  repeat' split
  all_goals simp +contextual [*]

@[simp] theorem State.countIn_keeps (s : State) (p kid anchor : Nat) (trg : Bool) (h : Memory.Ok s.mem) :
    Memory.Ok (State.countIn s p kid anchor trg).mem := by
  simp +contextual [State.countIn, h]

@[simp] theorem State.birthFault_keeps (s : State) (k : Kernel) (anchor site cls sub va : Nat) (h : Memory.Ok s.mem) :
    Memory.Ok (State.birthFault s k anchor site cls sub va).mem := by
  simp +contextual [State.birthFault, h]

@[simp] theorem State.deadline_keeps (s : State) (key : Nat) (l : Line) (cls kind size : Nat) (faddr : Word) (h : Memory.Ok s.mem) :
    Memory.Ok (State.deadline s key l cls kind size faddr).mem := by
  simp +contextual [State.deadline, h]

@[simp] theorem State.modRing_keeps (s : State) (p k : Nat) (f : Ring → Ring) (h : Memory.Ok s.mem) :
    Memory.Ok (State.modRing s p k f).mem := by
  simp +contextual [State.modRing, h]

@[simp] theorem State.refuseLine_keeps (s : State) (site key : Nat) (l : Line) (h : Memory.Ok s.mem) :
    Memory.Ok (State.refuseLine s site key l).mem := by
  simp +contextual [State.refuseLine, h]

@[simp] theorem State.unbindIdle_keeps (s : State) (site slot : Nat) (h : Memory.Ok s.mem) :
    Memory.Ok (State.unbindIdle s site slot).mem := by
  unfold State.unbindIdle
  repeat' split
  all_goals simp +contextual [*]

@[simp] theorem State.pushTurn_keeps (s : State) (site : Nat) (h : Memory.Ok s.mem) :
    Memory.Ok (State.pushTurn s site).mem := by
  simp +contextual [State.pushTurn, h]

@[simp] theorem State.finishExit_keeps (s : State) (key : Nat) (h : Memory.Ok s.mem) :
    Memory.Ok (State.finishExit s key).mem := by
  unfold State.finishExit
  repeat' split
  all_goals simp +contextual [*]

@[simp] theorem State.modBar_keeps (s : State) (site i : Nat) (f : Bar → Bar) (h : Memory.Ok s.mem) :
    Memory.Ok (State.modBar s site i f).mem := by
  simp +contextual [State.modBar, h]

@[simp] theorem State.notify_keeps (s : State) (site i : Nat) (h : Memory.Ok s.mem) :
    Memory.Ok (State.notify s site i).mem := by
  unfold State.notify
  simp only []
  repeat' split
  all_goals simp +contextual [*]

@[simp] theorem State.barFault_keeps (s : State) (e : Env) (sub : Nat) (h : Memory.Ok s.mem) :
    Memory.Ok (State.barFault s e sub).mem := by
  simp +contextual [State.barFault, h]

@[simp] theorem State.waitBar_keeps (s : State) (w : Who) (i b v : Nat) (aw : Bool) (h : Memory.Ok s.mem) :
    Memory.Ok (State.waitBar s w i b v aw).mem := by
  simp +contextual [State.waitBar, h]

@[simp] theorem State.arrival_keeps (s : State) (e : Env) (b : Bar) (a : Arrive) (h : Memory.Ok s.mem) :
    Memory.Ok (State.arrival s e b a).mem := by
  unfold State.arrival
  repeat' split
  all_goals simp +contextual [*]

@[simp] theorem State.strayNotif_keeps (s : State) (site : Nat) (n : Notif) (h : Memory.Ok s.mem) :
    Memory.Ok (State.strayNotif s site n).mem := by
  simp +contextual [State.strayNotif, h]

@[simp] theorem State.reportBytes_keeps (s : State) (site part issuer sub b n : Nat) (h : Memory.Ok s.mem) :
    Memory.Ok (State.reportBytes s site part issuer sub b n).mem := by
  simp +contextual [State.reportBytes, h]

@[simp] theorem State.modCopy_keeps (s : State) (cl id : Nat) (f : Copy → Copy) (h : Memory.Ok s.mem) :
    Memory.Ok (State.modCopy s cl id f).mem := by
  simp +contextual [State.modCopy, h]

@[simp] theorem State.copyFail_keeps (s : State) (cl id cls sub va : Nat) (h : Memory.Ok s.mem) :
    Memory.Ok (State.copyFail s cl id cls sub va).mem := by
  simp +contextual [State.copyFail, h]

@[simp] theorem State.tvCompute_keeps (s : State) (site : Nat) (o : TvOp) (hd ha hb : Handle) (h : Memory.Ok s.mem) :
    Memory.Ok (State.tvCompute s site o hd ha hb).mem := by
  unfold State.tvCompute
  simp only []
  repeat' split
  all_goals simp +contextual [*]

@[simp] theorem State.matSend_keeps (s : State) (e : Env) (dest : Option Nat) (tabNo : Option Nat) (k : MatKind) (h : Memory.Ok s.mem) :
    Memory.Ok (State.matSend s e dest tabNo k).mem := by
  unfold State.matSend
  simp only []
  repeat' split
  all_goals simp +contextual [*]

@[simp] theorem State.matFault_keeps (s : State) (cl : Nat) (o : MatOp) (f : Flt) (h : Memory.Ok s.mem) :
    Memory.Ok (State.matFault s cl o f).mem := by
  simp +contextual [State.matFault, h]

@[simp] theorem State.noteMismatch_keeps (s : State) (site : Nat) (x : Mismatch) (h : Memory.Ok s.mem) :
    Memory.Ok (State.noteMismatch s site x).mem := by
  simp +contextual [State.noteMismatch, h]

@[simp] theorem State.matDone_keeps (s : State) (cl : Nat) (r : MatRun) (o : Word) (h : Memory.Ok s.mem) :
    Memory.Ok (State.matDone s cl r o).mem := by
  unfold State.matDone
  repeat' split
  all_goals simp +contextual [*]

@[simp] theorem State.stopCore_keeps (s : State) (site : Nat) (h : Memory.Ok s.mem) : Memory.Ok (State.stopCore s site).mem := h

@[simp] theorem State.startContain_keeps (s : State) (site : Nat) (h : Memory.Ok s.mem) :
    Memory.Ok (State.startContain s site).mem := by
  simp +contextual [State.startContain, h]

@[simp] theorem State.loseDirty_keeps (s : State) (site : Nat) (h : Memory.Ok s.mem) :
    Memory.Ok (State.loseDirty s site).mem := by
  unfold State.loseDirty
  exact State.foldl_keeps _ (fun s x h => by simpa using h) _ (State.foldl_keeps _ (fun s x h => State.loseWrite_keeps _ _ _ _ _ _ h) _
    (State.foldl_keeps _ (fun s x h => State.loseOwned_keeps _ _ _ h) _
      (State.foldl_keeps _ (fun s x h => State.loseStash_keeps _ _ _ h) _ h)))

@[simp] theorem State.netOpen_keeps (s : State) (src : Node) (w : Who) (kind tok : Nat) (h : Memory.Ok s.mem) :
    Memory.Ok (State.netOpen s src w kind tok).mem := by
  simp +contextual [State.netOpen, h]

@[simp] theorem State.lostMessage_keeps (s : State) (site : Nat) (l : Line) (h : Memory.Ok s.mem) :
    Memory.Ok (State.lostMessage s site l).mem := by
  simp +contextual [State.lostMessage, h]

@[simp] theorem State.discardConts_keeps (s : State) (p kid : Nat) (h : Memory.Ok s.mem) :
    Memory.Ok (State.discardConts s p kid).mem := by
  simp +contextual [State.discardConts, h]

@[simp] theorem State.loseWriter_keeps (s : State) (die : Nat) (a : Acc) (h : Memory.Ok s.mem) :
    Memory.Ok (State.loseWriter s die a).mem := by
  unfold State.loseWriter
  simp only []
  repeat' split
  all_goals first
    | exact h
    | exact State.answerFault_keeps _ _ _ _ _ _ _ _ _ h

@[simp] theorem State.loseSlices_keeps (s : State) (die : Nat) (keep : List Nat) (h : Memory.Ok s.mem) :
    Memory.Ok (State.loseSlices s die keep).mem := by
  unfold State.loseSlices
  refine State.foldl_keeps _ (fun s e h => ?_) _ h
  exact State.foldl_keeps _ (fun s a h => State.loseWriter_keeps _ _ _ h) _ (Memory.ok_memWrite h _ _)

@[simp] theorem State.reloadAppends_keeps (s : State) (die : Nat) (h : Memory.Ok s.mem) :
    Memory.Ok (State.reloadAppends s die).mem := by
  unfold State.reloadAppends
  simp +contextual (maxDischargeDepth := 8) [h]

@[simp] theorem State.dropDieVisitors_keeps (s : State) (die : Nat) (h : Memory.Ok s.mem) :
    Memory.Ok (State.dropDieVisitors s die).mem := by
  simp +contextual [State.dropDieVisitors, h]

@[simp] theorem State.powerDown_keeps (s : State) (h : Memory.Ok s.mem) :
    Memory.Ok (State.powerDown s).mem := by
  exact Memory.wf_filter h _

@[simp] theorem State.setLink_keeps (s : State) (lk : Nat) (l : Link) (h : Memory.Ok s.mem) :
    Memory.Ok (State.setLink s lk l).mem := by
  simp +contextual [State.setLink, h]

@[simp] theorem State.answerPeer_keeps (s : State) (dev sub : Nat) (data : List Byte) (h : Memory.Ok s.mem) :
    Memory.Ok (State.answerPeer s dev sub data).mem := by
  simp +contextual [State.answerPeer, h]

@[simp] theorem State.loseFlits_keeps (s : State) (lk : Nat) (l : Link) (h : Memory.Ok s.mem) :
    Memory.Ok (State.loseFlits s lk l).mem := by
  unfold State.loseFlits
  simp only []
  split_ifs
  · exact State.foldl_keeps _ (fun s m h => by split_ifs <;> simp [h]) _ h
  · exact State.foldl_keeps _ (fun s x h => State.answerPeer_keeps _ _ _ _ h) _ h

@[simp] theorem State.linkFault_keeps (s : State) (lk : Nat) (h : Memory.Ok s.mem) :
    Memory.Ok (State.linkFault s lk).mem := by
  unfold State.linkFault
  simp only []
  split_ifs <;> simp [h]

@[simp] theorem State.linkEnable_keeps (s : State) (lk : Nat) (h : Memory.Ok s.mem) :
    Memory.Ok (State.linkEnable s lk).mem := by
  simp +contextual [State.linkEnable, h]

@[simp] theorem State.linkDisable_keeps (s : State) (lk : Nat) (h : Memory.Ok s.mem) :
    Memory.Ok (State.linkDisable s lk).mem := by
  simp +contextual [State.linkDisable, h]

@[simp] theorem State.spare_keeps (s : State) (lk lane : Nat) (h : Memory.Ok s.mem) :
    Memory.Ok (State.spare s lk lane).mem := by
  unfold State.spare
  simp only []
  repeat' split
  all_goals simp +contextual [*]

@[simp] theorem State.regEnd_keeps (s : State) (m box : Nat) (reason : Option Nat) (h : Memory.Ok s.mem) :
    Memory.Ok (State.regEnd s m box reason).mem := by
  simp +contextual [State.regEnd, h]

@[simp] theorem State.emptyStash_keeps (s : State) (site : Nat) (h : Memory.Ok s.mem) :
    Memory.Ok (State.emptyStash s site).mem := by
  simp +contextual [State.emptyStash, h]

@[simp] theorem State.moveHomes_keeps (s : State) (p : Nat) (h : Memory.Ok s.mem) :
    Memory.Ok (State.moveHomes s p).mem := by
  unfold State.moveHomes
  exact State.foldl_keeps _ (fun s e h => State.dropReplicas_keeps _ _ h) _
    (State.foldl_keeps _ (fun s e h => State.emptyStash_keeps _ _ h) _ h)

@[simp] theorem State.dropTranslations_keeps (s : State) (p : Nat) (h : Memory.Ok s.mem) :
    Memory.Ok (State.dropTranslations s p).mem := State.foldl_keeps _ (fun s c h => by simpa using h) _ h

@[simp] theorem State.regrain_keeps (s : State) (p granule : Nat) (h : Memory.Ok s.mem) :
    Memory.Ok (State.regrain s p granule).mem := by
  unfold State.regrain
  split_ifs <;> simp [h]

@[simp] theorem State.rename_keeps (s : State) (q p : Nat) (h : Memory.Ok s.mem) :
    Memory.Ok (State.rename s q p).mem := by
  simp +contextual [State.rename, h]

@[simp] theorem State.stopLines_keeps (s : State) (p : Nat) (h : Memory.Ok s.mem) :
    Memory.Ok (State.stopLines s p).mem := by
  unfold State.stopLines
  simp +contextual (maxDischargeDepth := 8) [h]

@[simp] theorem State.abortSwitch_keeps (s : State) (p : Nat) (h : Memory.Ok s.mem) :
    Memory.Ok (State.abortSwitch s p).mem := by
  simp +contextual [State.abortSwitch, h]

@[simp] theorem State.powered_keeps (s : State) (img : List Byte) (runsB : Bool) (h : Memory.Ok s.mem) :
    Memory.Ok (State.powered s img runsB).mem := by
  simp +contextual [State.powered, h]

@[simp] theorem State.wholePackage_keeps (s : State) (h : Memory.Ok s.mem) :
    Memory.Ok (State.wholePackage s).mem := by
  simp +contextual [State.wholePackage, h]

@[simp] theorem State.tryDone_keeps (s : State) (die r : Nat) (h : Memory.Ok s.mem) :
    Memory.Ok (State.tryDone s die r).mem := by
  unfold State.tryDone
  simp only []
  repeat' split
  all_goals simp +contextual [*]

@[simp] theorem State.stream_keeps (s : State) (die cl digest base : Nat) (data : List Byte) (no : Nat) (h : Memory.Ok s.mem) :
    Memory.Ok (State.stream s die cl digest base data no).mem := by
  simp +contextual [State.stream, h]

@[simp] theorem State.trigNow_keeps (s : State) (w : Who) (l : Line) (h : Memory.Ok s.mem) :
    Memory.Ok (State.trigNow s w l).mem := by
  unfold State.trigNow
  repeat' split
  all_goals simp +contextual [*]

@[simp] theorem State.countTurn_keeps (s : State) (site slot key : Nat) (h : Memory.Ok s.mem) :
    Memory.Ok (State.countTurn s site slot key).mem := by
  simp +contextual [State.countTurn, h]

end Sys2Proof.Machine
end

