-- ==== Sys2Proof/Laws/Step.lean ====
section
/-! SUPPORT. The laws of one step: what it does with an entry of the schedule, and without one. -/

namespace Sys2Proof.Machine

/-- With nothing scheduled, the current core's slot has its turn, and one issue cycle elapses (R64). -/
theorem step_turn {s : State} (h : s.agenda = []) :
    step s = thenDo (s.perform (.turn s.cur)) fun t => { t.settle with cycle := s.cycle + 1 } := by
  simp only [step, h]

/-- An entry of the schedule is performed after the cycles that elapse before it. -/
theorem step_entry {s : State} {a : Act} {rest : List Act} (h : s.agenda = a :: rest) :
    step s = thenDo (State.perform { s with agenda := rest, cycle := s.cycle + a.after } a.what) State.settle := by
  simp only [step, h]

/-- What holds of the state, of the effect and of the state with the PC advanced holds of whatever a guarded instruction
answers. -/
theorem guarded_frame {g : Guard} {s t : State} {f : Env → State} (P : State → Prop) (hs : P s)
    (hf : ∀ e, s.env? = some e → P (f e)) (ha : ∀ e, s.env? = some e → P (s.put (e.adv 4))) (h : guarded g s f = .next t) : P t := by
  rcases guarded_cases h with rfl | ⟨e, he, ⟨-, rfl⟩ | ⟨-, rfl⟩⟩
  · exact hs
  · exact hf e he
  · exact ha e he

end Sys2Proof.Machine
end

