-- ==== Sys2Proof/Tests/Slice0.lean ====
section
/-! SUPPORT. Tests: decoded words, ill-formed terms, the worked examples of the spec, and for each statement of
Certificates/Slice0/Obligations.lean states and operands that meet its hypotheses. -/

open Sys2Proof Sys2Proof.Machine



set_option Elab.async false

/-! ## Decoding: for every encoded row, a word written from the fields of spec/opcode_table.json and R31 to R49 -/

theorem test_decode_short_1 :
    decodeTableWord 16 0xF1A0 = some (.mov16 .f16 13 8) ∧
    decodeTableWord 16 0x3AA2 = some (.add16 .i32 5 13) ∧
    decodeTableWord 16 0x1D24 = some (.sub16 .i64 9 14) ∧
    decodeTableWord 16 0x5DC6 = some (.and16 .i16 14 14) ∧
    decodeTableWord 16 0x1A28 = some (.or16 .i64 1 13) ∧
    decodeTableWord 16 0x6C8A = some (.xor16 .i8 4 6) ∧
    decodeTableWord 16 0x736C = some (.shl16 .i8 11 9) ∧
    decodeTableWord 16 0x668E = some (.shr16 .i8 4 3) ∧
    decodeTableWord 16 0x3F70 = some (.sra16 .i32 11 15) ∧
    decodeTableWord 16 0x5C92 = some (.mul16 .i16 4 14) ∧
    decodeTableWord 16 0x8F4 = some (.min16 .i64 7 4) ∧
    decodeTableWord 16 0x5D56 = some (.max16 .i16 10 14) := by decide

theorem test_decode_short_2 :
    decodeTableWord 16 0x98D8 = some (.fadd16 .f64 6 12) ∧
    decodeTableWord 16 0x955A = some (.fsub16 .f64 10 10) ∧
    decodeTableWord 16 0xED9C = some (.fmul16 .f16 12 6) ∧
    decodeTableWord 16 0xE1BE = some (.fmax16 .f16 13 0) := by decide

theorem test_decode_major_0x00_1 :
    decodeTableWord 32 0x2A2D01 = some (.add ⟨true, 10⟩ .i64 2 10 2) ∧
    decodeTableWord 32 0x215D8081 = some (.sub ⟨false, 1⟩ .i32 8 13 5) ∧
    decodeTableWord 32 0x62EAA501 = some (.and ⟨false, 10⟩ .i8 10 10 14) ∧
    decodeTableWord 32 0x38D8E01 = some (.or ⟨true, 12⟩ .i64 8 13 8) ∧
    decodeTableWord 32 0x4CCA081 = some (.xor ⟨false, 1⟩ .i64 10 12 12) ∧
    decodeTableWord 32 0x254CA901 = some (.shl ⟨true, 2⟩ .i32 10 12 4) ∧
    decodeTableWord 32 0x46058E81 = some (.shr ⟨true, 13⟩ .i16 8 5 0) ∧
    decodeTableWord 32 0x67ACBC81 = some (.sra ⟨true, 9⟩ .i8 11 12 10) ∧
    decodeTableWord 32 0x28CE2301 = some (.mul ⟨false, 6⟩ .i32 2 14 12) ∧
    decodeTableWord 32 0x9350C81 = some (.mulh ⟨true, 9⟩ .i64 0 5 3) ∧
    decodeTableWord 32 0x2ACAC081 = some (.mulhu ⟨false, 1⟩ .i32 12 10 12) ∧
    decodeTableWord 32 0x4B50FB01 = some (.min ⟨true, 6⟩ .i16 15 0 5) := by decide

theorem test_decode_major_0x00_2 :
    decodeTableWord 32 0x2C4D2401 = some (.max ⟨false, 8⟩ .i32 2 13 4) ∧
    decodeTableWord 32 0xD244C81 = some (.minu ⟨true, 9⟩ .i64 4 4 2) ∧
    decodeTableWord 32 0x6E4AE481 = some (.maxu ⟨false, 9⟩ .i8 14 10 4) ∧
    decodeTableWord 32 0x2F0B5201 = some (.mov ⟨false, 4⟩ .i32 5 11) := by decide

theorem test_decode_major_0x01 :
    decodeTableWord 32 0xEE4C8103 = some (.addi ⟨false, 2⟩ 8 12 0xEE4#12) := by decide

theorem test_decode_major_0x02 :
    decodeTableWord 32 0x7C601D05 = some (.andi ⟨true, 10⟩ 1 0 0x7C6#12) := by decide

theorem test_decode_major_0x03 :
    decodeTableWord 32 0x73F52E87 = some (.ori ⟨true, 13⟩ 2 5 0x73F#12) := by decide

theorem test_decode_major_0x04 :
    decodeTableWord 32 0xED363989 = some (.xori ⟨true, 3⟩ 3 6 0xED3#12) := by decide

theorem test_decode_major_0x05 :
    decodeTableWord 32 0x1824AC0B = some (.shli ⟨true, 8⟩ .i8 10 4 2) ∧
    decodeTableWord 32 0x4834C58B = some (.shri ⟨false, 11⟩ .i32 12 4 3) ∧
    decodeTableWord 32 0x9084C28B = some (.srai ⟨false, 5⟩ .i16 12 4 8) ∧
    decodeTableWord 32 0xC1F3F08B = some (.rori ⟨false, 1⟩ .i64 15 3 31) := by decide

theorem test_decode_major_0x06 :
    decodeTableWord 32 0xF353460D = some (.movi 4 0xF353#16 3) ∧
    decodeTableWord 32 0x5F0D7A0D = some (.movk 7 0x5F0D#16 1) := by decide

theorem test_decode_major_0x07 :
    decodeTableWord 32 0x60064F8F = some (.clz ⟨true, 15⟩ .i8 4 6) ∧
    decodeTableWord 32 0x104FE0F = some (.ctz ⟨true, 12⟩ .i64 15 4) ∧
    decodeTableWord 32 0x620D990F = some (.popc ⟨true, 2⟩ .i8 9 13) ∧
    decodeTableWord 32 0x23065B0F = some (.bswap ⟨true, 6⟩ .i32 5 6) ∧
    decodeTableWord 32 0x2409B40F = some (.brev ⟨false, 8⟩ .i32 11 9) ∧
    decodeTableWord 32 0x250EBD8F = some (.sext ⟨true, 11⟩ .i32 11 14) ∧
    decodeTableWord 32 0x26064B0F = some (.zext ⟨true, 6⟩ .i32 4 6) ∧
    decodeTableWord 32 0x472CCA0F = some (.bext ⟨true, 4⟩ .i16 12 12 2) ∧
    decodeTableWord 32 0x28B29F0F = some (.bins ⟨true, 14⟩ .i32 9 2 11) := by decide

theorem test_decode_major_0x08 :
    decodeTableWord 32 0x60A7E211 = some (.div ⟨false, 4⟩ .i8 14 7 10) ∧
    decodeTableWord 32 0x61EAE091 = some (.divu ⟨false, 1⟩ .i8 14 10 14) ∧
    decodeTableWord 32 0x422CAF91 = some (.rem ⟨true, 15⟩ .i16 10 12 2) ∧
    decodeTableWord 32 0x3A6DA91 = some (.remu ⟨true, 5⟩ .i64 13 6 10) := by decide

theorem test_decode_major_0x09 :
    decodeTableWord 32 0x206DF413 = some (.cmp ⟨false, 8⟩ .i16 .eq 15 13 6) := by decide

theorem test_decode_major_0x0A :
    decodeTableWord 32 0x99B7AF15 = some (.cmpi ⟨true, 14⟩ .gtu 10 7 0x9B#8) := by decide

theorem test_decode_major_0x0B :
    decodeTableWord 32 0x815A97 = some (.pand ⟨true, 5⟩ 5 1 8) ∧
    decodeTableWord 32 0x1F5FF17 = some (.por ⟨true, 14⟩ 15 5 15) ∧
    decodeTableWord 32 0x2381617 = some (.pxor ⟨false, 12⟩ 1 8 3) ∧
    decodeTableWord 32 0x3F57617 = some (.pandn ⟨false, 12⟩ 7 5 15) ∧
    decodeTableWord 32 0x400DB17 = some (.pget ⟨true, 6⟩ 13) ∧
    decodeTableWord 32 0x5020A17 = some (.pput ⟨true, 4⟩ 2) := by decide

theorem test_decode_major_0x0C :
    decodeTableWord 32 0x410B899 = some (.sel ⟨true, 1⟩ 11 0 1 4) ∧
    decodeTableWord 32 0x1BD0F699 = some (.lea ⟨false, 13⟩ 15 0 13 11) ∧
    decodeTableWord 32 0x204ED519 = some (.padd ⟨false, 10⟩ 13 14 4) := by decide

theorem test_decode_major_0x0D :
    decodeTableWord 32 0x642A9B = some (.adds ⟨true, 5⟩ .i64 2 4 6) ∧
    decodeTableWord 32 0x6187A19B = some (.subs ⟨false, 3⟩ .i8 10 7 8) ∧
    decodeTableWord 32 0x425E411B = some (.addsu ⟨false, 2⟩ .i16 4 14 5) ∧
    decodeTableWord 32 0x632D771B = some (.subsu ⟨false, 14⟩ .i8 7 13 2) ∧
    decodeTableWord 32 0x64A7929B = some (.avgu ⟨false, 5⟩ .i8 9 7 10) ∧
    decodeTableWord 32 0x567849B = some (.absd ⟨false, 9⟩ .i64 8 7 6) ∧
    decodeTableWord 32 0x2601D31B = some (.neg ⟨false, 6⟩ .i32 13 1) ∧
    decodeTableWord 32 0x270E471B = some (.abs ⟨false, 14⟩ .i32 4 14) := by decide

theorem test_decode_major_0x0E :
    decodeTableWord 32 0x20684D9D = some (.vshuf ⟨true, 11⟩ .i32 4 8 6) ∧
    decodeTableWord 32 0x212AAB1D = some (.vpack ⟨true, 6⟩ .i32 10 10 2) ∧
    decodeTableWord 32 0x4206F49D = some (.vunpkl ⟨false, 9⟩ .i16 15 6) ∧
    decodeTableWord 32 0x4304EB1D = some (.vunpkh ⟨true, 6⟩ .i16 14 4) ∧
    decodeTableWord 32 0x24021E9D = some (.vbcast ⟨true, 13⟩ .i32 1 2) ∧
    decodeTableWord 32 0x6562749D = some (.vdot ⟨false, 9⟩ .i8 7 2 6) ∧
    decodeTableWord 32 0x260CB59D = some (.vrsum ⟨false, 11⟩ .i32 11 12) := by decide

theorem test_decode_major_0x0F :
    decodeTableWord 32 0x443C7C1F = some (.vcmp ⟨true, 8⟩ .i16 .ltu 7 12 3) ∧
    decodeTableWord 32 0xD0DEC51F = some (.vsel ⟨false, 10⟩ .bf16 12 14 13) ∧
    decodeTableWord 32 0xF103099F = some (.vmsk ⟨true, 3⟩ .f16 0 3) := by decide

theorem test_decode_major_0x10 :
    decodeTableWord 32 0xB830B621 = some (.fadd ⟨false, 12⟩ .f32 .rdn 11 0 3) ∧
    decodeTableWord 32 0xF1357421 = some (.fsub ⟨false, 8⟩ .f16 .rup 7 5 3) ∧
    decodeTableWord 32 0xE246A0A1 = some (.fmul ⟨false, 1⟩ .f16 .rne 10 6 4) ∧
    decodeTableWord 32 0xBB6245A1 = some (.fma ⟨false, 11⟩ .f32 .rdn 4 2 6) ∧
    decodeTableWord 32 0xE40A5921 = some (.fms ⟨true, 2⟩ .f16 .rne 5 10 0) ∧
    decodeTableWord 32 0xED9560A1 = some (.fnma ⟨false, 1⟩ .f16 .rtz 6 5 9) ∧
    decodeTableWord 32 0x86A44321 = some (.fmin ⟨false, 6⟩ .f64 4 4 10) ∧
    decodeTableWord 32 0x8E68ACA1 = some (.fmax ⟨true, 9⟩ .f64 10 8 6) ∧
    decodeTableWord 32 0xE70035A1 = some (.fabs ⟨false, 11⟩ .f16 3 0) ∧
    decodeTableWord 32 0xCF03C621 = some (.fneg ⟨false, 12⟩ .bf16 12 3) ∧
    decodeTableWord 32 0xB7C0CFA1 = some (.fsgnj ⟨true, 15⟩ .f32 12 0 12) := by decide

theorem test_decode_major_0x11 :
    decodeTableWord 32 0xD8EF9B23 = some (.fdiv ⟨true, 6⟩ .bf16 .rdn 9 15 14) ∧
    decodeTableWord 32 0xC1046223 = some (.fsqrt ⟨false, 4⟩ .bf16 .rne 6 4) ∧
    decodeTableWord 32 0x82032323 = some (.frcpe ⟨false, 6⟩ .f64 2 3) ∧
    decodeTableWord 32 0xE3065E23 = some (.frsqe ⟨true, 12⟩ .f16 5 6) := by decide

theorem test_decode_major_0x12 :
    decodeTableWord 32 0x32466D25 = some (.fcmp ⟨true, 10⟩ .bf16 .lt 6 6 4) ∧
    decodeTableWord 32 0x68056425 = some (.fclass ⟨false, 8⟩ .f32 6 5) ∧
    decodeTableWord 32 0x610308A5 = some (.icvtf ⟨true, 1⟩ .f64 .rne false .i64 0 3) ∧
    decodeTableWord 32 0xB27543A5 = some (.fcvt ⟨false, 7⟩ .bf16 .rtz false .f16 4 5) ∧
    decodeTableWord 32 0xD6736B25 = some (.fcvti ⟨true, 6⟩ .i16 .rdn false .f16 6 3) := by decide

theorem test_decode_major_0x14 :
    decodeTableWord 32 0x82E6EDA9 = some (.br ⟨true, 11⟩ 0x82E6E#20) := by decide

theorem test_decode_major_0x15 :
    decodeTableWord 32 0xDE00FAB = some (.call ⟨true, 15⟩ 0 0xDE0#16) := by decide

theorem test_decode_major_0x16 :
    decodeTableWord 32 0xE012D = some (.jmp ⟨false, 2⟩ 14) ∧
    decodeTableWord 32 0x10454AD = some (.jal ⟨false, 9⟩ 5 4) ∧
    decodeTableWord 32 0x20A0CAD = some (.ret ⟨true, 9⟩ 10) ∧
    decodeTableWord 32 0x3A405AD = some (.brx ⟨false, 11⟩ 4 10) := by decide

theorem test_decode_major_0x17 :
    decodeTableWord 32 0x7943B4AF = some (.dbnz ⟨false, 9⟩ 11 0x7943#16) := by decide

theorem test_decode_major_0x18 :
    decodeTableWord 32 0x9B1614B1 = some (.ld ⟨false, 9⟩ .h false 1 6 0x9B#8) := by decide

theorem test_decode_major_0x19 :
    decodeTableWord 32 0xC50FF8B3 = some (.st ⟨true, 1⟩ .b 15 15 0xC5#8) := by decide

theorem test_decode_major_0x1A :
    decodeTableWord 32 0x1016CB5 = some (.ldOrd .h .sc .clu 6 1) ∧
    decodeTableWord 32 0xA0ACD35 = some (.ldOrdSigned .w .sc .die 12 10) ∧
    decodeTableWord 32 0x11220A35 = some (.stOrd .h .rel .sys 2 2) := by decide

theorem test_decode_major_0x1B :
    decodeTableWord 32 0x64B5E437 = some (.ldt .fp4 .bf16 .rup 14 5 11) ∧
    decodeTableWord 32 0xE42EC037 = some (.stt .fp4 .bf16 .rne false 12 14 2) := by decide

theorem test_decode_major_0x1C_1 :
    decodeTableWord 32 0x18CBCB9 = some (.amoAdd .i64 .sc .clu 11 12 8) ∧
    decodeTableWord 32 0x97141B9 = some (.amoAnd .i64 .rlx .dev 4 1 7) ∧
    decodeTableWord 32 0x1024ECB9 = some (.amoOr .i32 .sc .clu 14 4 2) ∧
    decodeTableWord 32 0x18EE9839 = some (.amoXor .i32 .rel .core 9 14 14) ∧
    decodeTableWord 32 0x20AE8139 = some (.amoMin .i32 .rlx .die 8 14 10) ∧
    decodeTableWord 32 0x292A21B9 = some (.amoMax .i64 .rlx .dev 2 10 2) ∧
    decodeTableWord 32 0x301A4E39 = some (.amoMinu .i32 .sc .sys 4 10 1) ∧
    decodeTableWord 32 0x39E4E9B9 = some (.amoMaxu .i64 .rel .dev 14 4 14) ∧
    decodeTableWord 32 0x41B88939 = some (.amoSwap .i64 .rel .die 8 8 11) ∧
    decodeTableWord 32 0x480330B9 = some (.amoCas .i32 .rlx .clu 3 3 0) ∧
    decodeTableWord 32 0x57EA6CB9 = some (.amoCas128 .sc .clu 6 10 14) ∧
    decodeTableWord 32 0x5A7954B9 = some (.amoFadd .bf16 .acq .clu 5 9 7) := by decide

theorem test_decode_major_0x1C_2 :
    decodeTableWord 32 0x66CA1DB9 = some (.amoFmin .bf16x2 .sc .dev 1 10 12) ∧
    decodeTableWord 32 0x6B597039 = some (.amoFmax .f32 .rlx .core 7 9 5) := by decide

theorem test_decode_major_0x1D :
    decodeTableWord 32 0x8D01BB = some (.redAdd .i32 .rlx .dev 13 8) ∧
    decodeTableWord 32 0x9290A3B = some (.redAnd .i64 .rel .sys 9 2) ∧
    decodeTableWord 32 0x11AA013B = some (.redOr .i64 .rlx .die 10 10) ∧
    decodeTableWord 32 0x184A013B = some (.redXor .i32 .rlx .die 10 4) ∧
    decodeTableWord 32 0x2128093B = some (.redMin .i64 .rel .die 8 2) ∧
    decodeTableWord 32 0x29420ABB = some (.redMax .i64 .rel .recov 2 4) ∧
    decodeTableWord 32 0x30C401BB = some (.redMinu .i32 .rlx .dev 4 12) ∧
    decodeTableWord 32 0x384D0ABB = some (.redMaxu .i32 .rel .recov 13 4) ∧
    decodeTableWord 32 0x5CED08BB = some (.redFadd .f64 .rel .clu 13 14) ∧
    decodeTableWord 32 0x62B409BB = some (.redFmin .bf16 .rel .dev 4 11) ∧
    decodeTableWord 32 0x6E4401BB = some (.redFmax .bf16x2 .rlx .dev 4 4) := by decide

theorem test_decode_major_0x1E :
    decodeTableWord 32 0x2D03D = some (.ldrW 13 2) ∧
    decodeTableWord 32 0x82C003D = some (.stc 12 2) ∧
    decodeTableWord 32 0x100D003D = some (.rcancel 13) := by decide

theorem test_decode_major_0x1F :
    decodeTableWord 32 0x53F = some (.fence .acq .die) ∧
    decodeTableWord 32 0x800003F = some (.drainTs) ∧
    decodeTableWord 32 0x1000003F = some (.drainGm) ∧
    decodeTableWord 32 0x1800003F = some (.drainMx) ∧
    decodeTableWord 32 0x200D023F = some (.cln .sys 13) ∧
    decodeTableWord 32 0x2801003F = some (.cinv 1) ∧
    decodeTableWord 32 0x3005003F = some (.iinv 5) ∧
    decodeTableWord 32 0x3802003F = some (.pref 2) := by decide

theorem test_decode_major_0x20 :
    decodeTableWord 32 0xEC1 = some (.yield ⟨true, 13⟩) ∧
    decodeTableWord 32 0x100009C1 = some (.park ⟨true, 3⟩) ∧
    decodeTableWord 32 0x20080341 = some (.wake ⟨false, 6⟩ 8) ∧
    decodeTableWord 32 0x30000AC1 = some (.exit ⟨true, 5⟩) ∧
    decodeTableWord 32 0x400605C1 = some (.migr ⟨false, 11⟩ 6) ∧
    decodeTableWord 32 0x51136CC1 = some (.mfs ⟨true, 9⟩ 0x113#12 6) ∧
    decodeTableWord 32 0x61186CC1 = some (.mts ⟨true, 9⟩ 0x118#12 6) ∧
    decodeTableWord 32 0x7006E541 = some (.widF ⟨false, 10⟩ 6 14) := by decide

theorem test_decode_major_0x21 :
    decodeTableWord 32 0x45BD4C3 = some (.fork ⟨false, 9⟩ 0x45BD#16) ∧
    decodeTableWord 32 0x10000343 = some (.sync ⟨false, 6⟩) ∧
    decodeTableWord 32 0x200A0143 = some (.gang ⟨false, 2⟩ 10) := by decide

theorem test_decode_major_0x22 :
    decodeTableWord 32 0x50545 = some (.launch ⟨false, 10⟩ 5) ∧
    decodeTableWord 32 0x10000545 = some (.trig ⟨false, 10⟩) ∧
    decodeTableWord 32 0x201103C5 = some (.grun ⟨false, 7⟩ 1 1) := by decide

theorem test_decode_major_0x23 :
    decodeTableWord 32 0x2810247 = some (.send ⟨false, 4⟩ 2 1 8) ∧
    decodeTableWord 32 0x10CD0947 = some (.qpush ⟨true, 2⟩ 13 12) ∧
    decodeTableWord 32 0x200A41C7 = some (.qpop ⟨false, 3⟩ 10 4) ∧
    decodeTableWord 32 0x30050247 = some (.qstat ⟨false, 4⟩ 5 0) ∧
    decodeTableWord 32 0x430C1547 = some (.wenq .clu 42 6 8) := by decide

theorem test_decode_major_0x24 :
    decodeTableWord 32 0xB0107C9 = some (.barInit ⟨false, 15⟩ 44 1) ∧
    decodeTableWord 32 0x178003C9 = some (.barArv ⟨false, 7⟩ 30) ∧
    decodeTableWord 32 0x2AC40F49 = some (.barArvb ⟨true, 14⟩ 43 4) ∧
    decodeTableWord 32 0x36810149 = some (.barExp ⟨false, 2⟩ 26 1) ∧
    decodeTableWord 32 0x43470F49 = some (.barWait ⟨true, 14⟩ 13 7) ∧
    decodeTableWord 32 0x510008C9 = some (.barAw ⟨true, 1⟩ 4) ∧
    decodeTableWord 32 0x6740BDC9 = some (.barTest ⟨true, 11⟩ 29 11) ∧
    decodeTableWord 32 0x7A400FC9 = some (.barInv ⟨true, 15⟩ 41) ∧
    decodeTableWord 32 0x8C400349 = some (.dbar ⟨false, 6⟩ 49) := by decide

theorem test_decode_major_0x25 :
    decodeTableWord 32 0xC3DECB = some (.apnd ⟨true, 13⟩ 13 3 12) ∧
    decodeTableWord 32 0x1ECA69CB = some (.apndh ⟨true, 3⟩ 59 6 10) ∧
    decodeTableWord 32 0x20072ECB = some (.ldtail ⟨true, 13⟩ 2 7) ∧
    decodeTableWord 32 0x300C094B = some (.seal ⟨true, 2⟩ 12) ∧
    decodeTableWord 32 0x401C0D4B = some (.xinv ⟨true, 10⟩ 12 1) := by decide

theorem test_decode_major_0x26 :
    decodeTableWord 32 0x175054D = some (.rcommit ⟨false, 10⟩ 1 5 7) ∧
    decodeTableWord 32 0x10003DCD = some (.rmark ⟨true, 11⟩ 0 3) := by decide

theorem test_decode_major_0x27 :
    decodeTableWord 32 0x159054F = some (.trap ⟨false, 10⟩ 0x159#12) ∧
    decodeTableWord 32 0x10000A4F = some (.ebrk ⟨true, 4⟩) ∧
    decodeTableWord 32 0x2000024F = some (.resume ⟨false, 4⟩ .replay 0 0) ∧
    decodeTableWord 32 0x300005CF = some (.halt ⟨false, 11⟩) ∧
    decodeTableWord 32 0x40B102CF = some (.trc ⟨false, 5⟩ 0xB1#12) := by decide

theorem test_decode_major_0x28 :
    decodeTableWord 32 0x21B51 = some (.hdef 54 1) ∧
    decodeTableWord 32 0x100119D1 = some (.hinfo 51 8) ∧
    decodeTableWord 32 0x20000751 = some (.hseal 14) ∧
    decodeTableWord 32 0x30000051 = some (.hopen 0) ∧
    decodeTableWord 32 0x40000551 = some (.hmap 10 0) ∧
    decodeTableWord 32 0x50000451 = some (.hunmap 8) ∧
    decodeTableWord 32 0x600B1DD1 = some (.ldh 59 8 5) ∧
    decodeTableWord 32 0x70EC1D51 = some (.sth 58 6 7) := by decide

theorem test_decode_major_0x29 :
    decodeTableWord 32 0x1440C53 = some (.cpyG2t .core 24 2 10) ∧
    decodeTableWord 32 0x13BC05D3 = some (.cpyT2g .clu 11 14 13) ∧
    decodeTableWord 32 0x2B4660D3 = some (.cpyT2t .recov 1 51 10) ∧
    decodeTableWord 32 0x3B648053 = some (.cpyG2g .recov 4 2 11) ∧
    decodeTableWord 32 0x4B1A01D3 = some (.cpyG2q .recov 3 13 8) ∧
    decodeTableWord 32 0x5BE217D3 = some (.cpyGat .recov 47 1 15) ∧
    decodeTableWord 32 0x607A0553 = some (.cpySca .core 10 13 3) := by decide

theorem test_decode_major_0x2A :
    decodeTableWord 32 0x35845D5 = some (.tvAdd .rtz 11 2 43) ∧
    decodeTableWord 32 0x137731D5 = some (.tvSub .rtz 35 57 46) ∧
    decodeTableWord 32 0x2607E3D5 = some (.tvMul .rdn 7 63 0) ∧
    decodeTableWord 32 0x32C3DD55 = some (.tvFma .rtz 58 30 24) ∧
    decodeTableWord 32 0x4463FED5 = some (.tvMin .rup 61 31 12) ∧
    decodeTableWord 32 0x54C947D5 = some (.tvMax .rup 15 10 25) ∧
    decodeTableWord 32 0x60021FD5 = some (.tvAbs 63 16) ∧
    decodeTableWord 32 0x70046DD5 = some (.tvExp2 27 35) ∧
    decodeTableWord 32 0x80018455 = some (.tvRcp 8 12) := by decide

theorem test_decode_major_0x2B :
    decodeTableWord 32 0xC01E7D7 = some (.tvCvt .rup true 15 15) ∧
    decodeTableWord 32 0x12024B57 = some (.tvRed .min false 22 18) ∧
    decodeTableWord 32 0x200334D7 = some (.tvBcast 41 25) ∧
    decodeTableWord 32 0x30020057 = some (.tvTrans 0 16) ∧
    decodeTableWord 32 0x407516D7 = some (.tvSel 45 40 14) ∧
    decodeTableWord 32 0x51E68C57 = some (.tvScale 24 52 60) := by decide

theorem test_decode_major_0x2C :
    decodeTableWord 32 0xC59 = some (.mcfg 0 6) ∧
    decodeTableWord 32 0x11300059 = some (.mloadb 0 38) ∧
    decodeTableWord 32 0x2D876C59 = some (.mmac 6 48 59 6) ∧
    decodeTableWord 32 0x3C5AAA59 = some (.mmacs 6 11 21 5) ∧
    decodeTableWord 32 0x44544A59 = some (.mepi 2 10 34 5) ∧
    decodeTableWord 32 0x5C000059 = some (.ctswap 6) := by decide

theorem test_decode_major_0x2D :
    decodeTableWord 32 0xDB = some (.msemWait ⟨false, 1⟩ 0) ∧
    decodeTableWord 32 0x1F0008DB = some (.msemPost ⟨true, 1⟩ 15) ∧
    decodeTableWord 32 0x20000A5B = some (.mdrain ⟨true, 4⟩) := by decide

/-! ## Small states -/

/-- The outcome's next state, seen through a function. -/
def after {α : Type} (o : Host.Outcome State Fault Refusal) (f : State → α) : Option α :=
  match o with
  | .next t => some (f t)
  | .fault _ => none
  | .refused _ => none

/-- The key of the context that the tests run. -/
def tKey : Nat := 0x2000

/-- The guard that always holds. -/
def gA : Guard := ⟨false, 0⟩

/-- The first registers of a list replaced. -/
def overlay (new old : List Word) : List Word := new ++ old.drop new.length

/-- A context about to fetch a word of `n` bits, with the registers v0 to v7 and s0 to s7 and PW given. -/
def tState (n w : Nat) (v s : List Word) (pw : BitVec 32) : State :=
  let t := State.reset.withFetchWord n w
  let t := t.modLine tKey fun l => { l with v := overlay v l.v, pw := pw }
  t.modCore t.cur fun c => { c with ks := c.ks.map fun k => { k with s := overlay s k.s } }

/-- The context's line after a step, seen through a function. -/
def lineAfter {α : Type} (s : State) (f : Line → α) : Option α :=
  match step s with
  | .next t => (t.line? tKey).map f
  | .fault _ => none
  | .refused _ => none

/-- A register v after a step. -/
def vAfter (s : State) (i : Nat) : Option Word := lineAfter s fun l => l.v.getD i 0#64
/-- A register s after a step. -/
def sAfter (s : State) (i : Nat) : Option Word :=
  after (step s) fun t => ((t.core s.cur).ks.getD 0 KSlot.reset).s.getD i 0#64
/-- How far PC moves in a step. -/
def pcMove (s : State) : Option Word := lineAfter s fun l => l.pc - ((s.line? tKey).map (·.pc)).getD 0#64
/-- What the messages of a step carry. -/
def sentAfter (s : State) : Option (List Body) := after (step s) fun t => t.net.map (·.body)
/-- The CAUSE, FADDR and WT of a step. -/
def faultAfter (s : State) : Option (Word × Word × BitVec 32) := lineAfter s fun l => (l.cause, l.faddr, l.wt)
/-- The requests of a step: address and operands. -/
def askedAfter (s : State) : Option (List (Nat × ReqKind)) :=
  after (step s) fun t => t.net.filterMap fun m => match m.body with
    | .req _ va k _ _ => some (va, k)
    | _ => none
/-- The record of a barrier or handle in the only kernel slot that runs. -/
def tSlot (s : State) (f : KSlot → KSlot) : State :=
  s.modCore s.cur fun c => { c with ks := c.ks.set 0 (f (c.ks.getD 0 KSlot.reset)) }

/-- A 32 × 32 BF16 handle with pitch 64 at offset 0x4000. -/
def tHandle : Handle :=
  { st := .open_, offset := 0x4000, rows := 32, cols := 32, fmt := 6, ttab := 0, pitch := 64, sbase := 0, scoff := 0, refs := 0, asid := 0 }

/-! ## Worked examples of the spec, one step each -/

-- chapter 05: lane 0 of v2 = 0xBEEF, of v3 = 0x0054: position 4, length 5
theorem test_bext : (vAfter (tState 32 0x4732100F [0, 0, 0xBEEF#64, 0x54#64] [] 1#32) 1).map (·.toNat % 65536) = some 0xE := by decide
-- chapter 05: `cmp.lt.i32 p4, v1, s3`: -16 < 3
theorem test_cmp_lt : lineAfter (tState 32 0x12B14013 [0, 0xFFFFFFF0#64] [0, 0, 0, 3#64] 1#32) (·.pw) = some 0x11#32 := by decide
-- the same under `.ltu`
theorem test_cmp_ltu : lineAfter (tState 32 0x14B14013 [0, 0xFFFFFFF0#64] [0, 0, 0, 3#64] 0x11#32) (·.pw) = some 1#32 := by decide
-- chapter 05: `adds.i8 v1, v1, v2`
theorem test_adds : vAfter (tState 32 0x6021101B [0, 0x7F800102FE017F00#64, 0x80FF0003FE7F0105#64] [] 1#32) 1 =
    some 0xFF800105FC7F7F05#64 := by decide
-- chapter 05: `fcvti.i8.f32.rn v4, v5` of 300.0 and -2.5
theorem test_fcvti : vAfter (tState 32 0xD8554025 [0, 0, 0, 0, 0, 0xC020000043960000#64] [] 1#32) 4 = some 0xFE7F#64 := by decide
theorem test_fcvti_flags : lineAfter (tState 32 0xD8554025 [0, 0, 0, 0, 0, 0xC020000043960000#64] [] 1#32) (·.pw) =
    some 0x110001#32 := by decide
-- chapter 05, `dot8`: the products -1 to -8, then 2 to 16
theorem test_vdot : vAfter (tState 32 0x6554301D [0, 0, 0, 0, 0x0807060504030201#64, 0xFFFFFFFFFFFFFFFF#64] [] 1#32) 3 =
    some 0xFFFFFFFFFFFFFFDC#64 := by decide
theorem test_vdot_adds : vAfter (tState 32 0x6554301D [0, 0, 0, 0xFFFFFFFFFFFFFFDC#64, 0x0202020202020202#64, 0x0807060504030201#64] [] 1#32) 3 =
    some 0x24#64 := by decide
-- chapter 05, `dot8`: the first `dbnz` leaves 1 and branches back 20 bytes, the second leaves 0 and falls through
theorem test_dbnz : vAfter (tState 32 0xFFF6202F [0, 0, 2#64] [] 1#32) 2 = some 1#64 ∧
    pcMove (tState 32 0xFFF6202F [0, 0, 2#64] [] 1#32) = some (-20#64) := by decide
theorem test_dbnz_ends : vAfter (tState 32 0xFFF6202F [0, 0, 1#64] [] 1#32) 2 = some 0#64 ∧
    pcMove (tState 32 0xFFF6202F [0, 0, 1#64] [] 1#32) = some 4#64 := by decide
-- chapter 05, `dot8`: `mov.n v0, v3` and `ret`
theorem test_mov16 : vAfter (tState 16 0x0600 [0, 0, 0, 0x24#64] [] 1#32) 0 = some 0x24#64 ∧
    pcMove (tState 16 0x0600 [0, 0, 0, 0x24#64] [] 1#32) = some 2#64 := by decide
theorem test_ret : lineAfter (tState 32 0x0207002D [0, 0, 0, 0, 0, 0, 0, 0x4440#64] [] 1#32) (·.pc) = some 0x4440#64 := by decide
-- chapter 05: `(p4) br` of -12 halfwords
theorem test_br : pcMove (tState 32 0xFFFF4229 [] [] 0x11#32) = some (-24#64) ∧ pcMove (tState 32 0xFFFF4229 [] [] 1#32) = some 4#64 := by
  decide
-- chapter 02: `(!p3) fma.f32.rz v2, v5, s1`: p3 = 1 suppresses it; 1.5 × 2 + 1 = 4 otherwise
theorem test_fma_suppressed : vAfter (tState 32 0xAB9529A1 [0, 0, 7#64, 0, 0, 0x3FC00000#64] [0, 0x40000000#64] 9#32) 2 = some 7#64 ∧
    pcMove (tState 32 0xAB9529A1 [] [] 9#32) = some 4#64 := by decide
theorem test_fma : vAfter (tState 32 0xAB9529A1 [0, 0, 0x3F800000#64, 0, 0, 0x3FC00000#64] [0, 0x40000000#64] 1#32) 2 =
    some 0x40800000#64 := by decide
-- chapter 02: `add.i32.n s2, v1`, each lane by itself
theorem test_add16 : sAfter (tState 16 0x2342 [0, 0x00000001FFFFFFFF#64] [0, 0, 0x0000000200000001#64] 1#32) 2 =
    some 0x0000000300000000#64 := by decide
-- chapter 02: `ld.sw v3, [s2-8]`
theorem test_ld : askedAfter (tState 32 0xFEAA3031 [] [0, 0, 0x10008#64] 1#32) = some [(0x10000, .load (.reg 3 4 true) 4 .rlx .core)] := by
  decide
-- chapter 03: `wid.f v1, 2` and `wid.f v1, 5` of WID = 0x2D71F3 with the widths 4, 8, 10
theorem test_wid_f : vAfter (tSlot ((tState 32 0x70021041 [] [] 1#32).modLine tKey fun l => { l with wid := 0x2D71F3#64 })
    fun k => { k with widths := [4, 8, 10, 0, 0, 0] }) 1 = some 0x5C#64 := by decide
theorem test_wid_f_empty : vAfter (tSlot ((tState 32 0x70051041 [] [] 1#32).modLine tKey fun l => { l with wid := 0x2D71F3#64 })
    fun k => { k with widths := [4, 8, 10, 0, 0, 0] }) 1 = some 0#64 := by decide
-- chapter 04: `fcvt.bf16.f32` of 0x3F808000 and 0x3F818000 under the four roundings, each with NX
theorem test_fcvt_nearest : vAfter (tState 32 0xB0521025 [0, 0, 0x3F8180003F808000#64] [] 1#32) 1 = some 0x3F823F80#64 ∧
    lineAfter (tState 32 0xB0521025 [0, 0, 0x3F8180003F808000#64] [] 1#32) (·.pw) = some 0x10001#32 := by decide
theorem test_fcvt_directed : vAfter (tState 32 0xB2521025 [0, 0, 0x3F8180003F808000#64] [] 1#32) 1 = some 0x3F813F80#64 ∧
    vAfter (tState 32 0xB4521025 [0, 0, 0x3F8180003F808000#64] [] 1#32) 1 = some 0x3F823F81#64 ∧
    vAfter (tState 32 0xB6521025 [0, 0, 0xBF8080003F808000#64] [] 1#32) 1 = some 0xBF813F80#64 := by decide
-- chapter 04: `fcvt.bf16.f32.sr` with the LFSR at 0x4A3C0001
theorem test_fcvt_sr : vAfter ((tState 32 0xB1521025 [0, 0, 0x3F8080003F808000#64] [] 1#32).modCore 0 fun c =>
    { c with lfsr := 0x4A3C0001#32 }) 1 = some 0x3F813F80#64 := by decide
theorem test_fcvt_sr_lfsr : (after (step ((tState 32 0xB1521025 [0, 0, 0x3F8080003F808000#64] [] 1#32).modCore 0 fun c =>
    { c with lfsr := 0x4A3C0001#32 })) fun t => (t.core 0).lfsr) = some 0xD2BF0002#32 := by decide
-- chapter 06: `st.w [v1+12], v2`
theorem test_st : askedAfter (tState 32 0x03212033 [0, 0x100000100#64, 0xAAAABBBB12345678#64] [] 1#32) =
    some [(0x10000010C, .store [0x78#8, 0x56#8, 0x34#8, 0x12#8] .rlx .core)] := by decide
-- chapter 06: `ldt.e4m3.f32` of 0x48 and 0xC4
theorem test_ldt_e4m3 : (loadResult (.typed 2 .e4m3 .f32 .rne 0 [] none) [0x48#8, 0xC4#8]).regs = [(2, 0xC040000040800000#64)] ∧
    (loadResult (.typed 2 .e4m3 .f32 .rne 0 [] none) [0x48#8, 0xC4#8]).flags = Flags.none := by decide
-- chapter 06: `stt.e4m3.f32` of 500.0 and -0.0 stores 0x7E and 0x80 and raises OF and NX, when it commits and not at issue
theorem test_stt_e4m3 : askedAfter (tState 32 0xD2012037 [0, 0x10000#64, 0x8000000043FA0000#64] [] 1#32) =
    some [(0x10000, .stt .e4m3 .f32 .rne false 0 (List.replicate 16 ⟨0#8, 0#3⟩) none 0x8000000043FA0000#64)] ∧
    lineAfter (tState 32 0xD2012037 [0, 0x10000#64, 0x8000000043FA0000#64] [] 1#32) (·.pw) = some 1#32 := by decide
theorem test_stt_e4m3_commit : typedStore .e4m3 .f32 .rne false 0 [] 0#32 0x8000000043FA0000#64 =
    ([0x7E#8, 0x80#8], { Flags.none with of := true, nx := true }, 0#32) := by decide
-- chapter 04: one code of `ldt.fp4.bf16` under each record type
theorem test_ldt_fp4 : (loadResult (.typed 2 .fp4 .bf16 .rne 0x01F8 [] none) [0xB#8, 0#8]).regs = [(2, 0xC020#64)] ∧
    (loadResult (.typed 2 .fp4 .bf16 .rne 0x41FE [] none) [0xD#8, 0#8]).regs = [(2, 0xC090#64)] ∧
    (loadResult (.typed 2 .fp4 .bf16 .rne 0x8201 [] none) [0x6#8, 0#8]).regs.map (·.2.toNat % 65536) = [0x4120] := by decide
theorem test_ldt_fp4_table :
    (loadResult (.typed 2 .fp4 .bf16 .rne 0xC1FC (List.replicate 9 ⟨0#8, 0#3⟩ ++ [⟨0xA0#8, 5#3⟩] ++ List.replicate 6 ⟨0#8, 0#3⟩) none)
      [0x9#8, 0#8]).regs = [(2, 0xC040#64)] := by decide
-- chapter 06: `amo.cas128 v2, [v0], v4`: the request's operands, then the comparison that holds and the one that fails
theorem test_cas128_request : askedAfter (tState 32 0x57402039 [0x200000040#64, 0, 0x10#64, 0x20#64, 0x11#64, 0x21#64] [] 1#32) =
    some [(0x200000040, .amo .cas .i128 (0x11 + 2 ^ 64 * 0x21) (0x10 + 2 ^ 64 * 0x20) (some 2) .rlx .core true)] := by decide
theorem test_cas128_compare : amoWrites .cas .i128 (0x10 + 2 ^ 64 * 0x20) (0x10 + 2 ^ 64 * 0x20) = true ∧
    amoNew .cas .i128 (0x10 + 2 ^ 64 * 0x20) (0x11 + 2 ^ 64 * 0x21) (0x10 + 2 ^ 64 * 0x20) = 0x11 + 2 ^ 64 * 0x21 ∧
    amoWrites .cas .i128 (0x11 + 2 ^ 64 * 0x21) (0x10 + 2 ^ 64 * 0x20) = false := by decide
-- chapter 06: `red.fadd.bf16x2` of 2^-8 to 1.0 and 2.0 leaves the pair unchanged
theorem test_red_fadd : amoNew .fadd .bf16x2 0x40003F80 0x3B803B80 0 = 0x40003F80 := by decide
-- chapter 07: `hinfo v2, h3` of a 32 × 32 BF16 handle with pitch 64 at 0x4000
theorem test_hinfo : vAfter (tSlot (tState 32 0x100041D1 [] [] 1#32) fun k => { k with handles := [(3, tHandle)] }) 2 = some 0x0000010600200020#64 := by decide
-- chapter 04: AlignSeg of E4M3 448, 3.0, 0.375 and 0.0390625 against INT8 1, 2, -3 and 100 gives 452.5
theorem test_align_seg : (alignSeg 12 false ([0x7E, 0x44, 0x2C, 0x12].map (matValue 5 []))) = ([1792, 12, 2, 0], -2) := by decide
theorem test_seg_add : segAdd false 0 (segDot [1792, 12, 2, 0] [1, 2, -3, 100] [(0, 0), (1, 1), (2, 2), (3, 3)]) (-2) false unitScale unitScale =
    (0x43E24000, Flags.none) := by decide
-- chapter 10: the translation slice and the home of the worked example are cluster 17
theorem test_slices : ({ Part.reset 0xF with ilvNow := 1 } : Part).tslice 7 0x12345678ABC = 17 ∧
    ({ Part.reset 0xF with ilvNow := 1 } : Part).home 0x1234478ABC = 17 := by decide
-- chapter 01: `$coreid` of site (13, 22) of die 2, at position 694
theorem test_coreid : (State.reset.modCore (siteNo 2 13 22) fun c => { c with pos := some 694 }).coreId (siteNo 2 13 22) = 0x960D02B6 ∧
    clusterOf (siteNo 2 13 22) = 171 ∧ (State.reset.modCore (siteNo 2 13 22) fun c => { c with pos := some 694 }).logical (siteNo 2 13 22) = 2742 := by
  decide
-- chapter 16: CAUSE of `ld.d v3, [v1]` at an address that is not canonical, from the fields of R365; FADDR is the address
theorem test_fault_load : faultAfter (tState 32 0x00313031 [0, 0x0040000000000000#64] [] 1#32) =
    some (0x0031303110230104#64, 0x0040000000000000#64, 0x60000000#32) := by decide
-- chapter 16: `trap 0x123` is 0x0123004F; class 0x0E, KIND 0, SIZE 0xF, LEN 4 bytes, FADDR the code
theorem test_trap : faultAfter (tState 32 0x0123004F [] [] 1#32) = some (0x0123004F100F000E#64, 0x123#64, 0x60000000#32) := by decide
-- `ebrk` is 0x1000004F: class 0x0F, FADDR the PC
theorem test_ebrk : faultAfter (tState 32 0x1000004F [] [] 1#32) = some (0x1000004F100F000F#64, 0x100000#64, 0x60000000#32) := by decide
-- R52: the unassigned major 0x13 raises ILL at its PC
theorem test_ill : faultAfter (tState 32 0x00000027 [] [] 1#32) = some (0x00000027100F0001#64, 0x100000#64, 0x60000000#32) := by decide
-- R51: `halt` (0x3000004F) below supervisor raises PRIV 0x00
theorem test_halt_user : faultAfter ((tState 32 0x3000004F [] [] 1#32).modLine tKey fun l => l.setTsw 0 2 0) =
    some (0x3000004F100F0002#64, 0x100000#64, 0x60000000#32) := by decide

/-! ## Ill-formed terms, one for each check of R52 step 5 -/

/-- Every term of a list is ill formed. -/
def allBad (l : List Instr) : Bool := l.all fun i => !i.wellFormed
-- R30, R33: an integer operation on a floating-point lane type
theorem test_ill_formed_int : allBad
    [.add gA .f32 0 0 0, .sub gA .f32 0 0 0, .and gA .f32 0 0 0, .or gA .f32 0 0 0, .xor gA .f32 0 0 0, .shl gA .f32 0 0 0,
      .shr gA .f32 0 0 0, .sra gA .f32 0 0 0, .mul gA .f32 0 0 0, .mulh gA .f32 0 0 0, .mulhu gA .f32 0 0 0, .min gA .f32 0 0 0,
      .max gA .f32 0 0 0, .minu gA .f32 0 0 0, .maxu gA .f32 0 0 0, .add16 .f32 0 0, .sub16 .f32 0 0, .and16 .f32 0 0, .or16 .f32 0 0,
      .xor16 .f32 0 0, .shl16 .f32 0 0, .shr16 .f32 0 0, .sra16 .f32 0 0, .mul16 .f32 0 0, .min16 .f32 0 0, .max16 .f32 0 0,
      .clz gA .f32 0 0, .ctz gA .f32 0 0, .popc gA .f32 0 0, .bswap gA .f32 0 0, .brev gA .f32 0 0, .bext gA .f32 0 0 0,
      .bins gA .f32 0 0 0, .div gA .f32 0 0 0, .divu gA .f32 0 0 0, .rem gA .f32 0 0 0, .remu gA .f32 0 0 0, .adds gA .f32 0 0 0,
      .subs gA .f32 0 0 0, .addsu gA .f32 0 0 0] = true := by decide
-- R30, R33: an integer operation on a floating-point lane type
theorem test_ill_formed_int_2 : allBad
    [.subsu gA .f32 0 0 0, .avgu gA .f32 0 0 0, .absd gA .f32 0 0 0, .neg gA .f32 0 0, .abs gA .f32 0 0, .vshuf gA .f32 0 0 0,
      .vbcast gA .f32 0 0, .vrsum gA .f32 0 0] = true := by decide
-- R30, R33: a floating-point operation on an integer lane type
theorem test_ill_formed_fp : allBad
    [.fadd16 .i32 0 0, .fsub16 .i32 0 0, .fmul16 .i32 0 0, .fmax16 .i32 0 0, .fadd gA .i32 .rne 0 0 0, .fsub gA .i32 .rne 0 0 0,
      .fmul gA .i32 .rne 0 0 0, .fma gA .i32 .rne 0 0 0, .fms gA .i32 .rne 0 0 0, .fnma gA .i32 .rne 0 0 0, .fmin gA .i32 0 0 0,
      .fmax gA .i32 0 0 0, .fabs gA .i32 0 0, .fneg gA .i32 0 0, .fsgnj gA .i32 0 0 0, .fdiv gA .i32 .rne 0 0 0, .fsqrt gA .i32 .rne 0 0,
      .frcpe gA .i32 0 0, .frsqe gA .i32 0 0, .fcmp gA .i32 .eq 0 0 0, .fclass gA .i32 0 0] = true := by decide
-- R34 to R48: the other operand checks
theorem test_ill_formed_other : allBad
    [.mov16 .i64 0 0, .shli gA .f32 0 0 0, .shli gA .i8 0 0 8, .shri gA .f32 0 0 0, .shri gA .i8 0 0 8, .srai gA .f32 0 0 0,
      .srai gA .i8 0 0 8, .rori gA .f32 0 0 0, .rori gA .i8 0 0 8, .sext gA .i64 0 0, .sext gA .f32 0 0, .zext gA .i64 0 0,
      .zext gA .f32 0 0, .cmp gA .f32 .eq 0 0 0, .cmp gA .i32 .un 0 0 0, .cmpi gA .ord 0 0 0, .vpack gA .i64 0 0 0, .vpack gA .i8 0 0 0,
      .vunpkl gA .i32 0 0, .vunpkh gA .i32 0 0, .vdot gA .i32 0 0 0, .vcmp gA .i8 .un 0 0 0, .vcmp gA .f32 .tst 0 0 0,
      .icvtf gA .i32 .rne false .i32 0 0, .icvtf gA .f32 .rne false .f32 0 0, .fcvt gA .i32 .rne false .f32 0 0,
      .fcvt gA .f32 .rne false .i32 0 0, .fcvt gA .f16 .rne true .f32 0 0, .fcvt gA .bf16 .rtz true .f32 0 0,
      .fcvti gA .f32 .rne false .f32 0 0, .fcvti gA .i32 .rne false .i32 0 0, .ld gA .d true 0 0 0, .ld gA .q true 0 0 0,
      .ld gA .q false 1 0 0, .st gA .q 1 0 0, .ldOrd .w .rel .core 0 0, .ldOrd .w .rlx .recov 0 0, .ldOrd .q .rlx .core 1 0,
      .ldOrdSigned .d .rlx .core 0 0, .ldOrdSigned .w .rel .core 0 0] = true := by decide
-- R34 to R48: the other operand checks
theorem test_ill_formed_other_2 : allBad
    [.ldOrdSigned .w .rlx .recov 0 0, .stOrd .w .acq .core 0 0, .stOrd .w .rlx .recov 0 0, .stOrd .q .rlx .core 0 1,
      .ldt .i8 .i8 .rne 0 0 0, .ldt .z8 .f32 .rne 0 0 0, .ldt .fp4 .f32 .rne 0 0 0, .ldt .bf16 .bf16 .rne 0 0 0,
      .ldt .i8 .i16 .rne 0 0 1, .ldt .e5m2 .f16 .rup 0 0 0, .stt .z8 .i32 .rne false 0 0 0, .stt .e4m3 .f32 .rne false 0 0 1,
      .stt .i8 .i32 .rtz false 0 0 0, .stt .i8 .i32 .rne true 0 0 0, .stt .e4m3 .f32 .rtz true 0 0 0, .amoAdd .f64 .rlx .core 0 0 0,
      .amoAdd .i32 .acq .recov 0 0 0, .amoAnd .f64 .rlx .core 0 0 0, .amoAnd .i32 .acq .recov 0 0 0, .amoOr .f64 .rlx .core 0 0 0,
      .amoOr .i32 .acq .recov 0 0 0, .amoXor .f64 .rlx .core 0 0 0, .amoXor .i32 .acq .recov 0 0 0, .amoMin .f64 .rlx .core 0 0 0,
      .amoMin .i32 .acq .recov 0 0 0, .amoMax .f64 .rlx .core 0 0 0, .amoMax .i32 .acq .recov 0 0 0, .amoMinu .f64 .rlx .core 0 0 0,
      .amoMinu .i32 .acq .recov 0 0 0, .amoMaxu .f64 .rlx .core 0 0 0, .amoMaxu .i32 .acq .recov 0 0 0, .amoSwap .f64 .rlx .core 0 0 0,
      .amoSwap .i32 .acq .recov 0 0 0, .amoCas .f64 .rlx .core 0 0 0, .amoCas .i32 .acq .recov 0 0 0, .amoCas128 .rlx .recov 0 0 0,
      .amoCas128 .rlx .core 1 0 0, .amoCas128 .rlx .core 0 0 1, .amoFadd .i64 .rlx .core 0 0 0,
      .amoFadd .f32 .acq .recov 0 0 0] = true := by decide
-- R34 to R48: the other operand checks
theorem test_ill_formed_other_3 : allBad
    [.amoFmin .i64 .rlx .core 0 0 0, .amoFmin .f32 .acq .recov 0 0 0, .amoFmax .i64 .rlx .core 0 0 0, .amoFmax .f32 .acq .recov 0 0 0,
      .redAdd .f64 .rlx .core 0 0, .redAdd .i32 .rlx .recov 0 0, .redAdd .i32 .acq .core 0 0, .redAnd .f64 .rlx .core 0 0,
      .redAnd .i32 .rlx .recov 0 0, .redAnd .i32 .acq .core 0 0, .redOr .f64 .rlx .core 0 0, .redOr .i32 .rlx .recov 0 0,
      .redOr .i32 .acq .core 0 0, .redXor .f64 .rlx .core 0 0, .redXor .i32 .rlx .recov 0 0, .redXor .i32 .acq .core 0 0,
      .redMin .f64 .rlx .core 0 0, .redMin .i32 .rlx .recov 0 0, .redMin .i32 .acq .core 0 0, .redMax .f64 .rlx .core 0 0,
      .redMax .i32 .rlx .recov 0 0, .redMax .i32 .acq .core 0 0, .redMinu .f64 .rlx .core 0 0, .redMinu .i32 .rlx .recov 0 0,
      .redMinu .i32 .acq .core 0 0, .redMaxu .f64 .rlx .core 0 0, .redMaxu .i32 .rlx .recov 0 0, .redMaxu .i32 .acq .core 0 0,
      .redFadd .i64 .rlx .core 0 0, .redFadd .f32 .rlx .recov 0 0, .redFadd .f32 .acq .core 0 0, .redFmin .i64 .rlx .core 0 0,
      .redFmin .f32 .rlx .recov 0 0, .redFmin .f32 .acq .core 0 0, .redFmax .i64 .rlx .core 0 0, .redFmax .f32 .rlx .recov 0 0,
      .redFmax .f32 .acq .core 0 0, .fence .rlx .core, .mfs gA 0x009 0, .mfs gA 0x124 0] = true := by decide
-- R34 to R48: the other operand checks
theorem test_ill_formed_other_4 : allBad
    [.mts gA 0x009 0, .mts gA 0x124 0, .widF gA 0 0, .widF gA 7 0, .send gA 3 0 5, .qpop gA 0 1,
      .resume gA .replay 0 1] = true := by decide

/-! ## Witnesses: states and operands that meet the hypotheses of the statements -/

/-- An environment that no state gives. -/
def noEnv : Env := { site := 0, slot := 0, key := 0, line := Line.blank, core := Core.reset, ks := 0 }
/-- The context of a state that runs one. -/
def envOf (s : State) : Env := s.env?.getD noEnv
/-- A context whose fetched instruction is 4 bytes long: v1 = 0x10000, v2 a misaligned address, v3 one that is not canonical, and
v4 an even number; s0 = 9; p4 holds. -/
def tR : State :=
  { tState 32 1 [0, 0x10000#64, 0x10004#64, 0x0040000000000000#64, 6#64, 0x200#64] [9#64] 0x11#32 with flen := 4 }
/-- Its environment. -/
def tE : Env := envOf tR
/-- The context with privilege 0, and as a service thread of privilege 1 and of privilege 2. -/
def tUser : State := tR.modLine tKey fun l => { l with tsw := 0#64 }
/-- A service thread of privilege 1. -/
def tSvc : State := tR.modLine tKey fun l => { l with tsw := 0x11#64 }
/-- A service thread of privilege 2. -/
def tSvc2 : State := tR.modLine tKey fun l => { l with tsw := 0x12#64 }
/-- A guard on p1, which does not hold. -/
def gOff : Guard := ⟨false, 1⟩

theorem tR_env : tR.env? = some tE := by decide
theorem tR_runs : tR.Runs tE gA := ⟨by decide, by decide⟩
theorem tR_plain : tE.Plain := ⟨by decide, by decide, fun _ => rfl⟩
theorem good_address : goodAddr (tE.reg 1) 16 := And.intro (by decide) (by decide)

theorem witness_EncodeDecodeRoundTrip : (Instr.adds gA .i8 1 2 3).wellFormed = true ∧ (Instr.adds gA .i8 1 2 3).isEvent = false ∧
    (decodeBytes (leBytes 4 (encode (.adds gA .i8 1 2 3)) ++ [0#8])).toOption = some (.adds gA .i8 1 2 3) := by decide
theorem witness_StepKeepsMemory : tR.MemOk ∧ ∃ t, step tR = .next t :=
  ⟨by unfold State.MemOk; decide, _, rfl⟩
/-- The state after the slot is prepared, the fetched encoding, and the state that executes. -/
def tPrep : State := (tR.setCore tR.cur { tR.core tR.cur with turnAt := some tR.cycle }).slotPrepare tR.cur tR.slot
theorem witness_StepRunsDecoded : tR.agenda = [] ∧ tR.reg.powered = true ∧ tR.reg.failed = false ∧ (tR.core tR.cur).life = .active ∧
    (tR.core tR.cur).turnAt ≠ some tR.cycle ∧ tPrep.env? = some (envOf tPrep) ∧ (tPrep.env?.map (·.key)) = some tKey ∧
    ({ tPrep with fetched := 1#32, flen := 4 } : State).env? = some (envOf tPrep) ∧
    (tPrep.part (envOf tPrep).line.part).encSlot 1#32 4 (envOf tPrep).line.priv = none ∧ (envOf tPrep).run? = none ∧
    ({ tPrep with fetched := 1#32, flen := 4 } : State).lfsrHolds 0 (.add gA .i64 0 0 0) = false := by decide
theorem witness_StepRunsDecoded_fetch : tPrep.fetch (envOf tPrep) = .ok (tPrep, 1#32, 4) ∧ decodeWord 1 = .ok (.add gA .i64 0 0 0) := ⟨rfl, rfl⟩
theorem witness_FetchReadsCachedBytes : (match decodeWord 0xFFFFFFFF with | .error _ => true | .ok _ => false) = true ∧
    tE.line.pc.toNat % 64 = 0 ∧ ((tget (tR.core tE.site).icache (ikey tE.line.asid tE.line.pc.toNat)).map fun b => (b.length, leField b 0 2 % 2)) =
      some (64, 1) ∧
    ((tget ((tState 16 0x0600 [] [] 1#32).core 0).icache (ikey 0 0x100000)).map fun b => (b.length, leField b 0 2 % 2)) = some (64, 0) := by decide
theorem witness_GuardFails : tE.line.guard gOff = false ∧ guardOf (.seal gOff 1) = some gOff ∧ guardOfRest (.mts gOff 0x027 1) tE = some gOff ∧
    ((intLanes (.add gOff .i8 1 2 3)).map (·.guard)) = some (some gOff) ∧ ((wordEffect (.lea gOff 1 2 3 15)).map (·.guard)) = some (some gOff) ∧
    ((predEffect (.cmpi gOff .ntst 1 2 3)).map (·.1)) = some gOff ∧ ((transferOf (.brx gOff 1 2) tE).map (·.guard)) = some gOff := by decide
theorem witness_lanes : tE.line.guard gA = true ∧ (intLanes (.bext gA .i8 15 8 7)).isSome = true ∧ (Instr.bext gA .i8 15 8 7).wellFormed = true ∧
    (intLanes1 (.vunpkh gA .i8 15 8)).isSome = true ∧ (Instr.vunpkh gA .i8 15 8).wellFormed = true ∧ (lanes16 (.fmax16 .f16 15 8)).isSome = true ∧
    (Instr.fmax16 .f16 15 8).wellFormed = true ∧ (fpLanes (.vcmp gA .i8 .ntst 15 8 0)).isSome = true ∧
    (Instr.vcmp gA .i8 .ntst 15 8 0).wellFormed = true ∧ (convLanes (.fcvt gA .f16 .rdn false .f64 15 8)).isSome = true ∧
    (Instr.fcvt gA .f16 .rdn false .f64 15 8).wellFormed = true ∧ (longLanes (.fsqrt gA .f64 .rup 15 8)).isSome = true ∧
    (Instr.fsqrt gA .f64 .rup 15 8).wellFormed = true := by decide
theorem witness_WholeRegisters : (wordEffect (.movk 15 0xFFFF 3)).isSome = true ∧ (Instr.movk 15 0xFFFF 3).wellFormed = true ∧
    (wordEffect (.widF gA 6 1)).isSome = true ∧ (Instr.widF gA 6 1).wellFormed = true := by decide
theorem witness_Predicates : (predEffect (.fcmp gA .f64 .un 15 8 0)).isSome = true ∧ (Instr.fcmp gA .f64 .un 15 8 0).wellFormed = true ∧
    tE.core.trace.ctl.getLsbD 0 = false := by decide
theorem witness_RegisterFrame : ∃ t, exec (.add gA .i64 1 2 3) tR = .next t := ⟨_, rfl⟩
theorem witness_DivisionTruncates : signed 8 0x80 = -2 ^ 7 ∧ signed 8 0xFF = -1 ∧ divLane true 8 0x80 0xFF = (0x80, 0) ∧
    divLane true 8 0xF9 2 = (0xFD, 0xFF) ∧ divLane false 64 (2 ^ 64 - 1) 0 = (2 ^ 64 - 1, 2 ^ 64 - 1) := by decide
theorem witness_ControlTransfers : ((transferOf (.jmp gA 1) tE).map fun x => (x.byReg, x.target.toNat % 2)) = some (true, 0) ∧
    ((transferOf (.jmp gA 8) tE).map fun x => (x.byReg, x.target.toNat % 2)) = some (true, 1) ∧
    ((transferOf (.brx gA 3 0) tE).map fun x => (x.byReg, decide (2 ^ 54 ≤ x.target.toNat))) = some (true, true) ∧
    ((transferOf (.br gA 0) tE).map fun x => (x.byReg, x.target)) = some (false, tE.line.pc) := by decide
theorem witness_PaddAndTraps : (tE.reg 1 + tE.reg 2).toNat < 2 ^ 54 ∧ 2 ^ 54 ≤ (tE.reg 3 + tE.reg 0).toNat := by decide
theorem witness_StochasticConversion : (Instr.fcvt gA .bf16 .rne true .f64 1 2).wellFormed = true ∧ 64 / max 16 LaneType.f64.width = 1 ∧
    (Instr.fcvt gA .bf16 .rne true .f16 1 2).wellFormed = true ∧ 64 / max 16 LaneType.f16.width = 4 := by decide
theorem witness_YieldParkHaltTrace : tE.line.wk = false ∧ 2 ≤ tE.line.priv ∧
    (envOf (tR.modLine tKey fun l => l.setTsw 24 1 1)).line.wk = true ∧ (envOf tUser).line.priv < 2 := by decide
theorem witness_SystemRegisterRights : sysRow 0x009 = none ∧ sysRow 0x126 = none ∧ sysRow 0x000 = some (0, none) ∧ sysRow 0x027 = some (0, some 0) ∧
    sysRow 0x125 = some (2, none) ∧ sysRow 0x010 = some (1, some 2) ∧ (envOf tUser).line.priv < 1 ∧ (envOf tUser).line.mx = false := by decide
theorem witness_SystemRegisterReads : sysRow 0x10B = some (2, some 2) ∧ 2 ≤ tE.line.priv ∧ tR.tablePending tE.site 7 = false := by decide
theorem witness_SystemRegisterWrites : 2 ≤ tE.line.priv ∧ tE.line.mx = true ∧ (tR.cl (clusterOf tE.site)).t3swap.contains 7 = false ∧
    (match exec (.mts gA 0x123 1) tR with | .next t => (t.part 0).gsin | _ => 0#64) = 0x10000#64 := by decide
theorem witness_RequestsLeave : ∃ P ea kind k, requestOf (.ld gA .q false 4 1 0#8) tR tE = some (P, ea, kind, k) ∧ P :=
  ⟨_, _, _, _, rfl, And.intro (by decide) (by decide)⟩
theorem witness_RequestsLeave_typed :
    (∃ P ea kind k, requestOf (.ldt .fp4 .f32 .rne 7 1 5) tR tE = some (P, ea, kind, k) ∧ P) ∧
    ∃ P ea kind k, requestOf (.stt .fp4 .f32 .rne true 7 1 5) tR tE = some (P, ea, kind, k) ∧ P :=
  ⟨⟨_, _, _, _, rfl, And.intro (by decide) (by decide), fun _ => by decide, fun _ h => by cases h⟩,
    ⟨_, _, _, _, rfl, And.intro (by decide) (by decide), fun _ => by decide, fun _ h => by cases h⟩⟩
theorem witness_RequestsLeave_reserve : ∃ P ea kind k, requestOf (.ldrW 4 1) tR tE = some (P, ea, kind, k) ∧ P ∧ kind = 3 :=
  ⟨_, _, _, _, rfl, And.intro (by decide) (by decide), rfl⟩
theorem witness_Atomics : (atomicOf (.amoCas128 .sc .dev 2 1 4)).isSome = true ∧ (atomicOf (.redFmax .bf16x2 .rel .recov 1 4)).isSome = true ∧
    tE.line.pwc = 0 ∧ (envOf (tR.modLine tKey fun l => { l with pwc := 1 })).line.pwc ≠ 0 ∧ tR.flen = 4 := by decide
theorem witness_CoreWaits : tE.line.held = false ∧ (∃ P k cs act, waitOf (.fence .sc .recov) tR tE = some (P, k, cs, act) ∧ P) :=
  ⟨by decide, _, _, _, _, rfl, trivial⟩
theorem witness_CoreWaits_store : ∃ P k cs act, waitOf (.stOrd .q .rel .recov 1 4) tR tE = some (P, k, cs, act) ∧ P :=
  ⟨_, _, _, _, rfl, And.intro (And.intro (by decide) (by decide)) (Or.inl rfl)⟩
theorem witness_AddressFaults : checkedOf (.ld gA .d false 4 2 0#8) tE = some (0x10004#64, 8, 2) ∧ (0x10004#64 : Word).toNat % 8 ≠ 0 ∧
    checkedOf (.ldrW 4 3) tE = some (0x0040000000000000#64, 8, 5) ∧ 2 ^ 54 ≤ (0x0040000000000000#64 : Word).toNat := by decide
theorem witness_TakingAFault : tE.line.svc = false ∧ tSvc.env? = some (envOf tSvc) ∧ (envOf tSvc).line.svc = true ∧ (envOf tSvc).line.priv ≠ 2 ∧
    tSvc2.env? = some (envOf tSvc2) ∧ (envOf tSvc2).line.svc = true ∧ (envOf tSvc2).line.priv = 2 := by decide
theorem witness_TypedAccesses : captureNo .fp4 0x5C1FC#64 = some 5 ∧ (scaleRec 0xC1FC).rsv = 0 ∧ (scaleRec 0x0400).rsv = 1 ∧
    typedBytes .bf16 .f32 = 4 ∧ (tR.cl (clusterOf tE.site)).t3swap.contains 5 = false ∧ captureNo .bf16 0x5C1FC#64 = none := by decide
theorem witness_NoWaitRequests : tE.line.link = 0#64 ∧ 2 ^ 54 ≤ (tE.reg 3).toNat ∧ (∀ free, xinvFault free (tE.reg 1) 0xC0000#64 = none) ∧
    ∀ free, xinvFault free (tE.reg 1) 0#64 = none :=
  ⟨by decide, by decide, fun _ => rfl, fun _ => rfl⟩
/-- The context with the handles 3 OPEN and 4 SEALED, on 32 × 32 BF16 elements at 0x4000. -/
def tH : State := tSlot tR fun k => { k with handles := [(3, tHandle), (4, { tHandle with st := .sealed_ })] }
theorem witness_ScratchAccess : tH.env? = some (envOf tH) ∧ (envOf tH).kslot.handle 3 = some tHandle ∧
    ((envOf tH).kslot.handle 4).map (·.st) = some .sealed_ ∧ (tH.cl 0).uncheckedRow 0 0 3 5 = [] := by decide
-- chapter 07: `ldh` of row 5, element 8 reads offset 0x4150
theorem witness_ScratchAccess_element : elementAddr (envOf tH).kslot tHandle 0x0000000000050008#64 = .ok (0x4150, 5) ∧
    elementAddr (envOf tH).kslot tHandle 0x1F001C#64 = .ok (0x47F8, 31) := ⟨rfl, rfl⟩
/-- The context on a kernel whose share is the barriers 0 to 7, of which 1 is ACTIVE in phase 4 with a count of 2. -/
def tB : State :=
  let s := tSlot tR fun k => { k with barShare := 8 }
  s.modCore 0 fun c => { c with bars := [(1, { Bar.uninit with state := 1, phase := 4, expa := 2, expb := 0, lp := 4 })] }
theorem witness_BarrierInstructions : tB.env? = some (envOf tB) ∧ 7 < (envOf tB).kslot.barShare ∧ ((envOf tB).core.bar 7).state ≠ 1 ∧
    tB.barReading (envOf tB) 7 = false ∧ localConfigOk 0x4001000000000001#64 = true ∧ ((envOf tB).core.bar 1).state = 1 ∧
    ((envOf tB).core.bar 1).arra < ((envOf tB).core.bar 1).expa ∧ ((envOf tB).core.bar 1).phase = 4 ∧ (envOf tB).core.waiters.length < 1024 ∧
    wfld 0x8000000000010000#64 54 9 = 0 ∧ wfld 0x8000000000010000#64 0 6 = 0 := by decide
/-- The context with handles: 3 OPEN, 4 SEALED, 5 OPEN with 4 rows, 6 and 7 with one row or column, on the scratchpad. -/
def tE5 : State := tSlot tR fun k => { k with
  handles := [(3, tHandle), (4, { tHandle with st := .sealed_, offset := 0x8000 }), (5, { tHandle with rows := 4, offset := 0xC000 })] }
theorem witness_EngineIssue : tE5.env? = some (envOf tE5) ∧ tE5.flen = 4 ∧ (envOf tE5).line.guard gA = true ∧
    ((envOf tE5).reg 1).toNat < 2 ^ 54 ∧ ((envOf tE5).kslot.handle 5).map (fun x => (x.st, x.rows * x.rowBytes)) = some (.open_, 256) := by decide
theorem witness_EngineIssue_copy : ∃ x shape align, copyOf (.cpyG2t .core 3 1 0) (envOf tE5) = some x ∧
    copyPasses tE5 (envOf tE5) x shape align := by
  refine ⟨_, tHandle, 2, rfl, rfl, ?_, by decide, by decide, by decide, by decide, by decide⟩
  intro v h
  rcases h with h | h <;> cases h
  decide
theorem witness_EngineIssue_tile : (tileOf (.tvFma .rup 3 4 4)).map (fun x => (x.1, x.2.1, x.2.2.1, x.2.2.2.2.1)) = some (.fma, 3, 4, .rup) ∧
    (tvHandles (envOf tE5).kslot true 3 4 4).toOption.isSome = true ∧
    tvFormatBad .fma .rup false tHandle tHandle tHandle = false ∧ tvShapeBad .fma false tHandle tHandle tHandle = false := by decide
/-- The context with the handles of a dense matrix operation on K = 64, N = 8 and its slot 0 configured. -/
def tCfg : List Byte := [4, 4, 4, 0, 2, 0, 0, 0, 1, 0, 1] ++ List.replicate 21 0#8
def tA : Handle := { tHandle with rows := 2, cols := 4, fmt := 3 }
def tD : Handle := { tHandle with rows := 2, cols := 2, fmt := 1, offset := 0xC000 }
def tO : Handle := { tD with offset := 0x10000 }
/-- Slot 0 with a dense record of INT8, K = 4, N = 2 and INT32 accumulators, its B resident, and v6 = 2, the option word of two rows. -/
def tM : State :=
  let s := tSlot tR fun k => { k with handles := [(3, tA), (4, { tA with offset := 0x8000 }), (5, tD), (6, tO)] }
  let s := s.modLine tKey fun l => { l with v := l.v.set 6 2#64 }
  s.modCl 0 fun c => { c with account := 1000, mslots := [(0, tCfg)], sems := [(3, 1)], resB := some (loadB (tagOf 0 (mcfgOf tCfg)) [] [[1, 2, 3, 4], [5, 6, 7, 0xFF]] [[], []]) }
theorem witness_MatrixIssue : tM.env? = some (envOf tM) ∧ tM.flen = 4 ∧ (envOf tM).line.mx = true ∧ (tM.cl 0).macroOff = false ∧
    (tM.cl 0).t3swap.contains 0 = false ∧ isMx (.mmacs 0 3 5 6) = true ∧
    (envOf (tR.modLine tKey fun l => { l with tsw := 2#64 })).line.mx = false ∧ tgetD (tM.cl 0).sems 3 0 = 1 ∧ tgetD (tM.cl 0).sems 4 0 = 0 := by decide
theorem witness_MatrixIssue_mloadb : ∃ k no, matPasses (.mloadb 0 4) tM (envOf tM) k no :=
  ⟨_, _, mcfgOf tCfg, { tA with offset := 0x8000 }, by decide, ⟨by decide, by decide, by decide, by decide, by decide⟩, by decide, rfl, rfl⟩
theorem witness_MatrixIssue_mmac : ∃ k no, matPasses (.mmac 0 3 5 6) tM (envOf tM) k no :=
  ⟨_, _, mcfgOf tCfg, tA, tD, false, by decide, by decide, by decide, by decide, by decide, by decide,
    ⟨by decide, by decide, by decide, by decide, by decide⟩, ⟨by decide, by decide, by decide, by decide, by decide⟩, rfl, rfl⟩
theorem witness_MatrixIssue_mepi : ∃ k no, matPasses (.mepi 0 5 6 6) tM (envOf tM) k no :=
  ⟨_, _, mcfgOf tCfg, tD, tO, none, none, by decide, by decide, by decide, by decide, by decide, by decide, by decide,
    ⟨by decide, by decide, by decide, by decide, by decide⟩, ⟨by decide, by decide, by decide, by decide, by decide⟩, rfl, rfl, by decide, rfl, rfl⟩

/-- The context as an issuer. -/
def tWho : Who := { key := tKey, gen := 0, site := 0, slot := 0, ks := 0, part := 0, asid := 0, priv := 2, pc := 0x100000#64, enc := 1#32, len := 4 }
/-- The context waiting with a kind, and one message on its way, number 1. -/
def tMsg (wt : BitVec 32) (b : Body) : State := (tR.modLine tKey fun l => { l with wt := wt }).send (.slice 0) (.line tKey) 0 b
/-- The WT and PC of the context after a step of the device. -/
def lineOf {α : Type} (i : Instr) (s : State) (f : Line → α) : Option α := (after (exec i s) fun t => (t.line? tKey).map f).getD none

def tReply (d : Reg) : State := tMsg 0x10000001#32 (.reply tWho { regs := [(d, 7#64)], flags := Flags.none, p15 := none } false false 0)
theorem witness_AnswersReachLines : (tReply 7).answers tWho = true ∧ ((tReply 7).line? tKey).map (fun l => (l.heldFaults, l.wt, l.svc)) =
      some ([], 0x10000001#32, false) ∧ (tReply 7).bankGone tWho = false ∧
    (((tReply 7).core 0).ks.getD 0 KSlot.reset).s.length = 8 ∧ ((((tReply 7).core 0).ks.getD 0 KSlot.reset).stamps.getD 0 (0, 0)).1 ≠ 1 ∧
    lineOf (.loadReply 1) (tReply 7) (fun l => (l.v.getD 7 0#64, l.wt)) = some (7#64, 0#32) ∧
    after (exec (.sRegisterReply 1) (tReply 8)) (fun t => ((t.core 0).ks.getD 0 KSlot.reset).s.getD 0 0#64) = some 7#64 := by decide
theorem witness_AnswersReachLines_kinds :
    lineOf (.longOperationCompletion 1) (tMsg 0x90000001#32 (.longDone tWho 7 9#64 { Flags.none with nx := true }))
      (fun l => (l.v.getD 7 0#64, l.wt)) = some (9#64, 0#32) ∧
    lineOf (.writeAcknowledgement 1) ((tMsg 0#32 (.ack tWho 5 5 none false)).modLine tKey fun l => { l with pwc := 1 }) (·.pwc) = some 0 ∧
    lineOf (.durableAcknowledgement 1) ((tMsg 0#32 (.dack tWho 5 none true)).modLine tKey fun l => { l with pdc := 1 }) (·.pdc) = some 0 ∧
    lineOf (.faultAnswer 1) (tMsg 0x10000001#32 (.fault tWho { cls := 5, sub := 1, kind := 2, size := 3, faddr := 0x10000#64 } false false 0 none false))
      (fun l => (l.wt, l.pc, l.faddr)) = some (0x60000000#32, 0x100000#64, 0x10000#64) := by decide
theorem witness_AnswersReachLines_fault :
    (tMsg 0x10000001#32 (.fault tWho { cls := 5, sub := 1, kind := 2, size := 3, faddr := 0x10000#64 } false false 7 none false)).signalsOpen 7 = false ∧
    (tMsg 0#32 (.semPost 0 0 7)).signalsOpen 7 = true := by decide
theorem witness_AnswersReachLines_flags : let s := tMsg 0#32 (.opFlags tWho { Flags.none with nx := true } 7 (some (0, 3)))
    lineOf (.longOperationCompletion 1) s (·.pw) = some 0x10011#32 ∧
    after (exec (.longOperationCompletion 1) s) (fun t => t.net.map (·.body)) = some [.semPost 0 3 7] := by decide
theorem witness_AnswersReachLines_quiet : ∀ y ∈ (tMsg 0#32 (.ack tWho 5 5 none false)).net, ∀ g d v, y.body ≠ .inval 5 g d v := by
  intro y h g d v
  rw [List.mem_singleton.1 h]
  exact fun h => by cases h
/-- A mirror write that waits for die 0. -/
def tMir : State := tMsg 0#32 (.mirror tWho 5 0 none true)
theorem witness_MirrorWritesRetry : tMir.reg.resetDies.contains 0 = false ∧
    after (exec (.mirrorRetry 0) tMir) (fun t => t.net.map (·.body)) = some [.dack tWho 5 none true] := by decide

/-- A second context of the core's kernel, READY in a place, at priority `p` with a ready stamp. -/
def tTwo (pl : Place) (p stamp : Nat) : State :=
  match tR.line? tKey with
  | some l => tR.setLine 0x2001 { l with place := pl, bound := none, stamp := stamp, space := BitVec.ofNat 64 (p * 2 ^ 40), cid := 0x2001 }
  | none => tR
/-- The same with the first context unbound. -/
def tFree : State :=
  ((tTwo (.l1 0) 5 0).modLine tKey fun l => { l with bound := none, place := .mem, wt := mkWt 1 1 }).modCore 0 fun c => { c with bound := [] }
theorem witness_LinesMove : tFree.turnOpen 0 = true ∧ (tFree.slot, (tFree.core 0).life, tFree.running? 0 0, tFree.stopped 0, tget (tFree.core 0).bound 0) =
      (0, .active, none, false, none) ∧ (firstRanked tFree.gtime (tFree.eligible 0)).map (·.1) = some 0x2001 ∧
    ((tFree.eligible 0).all fun e => !e.2.bad) = true ∧
    after (exec (.lineBind 0 0) tFree) (fun t => tget (t.core 0).bound 0) = some (some 0x2001) := by decide
/-- An eligible line of priority 5 that has waited for the aging time, at 2^21 ns. -/
def tAged : State := { tTwo (.l1 0) 5 0 with cycle := 3000000 }
theorem witness_LinesMove_rotate : tAged.turnOpen 0 = true ∧ tAged.slot = 0 ∧ tAged.rotates 0 0 = true ∧ (tAged.running? 0 0).map (·.1) = some tKey ∧ (tAged.lines.all fun e => !e.2.bad) = true ∧
    agingNs ≤ tAged.gtime ∧ ((tAged.line? 0x2001).map (·.offered)) = some true ∧
    lineOf (.rotation 0 0) tAged (·.stamp) = some tAged.gtime ∧ lineOf (.priorityAging 0x2001) tAged (·.stamp) = some tAged.gtime := by decide
theorem witness_LinesMove_fill : let s := tTwo (.l2 0) 5 0
    (s.eligible 0).length < fillBelow ∧ (firstRanked s.gtime (s.fillable 0)).map (·.1) = some 0x2001 ∧
    (s.makeRoom 0 0 0 5).toOption.isSome = true ∧ after (exec (.contextFill 0) s) (fun t => (t.line? 0x2001).map (·.place)) = some (some (.l1 0)) := by decide
theorem witness_LinesMove_forward : let s := tTwo .mem 5 0
    ((s.line? 0x2001).bind s.forwardTo) = some 0 ∧ (s.linesIn (.l2 0)).length < l2Size ∧
    after (exec (.lineForward 0x2001) s) (fun t => (t.line? 0x2001).map (·.place)) = some (some (.l2 0)) := by decide
/-- The context in a wait of a kind with DLX = 3, 8 ns after its start. -/
def tLate (k : Nat) : State :=
  { (tR.modLine tKey fun l => { (l.setTsw 16 6 3) with wt := mkWt k 5, waitFrom := 0 }).modCl 0 fun c => { c with semWait := [{ sem := 5, key := tKey }] } with
    cycle := 12 }
theorem witness_WaitDeadlines : ((tLate 8).line? tKey).map (fun l => (l.life, l.dlx, l.svc, l.heldFaults, l.wtKind)) =
      some (.live, 3, false, [], 8) ∧ (tLate 8).gtime = 8 ∧ (tLate 8).resv = [] ∧ (tR.line? tKey).map (·.dlx) = some 0 := by decide
theorem witness_WaitDeadlines_kinds :
    lineOf (.waitDeadline tKey) (tLate 8) (fun l => (l.wt, wfld l.cause 0 8, wfld l.cause 8 8, l.faddr)) = some (0x60000000#32, 0x0B, 0x7F, 5#64) ∧
    lineOf (.waitDeadline tKey) (tLate 3) (fun l => (l.wt, wfld l.cause 0 8, wfld l.cause 8 8)) = some (0x60000000#32, 0x0A, 0x7F) ∧
    lineOf (.waitDeadline tKey) (tLate 10) (fun l => (l.wt, wfld l.cause 0 8, wfld l.cause 8 8)) = some (0x60000000#32, 0x0A, 0x7F) ∧
    lineOf (.waitDeadline tKey) { tLate 4 with cycle := 9 } (·.wt) = some (mkWt 4 5) := by decide
/-- A translation that permits everything, of class NORMAL. -/
def tLeaf : Leaf := { pa := 0x40000, cls := 0, peer := false, peerId := 0, mir := false, u := true, x := true, w := true, r := true, d := true }
/-- An access of the context. -/
def tAcc (ga : Nat) (k : ReqKind) : Acc := { w := tWho, va := ga, ga := ga, leaf := tLeaf, k := k, tok := 0, snooped := false }
/-- An access on its way to the home at cluster 0, message 1, its context waiting with WT given. -/
def tArr (wt : BitVec 32) (a : Acc) : State := (tR.modLine tKey fun l => { l with wt := wt }).send (.core 0) (.slice 0) 0 (.acc a)
/-- Nothing stands between message 1 and its home at cluster 0. -/
def tPass (s : State) (a : Acc) : Bool :=
  s.accMsg? 1 == some (0, a) && !(s.accWaits 0 a) && (s.accUnreached 0 a).isNone && (s.headerRefused a).isNone && s.gate 1 a == .pass

/-- The second context of `tTwo`, an acted-on context: parked with kind 7, or for a fault. -/
def tOther (wt : BitVec 32) (k : ReqKind) : State :=
  ((tTwo .mem 5 0).modLine 0x2001 fun l => { l with wt := wt, cause := W (2 * 2 ^ 27), tsw := 0x4000#64 }).send (.core 0) (.slice 0) 0 (.acc (tAcc (0x2001 * 128) k))
theorem witness_WakesAndResumes : tPass (tOther 0x70000000#32 .wake) (tAcc (0x2001 * 128) .wake) = true ∧
    tPass (tOther 0x60000000#32 (.resume .skip 0#64)) (tAcc (0x2001 * 128) (.resume .skip 0#64)) = true ∧
    ((tOther 0x60000000#32 .wake).line? 0x2001).map (fun l => (l.life, l.heldFaults, l.wtKind, decide (l.priv ≤ 2))) = some (.live, [], 6, true) ∧
    after (exec (.wakeApply 1) (tOther 0x70000000#32 .wake)) (fun t => (t.line? 0x2001).map fun l => (l.wt, l.wk)) = some (some (0#32, false)) ∧
    after (exec (.wakeApply 1) (tOther 0#32 .wake)) (fun t => (t.line? 0x2001).map fun l => (l.wt, l.wk)) = some (some (0#32, true)) ∧
    after (exec (.resumeApply 1) (tOther 0x60000000#32 (.resume .skip 0#64))) (fun t => (t.line? 0x2001).map fun l => (l.wt, l.pc, l.tnd)) =
      some (some (0#32, 0x100004#64, 0)) := by decide

/-- A migrating context whose home cluster is 1, which hosts its kernel on the core at its first site. -/
def tMigr : State :=
  let s := tR.modCore (siteOf 1 0) fun c => { c with ks := (tR.core 0).ks }
  let s := s.modLine tKey fun l => { l with wt := mkWt 1 1, bound := none }
  (s.modCore 0 fun c => { c with bound := [] }).send (.core 0) (.slice 1) 0 (.acc (tAcc 0x40000 .migr))
theorem witness_WakesAndResumes_migr : tMigr.accMsg? 1 = some (1, tAcc 0x40000 .migr) ∧ tMigr.accUnreached 1 (tAcc 0x40000 .migr) = none ∧
    tMigr.gate 1 (tAcc 0x40000 .migr) = .pass ∧ tMigr.clHosts 1 0 0 = true ∧ (1 : Nat) ≠ clusterOf 0 ∧
    lineOf (.migrateMove 1) tMigr (fun l => (l.wt, l.place, l.bound)) = some (0#32, .l2 1, none) := by decide
/-- The context's state with a message 1 to a slice. -/
def tCtl (b : Body) : State := tR.send (.core 0) (.slice 0) 0 b
/-- The same with a save area. -/
def tOut : State := tR.modPart 0 fun p => { p with gsout := 0x10000#64 }
theorem witness_RegisterSteps : after (exec (.srseedWrite 0 0#64) tR) (fun t => (t.core 0).lfsr) = some 1#32 ∧
    lineOf (.tswWrite tKey 0xFFFFFFFFFFFFFFFF#64) tUser (·.tsw) = some 0xFFFFFFFF00FF0010#64 ∧
    wfld (tOut.part 0).gsstat 0 2 = 0 ∧ (tOut.part 0).gsout ≠ 0#64 ∧ (tR.part 0).gsout = 0#64 ∧
    after (exec (.gswtWrite 0 9#64) tOut) (fun t => (wfld (t.part 0).gsstat 0 2, (t.part 0).gswt)) = some (1, 9#64) ∧
    after (exec (.ctblWrite 1) (tCtl (.ctbl 0 7 0x3000000000FF#64))) (fun t => (tgetD (t.cl 0).t3sel 7 0, ((t.cl 0).shadow 7)[12]?)) =
      some (3, some ⟨0xFF#8, 0#3⟩) ∧
    after (exec (.rcpWrite 1) (tCtl (.rcp tWho 7 0#64 false))) (fun t => ((t.part 0).stream 7).next) = some 1 ∧
    after (exec (.rcpWrite 1) (tCtl (.rcp tWho 7 0x8000000000000000#64 true))) (fun t => ((t.part 0).stream 7).next) = some 1 ∧
    (tCtl (.rcp tWho 7 0#64 false)).committing 0 7 2 = false := by decide

/-- The append home at cluster 0 with page 0x40 and its state there. -/
def tApp (x : Append) (k : ReqKind) : State :=
  ((tR.setApp 0x40 x).modLine tKey fun l => { l with wt := 0x10000001#32 }).send (.core 0) (.slice 0) 0 (.acc { tAcc 0x40000 k with leaf := { tLeaf with cls := 1 } })
def tApp0 : Append := { nx := 4088, segs := [], seals := [], replicas := [], reclaims := [], part := 0, mir := false }
def tEight : List Byte := List.replicate 8 7#8
/-- The same page SEALED, or marked for reclaim. -/
def tPage (st : Nat) (s : State) : State := s.setAdesc 0 0x40000 { tail := 0, state := st, repl := 0, rref := 0, bad := false } false
theorem witness_AppendSteps : tPass (tApp tApp0 (.apnd tEight 1)) { tAcc 0x40000 (.apnd tEight 1) with leaf := { tLeaf with cls := 1 } } = true ∧
    ((tApp tApp0 .seal).adesc 0 0x40000).bad = false ∧ ((tApp tApp0 .seal).adesc 0 0x40000).state = 0 ∧ tApp0.nx + tEight.length = 4096 ∧
    after (exec (.appendArrival 1) (tApp tApp0 (.apnd tEight 1))) (fun t => (tget t.appends 0x40).map (·.nx)) = some (some 4096) ∧
    after (exec (.appendArrival 1) (tApp { tApp0 with nx := 4089 } (.apnd tEight 1))) (fun t => (tget t.appends 0x40).map (·.nx)) = some (some 4089) ∧
    after (exec (.sealArrival 1) (tApp tApp0 .seal)) (fun t => (tget t.appends 0x40).map fun x => x.seals.length) = some (some 1) ∧
    ((tPage 1 (tApp tApp0 .seal)).adesc 0 0x40000).state = 1 ∧
    after (exec (.sealArrival 1) (tPage 1 (tApp tApp0 .seal))) (fun t => t.net.map (·.body)) = some [.reply tWho Answer.none false false 0] := by
  decide +kernel
theorem witness_AppendSteps_publish : let x := { tApp0 with segs := [{ off := 0, len := 8, who := tWho, dst := 1, grps := [] }], seals := [tWho] }
    tR.slDown (tR.homeAt 0 0x1000) = false ∧ tR.mirrorDown true 0 0x40 = false ∧ tR.openGroup 3 = false ∧
    after (exec (.tailPublish 0x40) (tR.setApp 0x40 x)) (fun t => ((tget t.appends 0x40).map fun y => y.segs.length, t.net.length)) = some (some 0, 1) ∧
    after (exec (.sealComplete 0x40) (tR.setApp 0x40 { x with segs := [] })) (fun t => ((tget t.appends 0x40).map fun y => y.seals.length, t.net.length)) =
      some (some 0, 1) ∧
    after (exec (.reclaim 0x40) (tR.setApp 0x40 { tApp0 with reclaims := [1] })) (fun t => (t.adesc 0 0x40000).state) = some 2 ∧
    after (exec (.reclaimComplete 0x40) (tPage 2 (tR.setApp 0x40 tApp0))) (fun t => (tget t.appends 0x40).map (·.nx)) = some (some 0) := by decide
/-- A load of a sealed page from die 1, which has a replica. -/
def tRep : State :=
  (tPage 1 (tR.setApp 0x40 { tApp0 with replicas := [(1, (0x50, 0))] })).send (.core 1024) (.slice 0) 0
    (.acc { tAcc 0x40000 (.load (.reg 1 8 false) 8 .rlx .core) with w := { tWho with site := 1024 }, leaf := { tLeaf with cls := 1 } })
theorem witness_AppendSteps_replica : (tRep.accMsg? 1).isSome = true ∧ dieOf 1024 ≠ dieOfCl (tRep.homeAt 0 0x1000) ∧ tRep.slDown 0 = false ∧
    tRep.adesc 0 0x40000 = { tail := 0, state := 1, repl := 0, rref := 0, bad := false } ∧ tget (tRep.app 0 0x40).replicas 1 = some (0x50, 0) ∧
    after (exec (.replicaMake 1) tRep) (fun t => t.net.length) = some 1 := by decide +kernel
/-- The same with no replica yet and a replica area of 512 frames on die 1 from frame 0x200 on. -/
def tRep1 : State := (tRep.setApp 0x40 tApp0).modPart 0 fun p => { p with repl := [0#64, 0x200001#64, 0#64, 0#64] }
theorem witness_AppendSteps_newReplica : tRep1.accWaits 0 { tAcc 0x40000 (.load (.reg 1 8 false) 8 .rlx .core) with w := { tWho with site := 1024 }, leaf := { tLeaf with cls := 1 } } = false ∧
    tRep1.accUnreached 0 { tAcc 0x40000 (.load (.reg 1 8 false) 8 .rlx .core) with w := { tWho with site := 1024 }, leaf := { tLeaf with cls := 1 } } = none ∧
    tRep1.mirrorDown false 0 0x40 = false ∧ (((tRep1.drop 1).setApp 0x40 tApp0).replicaFrame 0 1).map (·.2) = some 0x200 := by decide +kernel
/-- An invalidation of page 0x40000 at a slice and at a core that hold it. -/
def tXinv (d : Node) : State :=
  ((tR.modCl 0 fun c => { c with tcache := [(tkey 0 0x40000, { leaf := tLeaf, a := true, sealed_ := false })] }).modCore 0 fun c =>
    { c with icache := [(ikey 0 0x40000, [])] }).send (.core 0) d 0 (.xinv tWho 0 false false 0x40000 0x41000)
theorem witness_AppendSteps_xinv : ((tXinv (.slice 0)).msg? 1).isSome = true ∧
    after (exec (.xinvInvalidate 1) (tXinv (.slice 0))) (fun t => (t.cl 0).tcache.length) = some 0 ∧
    after (exec (.xinvInvalidate 1) (tXinv (.core 0))) (fun t => (t.core 0).icache.length) = some 0 ∧
    (tMsg (mkWt 1 2) (.xinvAck tWho 0 false 0x40000 0x41000)).answers tWho = true ∧
    lineOf (.xinvAck 1) ((tR.modLine tKey fun l => { l with wt := mkWt 1 2 }).send (.core 0) (.line tKey) 0 (.xinvAck tWho 0 false 0x40000 0x41000))
      (·.wt) = some (mkWt 1 1) := by decide

/-- A core's barrier 1 of the kernel's share, one arrival complete. -/
def tBar (f : Bar → Bar) : State := tB.modCore 0 fun c => { c with bars := [(1, f (c.bar 1))] }
def tBar3 : Bar := { (tB.core 0).bar 1 with arra := 3, expa := 2 }
theorem witness_BarrierPhases : let b := tBar3
    ((tBar fun _ => b).core 0).bar 1 = b ∧ b.state = 1 ∧ b.loc = false ∧ b.group = false ∧ b.thr = false ∧ b.expbc ≤ b.arrb ∧
    b.arra - b.expa < b.expa ∧ ((tBar fun _ => b).core 0).waiters = [] ∧
    (((tBar fun _ => b).runBar 0 1).core 0).bar 1 = { b with arra := 1, phase := 5 } := by decide
theorem witness_BarrierPhases_steps :
    lineOf (.barrierCompletion 1) (tMsg (mkWt 2 (63 * 2 ^ 22 + 65535)) (.barDone tKey 63 65535 true false)) (·.wt) = some 0#32 ∧
    tB.barPlace 0 0 0 1 = some 1 ∧ (tB.core 0).serves = true ∧ ((tB.core 0).bar 1).arra < ((tB.core 0).bar 1).expa ∧
    after (exec (.byteArrival 1) (tB.send (.engine 0) (.core 0) 0 (.bytes 0 0 0 1 (2 ^ 32 - 1) 0 0))) (fun t => ((t.core 0).bar 1).arrb) = some (2 ^ 32 - 1) ∧
    tB.barTurn 0 1 rankBytes = true ∧ tB.barTurn 0 1 rankNotif = true ∧
    after (exec (.notification (.message 1)) ((tBar fun b => { b with state := 0 }).send (.core 1) (.core 0) 0
      (.notif 0 { kid := 0, b := 1, round := 11, parity := 1, from_ := 1, fromPeer := none, to_ := none }))) (fun t => ((t.core 0).bar 1).rcv1) =
      some (2 ^ 11) ∧
    after (exec (.notificationNetReply 1) (tB.send (.core 1) (.core 0) 0
      (.notifNet 0 { kid := 0, b := 1, round := 0, parity := 0, from_ := 1, fromPeer := none, to_ := none }))) (fun t => ((t.core 0).bar 1).state) =
      some 2 := by decide +kernel
/-- A route to peer 5 over port 0, whose link is up, and core 0 at position 0 of its die. -/
def tRoute (s : State) : State :=
  { (s.modCore 0 fun c => { c with pos := some 0 }).setLink 100 { Link.reset with st := .up } with reg := { s.reg with routes := [(5, 0x80)] } }
theorem witness_BarrierPhases_peer : (tRoute tB).peerRoute 5 = true ∧ (tRoute tB).siteOfLogical 0 = some 0 ∧
    after (exec (.notification (.peer { to_ := 0, kid := 0, b := 1, round := 0, parity := 2, from_ := 7, dev := 5 }))
      (tRoute (tBar fun b => { b with state := 0 }))) (fun t => ((t.core 0).bar 1).rcv0) = some 1 := by decide +kernel
/-- A translation of the page of a virtual address to the frame 0x40000. -/
def tMap (va : Nat) (l : Leaf) (s : State) : State :=
  s.modCl ((s.part 0).tslice 0 va) fun c => { c with tcache := tset c.tcache (tkey 0 va) { leaf := l, a := true, sealed_ := false } }
/-- A group table of one member, the context's core, with 3 local arrivals and 64 bytes expected. -/
def tTab : State :=
  (tMap 0x40000 tLeaf (tArr 0x10000001#32 (tAcc 0x40000 (.groupTable 1)))).wr 0x40000 ([1, 0, 3, 0, 64, 0, 0, 0] ++ leBytes 4 (tR.logical 0))
theorem witness_BarrierPhases_table : tPass tTab (tAcc 0x40000 (.groupTable 1)) = true ∧ tTab.answers tWho = true ∧
    (match (tTab.drop 1).pull tWho .record 0x40000 12 with | .ok (_, bs) => tableIndex (tableMembers bs 1) (tR.logical 0) 3 64 | _ => none) = some 0 ∧
    after (exec (.groupTableRead 1) tTab) (fun t => (((t.core 0).bar 1).state, ((t.core 0).bar 1).expa, ((t.core 0).bar 1).expb)) = some (1, 3, 64) := by decide

/-- The package before power-up, with the same bytes in both firmware slots.  Whether they verify is an opaque constant. -/
def tDark : State := { State.reset with reg := { Regulator.reset with powered := false } }
theorem witness_BootSteps_unsigned (h : firmwareOk [] = false) : tDark.reg.chooseSlot = none := by
  show (if firmwareOk [] = true then _ else if firmwareOk [] = true then _ else _) = _
  rw [h]; rfl
theorem witness_BootSteps_signed (h : firmwareOk [] = true) : tDark.reg.chooseSlot = some (false, false) := by
  show (if firmwareOk [] = true then _ else if firmwareOk [] = true then _ else _) = _
  rw [h]; rfl
/-- Die 0, whose flood runs from its router 0, and a message of the flood on its way. -/
def tFlood (f : Flood → Flood) : State :=
  State.reset.setFlood 0 (f { Flood.reset with state := 1, routers := [(0, { parent := none, got := [], dones := [], sum := 0, sent := false, at_ := 0 })] })
theorem witness_BootSteps : ((tFlood id).flood 0).state = 1 ∧ 0 ∈ portsOf 1 ∧
    (((tFlood id).flood 0).router? (beyond 1 0)).map (·.parent) = some none ∧ (tFlood id).enabled 1 = true ∧
    after (exec (.probe 0 0 1) (tFlood id)) (fun t => (((t.flood 0).router? 1).map (·.parent), t.net.map (·.body))) =
      some (some (some 0), [.present 0 1]) ∧
    after (exec (.present 1) ((tFlood id).send (.core 1) (.core 0) 0 (.present 0 1023))) (fun t => (t.flood 0).present) = some [1023] ∧
    after (exec (.done 1) ((tFlood id).send (.core 1) (.core 0) 0 (.floodDone 0 0 2 1023))) (fun t =>
      (((t.flood 0).router? 0).map (·.sum))) = some (some 1023) := by decide
theorem witness_BootSteps_map : let s := tFlood fun f => { f with state := 2, present := [0], mapGo := [(0, 0)] }
    (s.flood 0).refusesMap 1 [0, 0xFFFF] = false ∧ (s.flood 0).refusesMap 1 [0, 0] = true ∧
    ((s.flood 0).write 0x10 (2 ^ 31 + 1) (2 ^ 31 + 1)).mapGo = [(0, 0), (0, 1)] ∧
    ((s.flood 0).write 0x10 (2 ^ 31 + 2) (2 ^ 31 + 2)).mapErr = true ∧ ((s.flood 0).write 0x20 (2 ^ 31 + 64) (2 ^ 31 + 64)).imgErr = true ∧
    ({ s.flood 0 with mapOk := true }.write 0x20 (2 ^ 31 + 64) (2 ^ 31 + 64)).imgGo = [(0, 64)] := by decide
/-- An image of 64 bytes, the stream of it at the clusters 63 and 0, and at a core. -/
def tImage (cl : Nat) (site : Option Nat) (data : List Byte) : State :=
  State.reset.send (.die 0) (.slice cl) 0 (.image 0 cl site (Config.sha256 data) 0 data 0)
theorem witness_BootSteps_image : let s := tFlood fun f => { f with imgGo := [(0, 64)], mapOk := true }
    after (exec (.imageStream 0) s) (fun t => (t.net.length, (t.flood 0).imgGo)) = some (1, []) ∧
    (tImage 63 none [1#8]).enabled (siteOf 63 15) = true ∧
    after (exec (.imageReceive 1) (tImage 0 none [1#8])) (fun t => t.net.length) = some 18 ∧
    after (exec (.imageReceive 1) (tImage 63 none [1#8])) (fun t => t.net.length) = some 16 := by decide
theorem witness_BootSteps_verified : (tImage 63 (some 1023) [1#8]).find? 1 = some (.image 0 63 (some 1023) (Config.sha256 [1#8]) 0 [1#8] 0) ∧
    ((tImage 63 (some 1023) [1#8]).flood 0).streams = 0 := ⟨rfl, rfl⟩
/-- A `cpy.t2t` from handle 5 to handle 3, two rows of 4 bytes, in the queue of cluster 0. -/
def tCopy : Copy :=
  { id := 7, who := tWho, op := .t2t, sc := .core, h := 3, hA := 5, src := 0, dst := 0, opt := 0#64, cw := none, rows := 2, cols := 4, fmt := 3,
    after := [], cid := tKey, started := false, srcRead := false, moved := 0, buf := [], recv := [], err := none }
def tInfo : OpInfo := { cls := .ts, copy := true, wenq := false, site := 0, key := tKey, kid := 0, dest := some (0, 3), cl := 0 }
/-- Handles 3 and 5 of two rows, the scratchpad of handle 5 holding 1 to 4, and copies in the queue. -/
def tCp (cs : List Copy) : State :=
  let s := tSlot tR fun k => { k with handles := [(3, tA), (5, { tA with offset := 0x8000 })] }
  let s := s.modCore 0 fun c => { c with scratch := memWrite c.scratch 0x8000 [1, 2, 3, 4] }
  { s.modCl 0 fun c => { c with copies := cs } with ops := [(7, tInfo)] }
theorem witness_CopySteps_accept :
    let s := ((tCp []).modLine tKey fun l => { l with wt := 0x90000001#32 }).send (.core 0) (.engine 0) 0 (.copyReq tCopy)
    (s.engineMsg? 1).isSome = true ∧ s.answers tWho = true ∧ tCopy.source = some 5 ∧
    ((s.core 0).ks.getD 0 KSlot.reset).handle 5 = some { tA with offset := 0x8000 } ∧ (s.cl 0).unchecked = [] ∧
    lineOf (.copyAccept 1) s (·.wt) = some 0#32 ∧
    after (exec (.copyAccept 1) s) (fun t => (((t.core 0).ks.getD 0 KSlot.reset).handle 5).map (·.refs)) = some (some 1) := by decide
theorem witness_CopySteps_start : let x := { tCopy with after := [8] }
    (tget (tCp [x]).ops 8).isSome = false ∧ (tget (tCp [{ x with after := [7] }]).ops 7).isSome = true ∧
    after (exec (.copyStart 0) (tCp [x])) (fun t => (t.cl 0).copies.map (·.started)) = some [true] ∧
    after (exec (.copyStart 0) (tCp [{ x with after := [7] }])) (fun t => (t.cl 0).copies.map (·.started)) = some [false] ∧
    after (exec (.copyStart 0) (tCp [{ tCopy with started := true }, x])) (fun t => (t.cl 0).copies.map (·.started)) = some [true, false] ∧
    after (exec (.copyStart 0) (tCp [{ tCopy with started := true, srcRead := true }, x])) (fun t => (t.cl 0).copies.map (·.started)) =
      some [true, true] := by decide
theorem witness_CopySteps_piece : let x := { tCopy with started := true }
    optMask x.opt = 0 ∧ (tCp [x]).rowUnchecked 0 x = false ∧ after (exec (.sourceReadComplete 0 7) (tCp [x])) (fun t =>
      (memRead (t.core 0).scratch 0x4000 4, (t.cl 0).copies.map (·.moved))) = some ([1, 2, 3, 4], [4]) := by decide
/-- A copy between handle 3 and global memory at 0x40000. -/
def tCpG (op : CpyOp) : State := tMap 0x40000 tLeaf ((tCp [{ tCopy with op := op, src := 0x40000, started := true }]).wr 0x40000 [9, 8, 7, 6])
theorem witness_CopySteps_global : let c : Copy := { tCopy with op := .t2g, src := 0x40000, started := true }
    (match (tCpG .g2t).copyRead tWho .core 0x40000 4 with | .ok (_, bs) => bs | _ => []) = [9, 8, 7, 6] ∧
    after (exec (.sourceReadComplete 0 7) (tCpG .g2t)) (fun t => (memRead (t.core 0).scratch 0x4000 4, (t.cl 0).copies.map (·.moved))) =
      some ([9, 8, 7, 6], [4]) ∧
    c.globalAt (tR.core 0) ((tCpG .t2g).core 0 |>.ks.getD 0 KSlot.reset) = 0x40000 ∧
    (match (tCpG .t2g).engCheck tWho (.engWrite false) [] (linesOf 0x40000 4) with
      | .ok v => v.pinRoom tWho (.engWrite false) (linesOf 0x40000 4)
      | _ => false) = true ∧
    after (exec (.sourceReadComplete 0 7) (tCpG .t2g)) (fun t => (t.cl 0).copies.map (·.moved)) = some [4] := by decide +kernel
/-- A multicast's bytes at core 0 for handle 3, or for a handle it has not. -/
def tCast (h : Nat) : State :=
  (tCp [{ tCopy with op := .g2t, started := true }]).send (.engine 0) (.core 0) 0 (.mcast 0 7 0 tWho h 2 4 3 [1, 2, 3, 4, 5, 6, 7, 8])
theorem witness_CopySteps_multicast : ((tCast 3).core 0).serves = true ∧ ((tCast 3).core 0).slotOf 0 0 = some 0 ∧
    ((tCast 3).core 0).ks.all (fun k => (k.handle 9).isNone) = true ∧
    after (exec (.multicastDelivery 1) (tCast 3)) (fun t => (memRead (t.core 0).scratch 0x4040 4, (t.cl 0).copies.map (·.recv))) =
      some ([5, 6, 7, 8], [[0]]) ∧
    after (exec (.multicastDelivery 1) (tCast 9)) (fun t => t.net.map (·.body)) =
      some [.fault tWho { cls := 0x08, sub := 0x07, kind := kEngine, size := 0xF, faddr := W 0xFFF } true false 0
        (some ({ tCopy with op := .g2t, started := true }.record tKey)) false] := by decide
theorem witness_CopySteps_complete :
    let x := { tCopy with started := true, srcRead := true, opt := 0x30000000000#64, cw := some 0x40000 }
    let s := tCp [x]
    s.writing 7 = false ∧ s.casting 0 x = false ∧ optBe x.opt = true ∧ optSe x.opt = true ∧
    after (exec (.copyComplete 0 7) s) (fun t => ((t.cl 0).copies, t.net.map (·.body))) =
      some ([], [.bytes 0 0 0 0 8 tKey 7, .req tWho 0x40000 (.engAdd .core 0) 7 false, .semPost 0 0 7]) := by decide
theorem witness_CopySteps_error : let f : Flt := { cls := 5, sub := 1, kind := 2, size := 3, faddr := 0#64 }
    tWho.key ≠ noKey ∧ after (exec (.copyError 0 7) (tCp [{ tCopy with err := some f }])) (fun t => ((t.cl 0).copies, t.net.length)) = some ([], 1) := by
  decide

/-- A tile vector operation on the handles of `tCp`: the source 5 into the destination 3, or a conversion from FP4. -/
def tTv (k : TvKind) (ha : Handle) : TvOp :=
  { id := 7, who := tWho, k := k, rm := .rne, sr := false, red := .add, all := false, d := 3, a := 5, b := 5, hd := tA, ha := ha, hb := ha,
    tab := [], tabNo := none, after := [] }
def tTvState (o : TvOp) (scale : List Byte) : State :=
  ((tCp []).modCore 0 fun c => { c with tvq := [o], scratch := memWrite c.scratch 0xC000 scale }) |>.modCl 0 fun c => { c with account := 1000 }
def tF4 : Handle := { tA with fmt := 10, rows := 1, cols := 32, offset := 0x8000, scoff := 0xC000 }
theorem witness_TileVectorSteps : let o := tTv .add { tA with offset := 0x8000 }
    let s := tTvState o []
    let k := (s.core 0).ks.getD 0 KSlot.reset
    (s.core 0).tvRun = none ∧ (s.core 0).serves = true ∧ tvScaleBad (s.core 0).scratch k o o.hd o.ha = false ∧ tvOverlap k o o.hd o.ha o.hb = false ∧
    tvOverlap k { o with a := 4 } o.hd o.hd o.hd = true ∧
    after (exec (.tvStart 0) s) (fun t => (t.core 0).tvRun.map (·.writes)) = some (some [(0x4000, [2, 4, 6, 8]), (0x4040, [0, 0, 0, 0])]) := by decide
theorem witness_TileVectorSteps_scale : let o := { tTv .cvt tF4 with hd := { tF4 with fmt := 6, offset := 0x4000 } }
    let s := tTvState o [0, 4]
    tvScaleBad (s.core 0).scratch ((s.core 0).ks.getD 0 KSlot.reset) o o.hd o.ha = true ∧
    after (exec (.tvStart 0) s) (fun t => ((t.core 0).tvq, t.net.length)) = some ([], 1) := by decide
theorem witness_TileVectorSteps_complete :
    let r : TvRun := { op := tTv .add tA, writes := [(0x4000, [9, 9])], flags := Flags.none, again := [2] }
    after (exec (.tvComplete ⟨0, true, 3⟩) ((tCp []).modCore 0 fun c => { c with tvRun := some r })) (fun t => ((t.core 0).tvRun.map (·.again), (t.core 0).life)) =
      some (some [3, 2], .active) ∧
    after (exec (.tvComplete ⟨0, true, 2⟩) ((tCp []).modCore 0 fun c => { c with tvRun := some r })) (fun t => (t.core 0).life) =
      some .containing ∧
    after (exec (.tvComplete ⟨0, false, 0⟩) ((tCp []).modCore 0 fun c => { c with tvRun := some r })) (fun t =>
      (memRead (t.core 0).scratch 0x4000 3, (t.core 0).tvRun, t.net.map (·.body))) = some ([9, 9, 0], none, [.opDone tWho Flags.none]) := by decide

/-- The context's kernel: priority 0, an arena header at 0x40000 with one frame, a context arena at 0x41000. -/
def tKer (frames : Nat) : Kernel :=
  { bootKernel 0 0x41000 with
    hdr := { parseHeader [] with priv := 2, framebase := 0x40000, framesize := 64 * (1 + frames), ctxbase := 0x41000, ctxlim := 1 } }
/-- The kernel and the translations of its arenas' pages, the arena header that offers frames from 0x40040 on. -/
def tKern (frames : Nat) : State :=
  let s := ((tMap 0x41000 { tLeaf with pa := 0x41000 } (tMap 0x40000 tLeaf tR)).modPart 0 fun p => { p with kernels := [tKer frames] })
  (s.wr 0x40000 (leBytes 8 0 ++ leBytes 8 0x40040)).modLine tKey fun l => { l with wt := 0x10000001#32, anchor := some 0, link := 0x40000#64 }
def tForkAcc : Acc := tAcc 0x40000 (.fork 0x100040#64 [1, 2, 3, 4])
def tFork (frames : Nat) : State := (tKern frames).send (.core 0) (.slice 0) 0 (.acc tForkAcc)
theorem witness_ForkAndJoinSteps : tPass (tFork 1) tForkAcc = true ∧ (tFork 1).forkRoom 0 0 = true ∧
    ((tFork 1).line? tKey).map (fun l => (l.gen, l.life, l.link, l.prio)) = some (0, .live, 0x40000#64, 0) ∧
    after (exec (.forkAllocate 1) (tFork 1)) (fun t => (t.cl 0).level 0 |>.map fun r => (r.tgt, r.fp, r.ja, r.resume)) =
      some [(0x100040, 0x40040, 0x40008, false)] ∧
    after (exec (.forkAllocate 1) (tFork 0)) (fun t => t.net.map fun y => match y.body with
      | .fault _ f _ _ _ _ _ => (f.cls, f.sub)
      | _ => (0, 0)) = some [(0x0A, 0x20)] := by decide +kernel
/-- A join at the frame 0x40040 with a count of live children. -/
def tJoin (k : ReqKind) (n : Nat) : State := ((tKern 1).wr 0x40048 (leBytes 8 n)).send (.core 0) (.slice 0) 0 (.acc (tAcc 0x40040 k))
theorem witness_ForkAndJoinSteps_join : tPass (tJoin .sync 0) (tAcc 0x40040 .sync) = true ∧ tPass (tJoin .exitJoin 1) (tAcc 0x40040 .exitJoin) = true ∧
    after (exec (.syncTest 1) (tJoin .sync 0)) (fun t => t.net.length) = some 1 ∧
    lineOf (.syncTest 1) (tJoin .sync 1) (·.wt) = some (mkWt 5 0) ∧ lineOf (.joinCompletion 1) (tJoin .exitJoin 1) (·.wt) = some (mkWt 5 0) ∧
    lineOf (.joinCompletion 1) (tJoin .exitJoin 0) (·.life) = some .exited := by decide +kernel
/-- A record in the queue of cluster 0, and an idle core there. -/
def tRec : Cont :=
  { resume := false, tgt := 0x100041, fp := 0x40040, ja := 0x40008, wid := 5#64, kid := 0, part := 0, anchor := 0, trg := false, since := 0,
    bindCode := 0, bindUnit := 0, slot := none }
def tPop (r : Cont) : State :=
  let s := (tKern 1).modLine tKey fun l => { l with bound := none, place := .mem }
  (s.modCore 0 fun c => { c with bound := [] }).modCl 0 fun c => { c with conts := [(0, [r])] }
theorem witness_ForkAndJoinSteps_pop : ((tPop tRec).cl 0).level 0 = [tRec] ∧ 1 ≤ contChip ∧ (tPop tRec).popTurn 0 0 = true ∧ (tPop tRec).poppable 0 0 = some (0, 0, tRec) ∧
    after (exec (.continuationPop 0 0) (tPop tRec)) (fun t => (t.line? (0x41000 / 128)).map fun l => (l.pc, l.wid, l.link, l.pw)) =
      some (some (0x100040#64, 5#64, 0x40040#64, 1#32)) ∧
    (tPop { tRec with resume := true, tgt := 9 }).lineOfCid 0 0 9 = none ∧
    after (exec (.resumeRecordPop 0 0) (tPop { tRec with resume := true, tgt := 9 })) (fun t => (t.cl 0).level 0) = some [] ∧
    after (exec (.resumeRecordPop 0 0) ((tPop { tRec with resume := true, tgt := ((tPop tRec).line? tKey).elim 0 (·.cid) }).modLine tKey fun l =>
      { l with wt := 0#32 })) (fun t => (t.line? tKey).map (·.place)) = some (some (.l1 0)) := by decide +kernel
/-- Two records at cluster 1, and a core of cluster 0 that hosts their kernel. -/
def tSteal : State := { (tPop tRec).modCl 0 fun c => { c with conts := [] } with clusters := [(1, { Cluster.reset with conts := [(0, [tRec, tRec])] })] }
theorem witness_ForkAndJoinSteps_steal : tSteal.poppable 1 0 = some (0, 0, tRec) ∧ tSteal.contFree 0 0 = true ∧
    after (exec (.recordSteal 0) tSteal) (fun t => ((t.cl 0).level 0).length) = some 1 ∧
    after (exec (.recordAging 1 0) { tSteal with cycle := 3000000 }) (fun t => ((t.cl 1).level 1).length) = some 1 := by decide +kernel
/-- An access of the context at 0x4001C, with eight bytes 1 to 8 in memory from 0x40018 on. -/
def tHome (k : ReqKind) : State := (tArr 0x10000001#32 (tAcc 0x4001C k)).wr 0x40018 [1, 2, 3, 4, 5, 6, 7, 8]
def tLd (o : Order) : ReqKind := .load (.reg 3 4 false) 4 o .core
/-- The same with a visitor copy of the line at die 0. -/
def tVis : State := { tHome (tLd .rlx) with visitors := [(vkey (0x4001C / 64) 0, (0, List.replicate 64 9#8))] }
theorem witness_HomeAccesses : tPass (tHome (tLd .rlx)) (tAcc 0x4001C (tLd .rlx)) = true ∧ tLeaf.cls = 0 ∧ tLeaf.peer = false ∧
    ((tHome (tLd .rlx)).cores.all fun e => e.2.stash.isEmpty) = true ∧ tget (tHome (tLd .rlx)).heldQ (0x4001C / 64) = none ∧
    tget (tHome (tLd .rlx)).visitors (vkey (0x4001C / 64) 0) = none ∧ plainLoad .rlx .core = true ∧ dieOf 0 = 0 ∧
    (tVis.drop 1).ownWritePending 1 (tVis.via (tAcc 0x4001C (tLd .rlx))) (0x4001C / 64) = false ∧
    after (exec (.homeAccess 1) (tHome (tLd .rlx))) (fun t => t.net.map (·.body)) =
      some [.reply tWho (loadResult (.reg 3 4 false) [5, 6, 7, 8]) false false 0] ∧
    after (exec (.homeAccess 1) tVis) (fun t => t.net.map (·.body)) =
      some [.reply tWho (loadResult (.reg 3 4 false) [9, 9, 9, 9]) false false 0] := by decide +kernel
theorem witness_HomeAccesses_writes :
    after (exec (.homeAccess 1) (tHome (.store [0xAA, 0xBB] .rel .dev))) (fun t => t.rd 0x40018 8) = some [1, 2, 3, 4, 0xAA, 0xBB, 7, 8] ∧
    after (exec (.homeAccess 1) (tHome (.eng [0xAA, 0xBB] .sys))) (fun t => t.rd 0x40018 8) = some [1, 2, 3, 4, 0xAA, 0xBB, 7, 8] ∧
    after (exec (.homeAccess 1) (tHome (.amo .add .i32 0xF8F9FAFB 0 (some 3) .rlx .core false))) (fun t => t.rd 0x40018 8) =
      some [1, 2, 3, 4, 0, 1, 1, 1] ∧
    after (exec (.homeAccess 1) (tHome (.amo .cas .i32 0 0 none .rlx .core false))) (fun t => t.rd 0x40018 8) = some [1, 2, 3, 4, 5, 6, 7, 8] := by
  decide +kernel
theorem witness_HomeAccesses_units :
    after (exec (.homeAccess 1) (tHome (.engAdd .core 9))) (fun t => t.rd 0x40018 8) = some [1, 2, 3, 4, 6, 6, 7, 8] ∧
    after (exec (.homeAccess 1) (tHome .pref)) (fun t => t.net.length) = some 0 ∧
    after (exec (.homeAccess 1) ((tHome .cinv).modCore 0 fun c => { c with owned := [{ asid := 0, va := 0x40000, leaf := tLeaf, ga := 0x1000, saved := [], dirty := false, writers := [] }] }))
      (fun t => ((t.core 0).owned.length, t.net.map (·.body))) = some (0, [.reply tWho Answer.none false false 0]) := by decide +kernel
/-- A request of the context for 0x40010, and what its slice's cache holds. -/
def tReq (l : Option Leaf) (k : ReqKind) (walking : Bool) : State :=
  let s := match l with
    | some l => tMap 0x40000 l tR
    | none => tR
  (s.modLine tKey fun x => { x with wt := 0x10000001#32 }).send (.core 0) (.slice 0) 0 (.req tWho 0x40010 k 0 walking)
theorem witness_TranslationSteps : ((tReq (some tLeaf) (tLd .rlx) false).reqMsg? 1).isSome = true ∧ (tLd .rlx).ownStep = false ∧
    (tReq none (tLd .rlx) false).unreached 0 0 = none ∧ ((tReq (some tLeaf) (tLd .rlx) false).tcheck 0 0 2 0x40010 (tLd .rlx).cat).isSome = true ∧
    (tReq none (tLd .rlx) false).placeVerdict tWho (tLd .rlx) tLeaf 0x40010 = none ∧ (tLd .rlx).silent = false ∧
    ((tReq none (tLd .rlx) false).walks 0 0 0x40010) = (0, false) ∧
    after (exec (.translate 1) (tReq (some tLeaf) (tLd .rlx) false)) (fun t => t.net.map (·.body)) = some [.acc (tAcc 0x40010 (tLd .rlx))] ∧
    lineOf (.translate 1) (tReq (some tLeaf) (.store [1] .rlx .core) false) (fun l => (l.wt, l.pdc)) = some (0#32, 0) ∧
    after (exec (.translate 1) (tReq (some { tLeaf with r := false }) (tLd .rlx) false)) (fun t => t.net.map fun y => match y.body with
      | .fault _ f _ _ _ _ _ => (f.cls, f.faddr)
      | _ => (0, 0#64)) = some [(0x05, 0x40010#64)] ∧
    after (exec (.translate 1) (tReq none (tLd .rlx) false)) (fun t => t.net.map fun y => match y.body with
      | .req _ _ _ _ w => w
      | _ => false) = some [true] := by decide +kernel
/-- An `stt` of 500.0 and -0.0 as E4M3 that reaches its slice. -/
def tSttK : ReqKind := .stt .e4m3 .f32 .rne false 0 [] none 0x8000000043FA0000#64
theorem witness_TypedAccesses_commit : let s := tReq (some tLeaf) tSttK false
    (s.reqMsg? 1).isSome = true ∧ s.unreached 0 0 = none ∧ s.pathWaits 0 0 = false ∧ (s.tcheck 0 0 2 0x40010 tSttK.cat).isSome = true ∧
    s.placeVerdict tWho tSttK tLeaf 0x40010 = none ∧ lineOf (.translate 1) s (fun l => (l.wt, l.pw)) = some (0#32, 0x50011#32) ∧
    after (exec (.translate 1) s) (fun t => t.net.map (·.body)) = some [.acc (tAcc 0x40010 (.store [0x7E, 0x80] .rlx .core))] := by decide +kernel
/-- Page tables: the ASID table's entry 0 at address 0 names the root at 0x50000; five levels lead to the page 0x40000. -/
def tTables (s : State) : State :=
  let s := s.wr 0 (leBytes 8 0x50001)
  let s := s.wr 0x50000 (leBytes 8 0x51001)
  let s := s.wr 0x51000 (leBytes 8 0x52001)
  let s := s.wr 0x52000 (leBytes 8 0x53001)
  let s := s.wr 0x53000 (leBytes 8 0x54001)
  s.wr (0x54000 + 8 * 0x40) (leBytes 8 (0x40000 + 0x3DD))
theorem witness_TranslationSteps_walk :
    (match (tTables (tReq none (tLd .rlx) true)).walk 0 0 2 0x40010 (tLd .rlx).cat with | .ok (_, l) => some l.pa | .error _ => none) = some 0x40000 ∧
    (match (tReq none (tLd .rlx) true).walk 0 0 2 0x40010 (tLd .rlx).cat with | .ok _ => none | .error f => some f) = some (4, 4) ∧
    after (exec (.pageWalk 1) (tReq none (tLd .rlx) true)) (fun t => t.net.length) = some 1 := by decide +kernel
theorem witness_TranslationSteps_inval :
    after (exec (.visitorInvalidate 1) (tVis.drop 1 |>.modPart 0 id)) (fun t => t.visitors.length) = some 1 ∧
    after (exec (.visitorInvalidate 1) ({ tVis with net := [], nextId := 1 }.send (.slice 0) (.die 0) 0 (.inval 5 (0x4001C / 64) 0 0))) (fun t =>
      t.visitors.length) = some 0 ∧
    after (exec (.ownerRecall 0 5) (tR.modCore 0 fun c => { c with owned := [{ asid := 0, va := 0, leaf := tLeaf, ga := 5, saved := [], dirty := false, writers := [] }] }))
      (fun t => (t.core 0).owned.length) = some 0 := by decide +kernel
def tOwn : ReqKind := .amo .add .i32 1 0 (some 3) .rlx .core true
theorem witness_TranslationSteps_owner : (tHome tOwn).ownable (tAcc 0x4001C tOwn) = true ∧ tPass (tHome tOwn) (tAcc 0x4001C tOwn) = true ∧
    0x4001C % 64 + amoBytes .i32 ≤ 64 ∧
    after (exec (.ownershipRequest 1) (tHome tOwn)) (fun t => ((t.core 0).owned.map (·.ga), t.net.map (·.body))) =
      some ([0x4001C / 64], [.reply tWho { Answer.none with regs := [(3, 0x08070605#64)] } false false 0]) := by decide +kernel
/-- A STASH handle over 0x40000 to 0x40FFF, a fill on its way, and a line of it that the core holds dirty. -/
def tStashK (k : ReqKind) : State :=
  (tSlot (tHome (.stashFill k)) fun x => { x with
    handles := [(3, { tHandle with st := .stash, rows := 1, cols := 4096, fmt := 3, pitch := 4096, sbase := 0x40000, asid := 0 })] })
def tSLine : StashLine := { asid := 0, va := 0x40000, ga := 0x1000, ks := 0, at_ := 0x4000, dirty := true, leaf := tLeaf, writers := [] }
theorem witness_TranslationSteps_stash : tPass (tStashK (tLd .rlx)) (tAcc 0x4001C (.stashFill (tLd .rlx))) = true ∧ (tStashK (tLd .rlx)).slDown 0 = false ∧
    (tStashK (tLd .rlx)).hostBias 0 0x4001C = false ∧ ((((tStashK (tLd .rlx)).core 0).stashHandle 0 0x4001C).map (·.1)) = some 0 ∧
    after (exec (.stashFill 1) (tStashK (tLd .rlx))) (fun t => ((t.core 0).stash.map (·.ga), t.net.map (·.body))) =
      some ([0x1000], [.reply tWho (loadResult (.reg 3 4 false) [5, 6, 7, 8]) false false 0]) ∧
    after (exec (.stashRecall 0 0x1000) (tR.modCore 0 fun c => { c with stash := [tSLine], scratch := memWrite c.scratch 0x4000 [7] })) (fun t =>
      (t.rd 0x40000 2, (t.core 0).stash)) = some ([7, 0], []) ∧ (tStashK (tLd .rlx)).stashKeeps tLeaf 0x4001C = true ∧ tR.pinCount 0x1000 = 0 ∧
    tR.unreached 0 (tR.homeAt 0 0x1000) = none := by decide +kernel

/-- An access that waits for its line of the host. -/
def tHostLine : Nat := gHost / 64
def tHostReq : State := tR.send (.core 0) (.slice 0) 0 (.hostReq tHostLine true (tAcc gHost (tLd .rlx)))
theorem witness_HostSteps : (tHostReq.hostReq? 1).isSome = true ∧ tHostReq.allPinned 0 tHostLine = false ∧
    after (exec (.hostResponse 1 [5] false) tHostReq) (fun t => (tget t.hostHeld tHostLine, memRead t.mem gHost 2, t.net.length)) =
      some (some .modified, [5, 0], 1) ∧
    after (exec (.hostResponse 1 [5] true) tHostReq) (fun t => t.net.length) = some 1 ∧
    after (exec (.hostCompletionTimeout 1) tHostReq) (fun t => t.net.length) = some 1 ∧
    after (exec (.snpInv gHost) { tHostReq with hostHeld := [(hostLine gHost, .modified)] }) (fun t => t.hostHeld) = some [] ∧
    after (exec (.snpData 0) { tHostReq with hostHeld := [(hostLine 0, .modified)] }) (fun t => t.hostHeld) = some [(hostLine 0, .shared)] := by
  decide +kernel
theorem witness_HostSteps_memory : tR.hostWaits 0x4003F 1 = false ∧ tR.cxl = true ∧ tR.slDown ((tR.part tR.hostPart).home 0x4003F) = false ∧
    tR.hostBias tR.hostPart 0x4003F = false ∧ ({ tR with cxl := false } : State).hostWaits 0x4003F 1 = false ∧
    (tR.modPart 0 fun p => { p with flip := some (0x40, 1) }).hostWaits 0x4003F 1 = true ∧
    after (exec (.hostMemAccess 0x4003F true [5]) (tR.modPart 0 fun p => { p with flip := some (0x40, 1) })) (fun t => t.net.map (·.body)) =
      some [.hostAcc 0x4003F true [5] true] ∧
    after (exec (.hostMemAccess 0x4003F true [5]) tR) (fun t => t.rd 0x4003F 2) = some [5, 0] ∧
    after (exec (.bar2Access 0x4003F true [5]) { tR with cxl := false }) (fun t => t.rd 0x4003F 2) = some [5, 0] ∧
    after (exec (.birsp 1 [6]) (tR.send (.slice 0) (.port 0) 0 (.bisnp 0x1000 true none))) (fun t => (memRead t.mem 0x40000 2, t.net)) =
      some ([6, 0], []) := by decide +kernel
/-- A page in host bias by its bit in the bias table at 0x60000, chosen for a flip. -/
def tBias (on : Bool) : State :=
  let s := tR.modPart 0 fun p => { p with biasbase := 0x60000#64, bfpage := 0x40000 }
  if on then s.wr (0x60000 + 0x40 / 8) [1] else s
theorem witness_HostSteps_flip : (match (tBias false).outerReady 0 [(0x60008, [1])] true with | .ok _ => true | _ => false) = true ∧ ((tBias true).part 0).bfctl.testBit 2 = false ∧ (tBias false).hostBias 0 0x40000 = false ∧
    (tBias true).hostBias 0 0x40000 = true ∧ (tBias true).hostHeld = [] ∧
    after (exec (.biasFlipHost 0) (tBias false)) (fun t => (t.part 0).flip) = some (some (0x40, 1)) ∧
    after (exec (.biasFlipDevice 0) (tBias true)) (fun t => ((t.part 0).flip, t.net.length)) = some (some (0x40, 0), 64) ∧
    after (exec (.flipComplete 0) ((tBias false).modPart 0 fun p => { p with flip := some (0x40, 1), bfctl := 6 })) (fun t =>
      ((t.part 0).flip, (t.part 0).icause)) = some (none, 2 ^ 16) ∧
    after (exec (.interruptCauseWrite 0 0x10000#64) (tR.modPart 0 fun p => { p with icause := 0x30000 })) (fun t => (t.part 0).icause) = some 0x20000 := by
  decide +kernel
theorem witness_HostSteps_registers : after (exec (.registerWrite 1 0x1000 8 0x40123#64) tR) (fun t => (t.part 0).bfpage) = some 0x40000 ∧
    after (exec (.registerWrite 16 0xF0038 8 7#64) tR) (fun t => leNat (memRead t.mem (vfTable 16 + 56) 8)) = some 7 := by decide +kernel
/-- A launch header of KID 1 at the entry 0x100000, with priority 0, privilege 2 and one context, at 0x41000. -/
def tHdr : List Byte :=
  leBytes 8 0x100000 ++ leBytes 2 1 ++ leBytes 2 0 ++ [0, 1, 0, 8] ++ List.replicate 64 0#8 ++ leBytes 8 0x41000 ++ leBytes 4 1 ++ List.replicate 164 0#8
/-- A header of KID 0, which breaks R269. -/
def tBad : List Byte := List.replicate 256 0#8
/-- The translations of some pages, each to the frame of its own address, bytes at 0x40000, and an access to them. -/
def tPages (s : State) : State :=
  [0x40000, 0x41000, 0x42000, 0x100000, 0].foldl (fun s va => tMap va { tLeaf with pa := va } s) s
def tHdrAcc (k : ReqKind) (bs : List Byte) : State := tPages ((tArr 0x10000001#32 (tAcc 0x40000 k)).wr 0x40000 bs)
theorem witness_KernelSteps : tPass (tHdrAcc .launch tHdr) (tAcc 0x40000 .launch) = true ∧
    (((tHdrAcc .launch tHdr).drop 1).homeRead 0 (tAcc 0x40000 .launch) ReqKind.launch.span).2 = tHdr ∧ headerOk tHdr = true ∧ headerOk tBad = false ∧
    after (exec (.launchAccept 1) (tHdrAcc .launch tHdr)) (fun t => ((t.part 0).kernels.map fun k => (k.hdr.kid, k.state), t.net.length)) =
      some ([(1, .queued)], 1) ∧
    after (exec (.launchAccept 1) (tHdrAcc .launch tBad)) (fun t => ((t.part 0).kernels.length, t.net.length)) = some (0, 1) := by decide +kernel
/-- A gang record for the header at 0x42000: level 1, one group on one core. -/
def tGangRec : List Byte := leBytes 8 0x42000 ++ [1, 1, 1, 1] ++ List.replicate 52 0#8
def tGangAcc : State := (tHdrAcc .gang tGangRec).wr 0x42000 tHdr
theorem witness_KernelSteps_gang : tPass tGangAcc (tAcc 0x40000 .gang) = true ∧ tGangAcc.answers tWho = true ∧
    after (exec (.launchAccept 1) tGangAcc) (fun t => ((t.line? tKey).map (·.wt), (t.part 0).kernels.map fun k => (k.gang.bind (·.who)).isSome)) =
      some (some (mkWt 10 0), [true]) := by decide +kernel
/-- Partition 0 of one quarter with the core at site 1 at position 1, and a queued kernel. -/
def tQueued (g : Option Gang) : State :=
  let k : Kernel :=
    { bootKernel 0 0x41000 with hdr := { parseHeader tHdr with hostmax := 1 }, state := .queued, gang := g }
  { (tR.modPart 0 fun p => { p with mask := 1, kernels := [k] }).modCore 1 fun c => { c with pos := some 1 } with cycle := 70000 }
def tGang : Gang := { level := 1, shw := 1, shh := 1, gidx := [0], who := some tWho, passed := false }
theorem witness_KernelSteps_place : ((tQueued none).nextPlaced 0).map (fun x => (x.1.hdr.kid, x.2)) = some (1, [1]) ∧ (tQueued none).stopped 0 = false ∧
    (((tQueued none).part 0).kernel? 1).map (fun k => (k.hdr.framesize, k.part, k.resolved)) = some (0, 0, true) ∧
    after (exec (.placeKernel 0) (tQueued none)) (fun t => (((t.part 0).kernel? 1).map (·.state), (t.core 1).slotOf 0 1)) =
      some (some .running, some 0) := by decide +kernel
theorem witness_KernelSteps_gangPlace : ((tQueued (some tGang)).nextPlaced 0).map (fun x => (x.1.hdr.kid, x.2)) = some (1, [1]) ∧
    after (exec (.gangPlace 0) (tQueued (some tGang))) (fun t => (((t.part 0).kernel? 1).map (·.hosts), t.net)) = some (some [1], []) := by decide +kernel
theorem witness_KernelSteps_wait : ((tQueued none).part 0).kernels.any (fun k => k.state == .queued && k.resolved && decide (k.since + 50000 ≤ (tQueued none).gtime)) = true ∧
    after (exec (.reservationPriority 0) (tQueued none)) (fun t => (t.part 0).reserve) = some (some 1) ∧
    lineOf (.gangGrant 1) (tMsg (mkWt 10 0) (.gangGrant tKey)) (·.wt) = some 0#32 ∧
    lineOf (.gangWithdraw 1) (((tQueued (some tGang)).modLine tKey fun l => { l with wt := mkWt 10 0 }).send (.placer 0) (.line tKey) 0 (.gangWithdraw tKey 1 0))
      (fun l => (l.wt, wfld l.cause 0 8, wfld l.cause 8 8)) = some (0x60000000#32, 0x0A, 0x7F) := by decide +kernel
/-- A running kernel with its nodes. -/
def tRun (seed : Bool) (st : KState) (n : TreeNode → TreeNode) (sites : List Nat) : State :=
  let k : Kernel :=
    { bootKernel 0 0x41000 with
      hdr := { parseHeader tHdr with seed := seed }, state := st, hosts := sites, nodes := sites.map fun c => n (TreeNode.new c)
      nextSeed := if st == .running then 0 else 1 }
  tPages (tR.modPart 0 fun p => { p with kernels := [k] })
theorem witness_KernelSteps_seed : (((tRun false .running id [0]).part 0).kernel? 1).map (fun k => (k.nextOrdinal, k.anchorOf 0)) = some (some 0, (0, 0, 0)) ∧
    (tRun true .running id [0]).contFree 0 0 = true ∧
    after (exec (.seedContext 0 1) (tRun true .running id [0])) (fun t => ((t.cl 0).level 0).map (·.tgt)) = some [0x100000] ∧
    after (exec (.seedContext 0 1) (tRun false .running id [0])) (fun t => (t.line? (0x41000 / 128)).map (·.pc)) = some (some 0x100000#64) := by decide +kernel
theorem witness_KernelSteps_gangSeed :
    after (exec (.seedContext 0 1) ((tRun true .running id [0]).modKernel 0 1 fun k => { k with gang := some tGang })) (fun t => t.net.map (·.body)) =
      some [.gangGrant tKey] ∧
    after (exec (.seedContext 0 1) ((tRun false .running id [0]).modKernel 0 1 fun k => { k with gang := some tGang })) (fun t => t.net.map (·.body)) =
      some [.gangGrant tKey] := by decide +kernel
/-- The same with every context seeded. -/
def tSeeded (n : TreeNode → TreeNode) (sites : List Nat) : State :=
  (tRun false .running n sites).modKernel 0 1 fun k => { k with nextSeed := 1 }
theorem witness_KernelSteps_tree : (((tSeeded id [0, 1]).part 0).kernel? 1).map (fun k => (k.seeded, childrenOf 1 k.nodes.length)) = some (true, []) ∧
    (tRun false .draining id [0, 1]).coreDone 0 1 1 = true ∧
    after (exec (.triggerEvent 1) ((tSeeded (fun n => { n with untrig := 1, live := 1 }) [0]).send (.core 0) (.core 0) 0 (.trigEvent 0 1 0 0)))
      (fun t => ((t.part 0).kernel? 1).map fun k => k.nodes.map (·.untrig)) = some (some [0]) ∧
    after (exec (.triggerMessage 0 1 1) (tSeeded id [0, 1])) (fun t => ((t.part 0).kernel? 1).map fun k => k.nodes.map (·.trigSent)) =
      some (some [false, true]) ∧
    after (exec (.triggerMessage 0 1 0) (tSeeded id [0])) (fun t => ((t.part 0).kernel? 1).map (·.state)) = some (some .triggered) ∧
    after (exec (.doneMessage 0 1 1) (tRun false .draining (fun n => { n with exits := 3 }) [0, 1])) (fun t =>
      ((t.part 0).kernel? 1).map fun k => k.nodes.map (·.exits)) = some (some [6, 3]) ∧
    after (exec (.doneMessage 0 1 0) (tRun false .draining (fun n => { n with exits := 3 }) [0])) (fun t => ((t.part 0).kernels.length)) = some 0 := by
  decide +kernel
/-- A graph object at 0x40000 with one kernel, its template at 0x42000 and its banks at 0x41000 and 0x41800. -/
def tGraph (gid busy : Nat) : List Byte :=
  leBytes 2 gid ++ [1, 0, 0, 0, 0, 0] ++ leBytes 8 0x42000 ++ leBytes 8 0x41000 ++ leBytes 8 0x41800 ++ List.replicate 16 0#8 ++ leBytes 1 busy ++
    List.replicate 15 0#8
def tGrun (gid busy : Nat) : State :=
  (tPages ((tArr 0x10000001#32 (tAcc 0x40000 (.grun 0x42800))).wr 0x40000 (tGraph gid busy))).wr 0x42000 tHdr
theorem witness_GraphAndRingSteps : tPass (tGrun 1 0) (tAcc 0x40000 (.grun 0x42800)) = true ∧ leField (((tGrun 0 0).drop 1).rd 0x40000 64) 0 2 = 0 ∧
    after (exec (.grunApply 1) (tGrun 0 0)) (fun t => t.net.map fun y => match y.body with | .fault _ f _ _ _ _ _ => f.sub | _ => 0) = some [0x12] ∧
    after (exec (.grunApply 1) (tGrun 1 1)) (fun t => t.net.map fun y => match y.body with | .reply _ a _ _ _ => a.p15 | _ => none) = some [some false] ∧
    after (exec (.grunApply 1) (tGrun 1 0)) (fun t => ((t.part 0).replays.map fun r => (r.obj, r.nk, r.bank))) = some [(0x40000, 1, 0)] := by
  decide +kernel
/-- A replay of one kernel whose header stands at 0x42000, and a ring 0 of 16 entries at 0x50000 with `d` packets. -/
def tReplay : State :=
  (tPages (tR.modPart 0 fun p => { p with replays := [{ obj := 0x40000, seq := 0, bank := 0, bankVa := 0x42000, nk := 1, asid := 0, priv := 2, next := 0, pending := [] }] })).wr
    0x42000 tHdr
def tRing (d : Nat) (bs : List Byte) : State :=
  let s := tPages (tR.modPart 0 fun p => { p with
    rings := [(0, { rbase := 0x50000, rctl := 2 ^ 28 + 4, rasid := 0, widx := d, ridx := 0, rstat := 0, privs := [] })] })
  (s.wr 0x50000 bs).wr 0x42000 tHdr
theorem witness_GraphAndRingSteps_ring : ((tRing 1 []).part 0).rings.map (fun r => (r.2.d, r.2.n, r.2.overrun)) = [(1, 4, false)] ∧
    (tRing 1 []).stopped 0 = false ∧ ((tRing 17 []).part 0).rings.map (fun r => decide (2 ^ r.2.n < r.2.d)) = [true] ∧
    after (exec (.graphReplay 0) tReplay) (fun t => ((t.part 0).kernels.map (·.replay), (t.part 0).replays.map (·.next))) =
      some ([some (0x40000, 0)], [1]) ∧
    after (exec (.ringConsume 0 0) (tRing 17 [])) (fun t => ((t.part 0).ring 0).overrun) = some true ∧
    after (exec (.ringConsume 0 0) (tRing 16 [])) (fun t => ((t.part 0).ring 0).ridx) = some 1 ∧
    after (exec (.ringConsume 0 0) (tRing 1 [0x80])) (fun t => fld ((t.part 0).ring 0).rstat 8 16) = some 0x040A ∧
    after (exec (.ringConsume 0 0) (tRing 1 ([1, 0, 0, 0, 0, 0, 0, 0] ++ leBytes 8 0x42000))) (fun t => (t.part 0).kernels.map (·.hdr.kid)) = some [1] ∧
    after (exec (.graphReplay 0) ((tReplay.modPart 0 fun p => { p with replays := p.replays.map fun r => { r with next := 1 } }).wr 0x40028 ([4] ++ List.replicate 7 0#8 ++ [1])))
      (fun t => ((t.part 0).replays.length, t.rd 0x40028 9)) = some (0, [5, 0, 0, 0, 0, 0, 0, 0, 0]) ∧
    after (exec (.ringDoorbell 0 15 (2 ^ 32 - 1)) tR) (fun t => ((t.part 0).ring 15).widx) = some (2 ^ 32 - 1) ∧
    after (exec (.ringReset 0 0 (2 ^ 31)) (tRing 17 [])) (fun t => ((t.part 0).ring 0).ridx) = some 17 := by decide +kernel
/-- A peer's ring 0, and an access-control entry that admits source 5 to it. -/
def tPeer (acl : Word) : State :=
  let s := tR.modPart 0 fun p => { p with
    rings := [(0, { rbase := 0x50000, rctl := 2 ^ 28 + 2 ^ 29 + 4, rasid := 0, widx := 15, ridx := 0, rstat := 0, privs := [] })] }
  { s with reg := { s.reg with acl := [(0, acl)] } }
theorem witness_GraphAndRingSteps_peer : parseAcl 0xB80008B#64 = { v := true, src := 5, rings := 1, kinds := 7, priv := 2 } ∧
    after (exec (.peerPacket 5 apertureBase (.write [1])) (tPeer 0#64)) (fun t => (t.reg.log.map fun x => (x.src, x.cls, x.sub), t.net.map (·.body))) =
      some ([(.link 5, 0x12, 0x22)], [.peerAnswer 0x22 []]) ∧
    after (exec (.peerPacket 5 apertureBase (.write (1 :: List.replicate 63 9#8))) (tPeer 0xB80008B#64)) (fun t => (t.rd (0x50000 + 64 * 15) 2, ((t.part 0).ring 0).widx)) =
      some ([1, 9], 16) ∧
    after (exec (.peerPacket 5 apertureBase (.write (1 :: List.replicate 63 9#8))) ((tPeer 0xB80008B#64).modPart 0 fun p =>
      { p with rings := p.rings.map fun r => (r.1, { r.2 with widx := 16 }) })) (fun t => t.net.map (·.body)) = some [.peerAnswer 0x21 []] := by decide +kernel
theorem witness_GraphAndRingSteps_memory : (match tR.outerReady 0 (splitLines 2 0x4003F [0]) true with | .ok t => t == tR | _ => false) = true ∧
    (match tR.outerReady 0 (splitLines 2 0x4003F [0]) false with | .ok t => t == tR | _ => false) = true ∧
    tR.slDown ((tR.part ((tR.parts.head?.map (·.1)).getD 0)).home 0x4003F) = false ∧
    after (exec (.peerPacket 5 0x4003F (.write [7])) tR) (fun t => (t.rd 0x4003E 3, t.net.map (·.body))) = some ([0, 7, 0], [.peerAnswer 0 []]) ∧
    after (exec (.peerPacket 5 0x4003F (.read 1)) (tR.wr 0x4003F [7])) (fun t => t.net.map (·.body)) = some [.peerAnswer 0 [7]] ∧
    after (exec (.peerPacket 5 hbmEnd (.read 1)) tR) (fun t => t.net.map (·.body)) = some [.peerAnswer 0x22 []] ∧
    after (exec (.peerPacket 5 (hbmEnd - 1) (.write [7, 7])) tR) (fun t => t.net.map (·.body)) = some [.peerAnswer 0x22 []] := by decide +kernel

/-- A queue of two entries at 0x41000 with its entries at 0x42000, by its kind, WIDX and descriptor address. -/
def tDesc (base kind log2n widx : Nat) : List Byte := leBytes 8 base ++ [BitVec.ofNat 8 log2n, BitVec.ofNat 8 kind, 0, 0, 0, 0, 0, 0] ++ leBytes 4 widx
def tWenq (kind widx : Nat) : State :=
  let s := (tPages (tR.modLine tKey fun l => { l with wt := 0x90000001#32 })).wr 0x41000 (tDesc 0x42000 kind 1 widx)
  s.send (.core 0) (.slice 0) 0 (.req tWho 0x40000 (.wenq [1, 2, 3, 4] .core 0x41000) 5 false)
theorem witness_QueueSteps : ((tWenq 0 0).reqMsg? 1).isSome = true ∧ (tWenq 0 0).unreached 0 0 = none ∧
    (match (tWenq 0 1).probeDesc tWho 0x41000 0 with | .ok (_, a, d) => some (d.check 0x41000 (fun k => k == 0) true, d.c, d.cap, a.ga) | _ => none) =
      some (none, 1, 2, 0x41000) ∧
    (tWenq 0 2).mayHold 0 ((tWenq 0 2).homeAt 0 (0x41000 / 64)) (0x41000 / 64) = true ∧
    after (exec (.wenqAccept 1) (tWenq 0 1)) (fun t => t.net.getLast?.map fun z => match z.body with | .wenqPush _ _ q e _ _ => (q, e.take 10) | _ => (0, [])) =
      some (some (0x41000, leBytes 8 0x40000 ++ [4, 0])) ∧
    after (exec (.wenqAccept 1) (tWenq 0 2)) (fun t => (tgetD t.heldQ (0x41000 / 64) []).length) = some 1 ∧
    after (exec (.wenqAccept 1) (tWenq 2 0)) (fun t => t.net.map fun y => match y.body with | .fault _ f _ _ _ _ _ => (f.cls, f.faddr) | _ => (0, 0#64)) =
      some [(0x0A, 0x41000#64)] := by decide +kernel
theorem witness_QueueSteps_push : after (exec (.wenqPush 1) (({ tWenq 0 1 with net := [], nextId := 1, ops := [(5, tInfo)] } : State).send (.slice 0) (.slice 0) 0
      (.wenqPush tWho 0x40000 0x41000 (leBytes 16 7) 5 none))) (fun t => ((t.desc 0x41000).widx, t.rd 0x42010 1, t.ops)) = some (2, [7], []) := by decide +kernel
/-- A message for the mailbox of the context, whose header stands at 0x100080, or for no mailbox. -/
def tSend (ga kind : Nat) (k : ReqKind) (pop : Option PopWait) : State :=
  let s := tPages (tR.modLine tKey fun l => { l with popWait := pop, wt := mkWt 4 0, bound := none })
  (s.wr 0x100080 (tDesc 0x100100 kind 4 0)).send (.core 0) (.slice 0) 0 (.acc { tAcc ga k with w := { tWho with key := 0x2001 } })
theorem witness_QueueSteps_send : tPass (tSend 0x100080 1 (.send [5]) none) { tAcc 0x100080 (.send [5]) with w := { tWho with key := 0x2001 } } = true ∧
    (((tSend 0x100080 1 (.send [5]) none).drop 1).mailboxLine { tWho with key := 0x2001 } 0x100080 0x100080).map (·.1) = some tKey ∧
    ((tSend 0x100080 1 (.send [5]) none).desc 0x100080).check 0x100080 (fun k => k == 1) true = none ∧
    after (exec (.sendDelivery 1) (tSend 0x200080 1 (.send [5]) none)) (fun t => t.net.length) = some 1 ∧
    after (exec (.sendDelivery 1) (tSend 0x100080 0 (.send [5]) none)) (fun t => t.net.map fun y => match y.body with
      | .fault _ f _ _ _ _ _ => f.cls
      | _ => 0) = some [0x0A] ∧
    lineOf (.sendDelivery 1) (tSend 0x100080 1 (.send [5]) (some { desc := 0x100080, who := tWho, dst := 0 })) (fun l => (l.v.getD 0 0#64, l.wt, l.pw.getLsbD 15)) =
      some (5#64, 0#32, true) := by decide +kernel
theorem witness_QueueSteps_status : let s := (tArr 0x10000001#32 (tAcc 0x41000 (.qstat 3))).wr 0x41000 (tDesc 0x42000 0 1 2)
    (s.desc 0x41000).bad 0x41000 = false ∧
    after (exec (.homeAccess 1) s) (fun t => t.net.map (·.body)) =
      some [.reply tWho { Answer.none with regs := [(3, 0x201000002#64)] } false false 0] ∧
    after (exec (.homeAccess 1) ((tArr 0x10000001#32 (tAcc 0x41000 (.qpush 9#64))).wr 0x41000 (tDesc 0x42000 0 1 2))) (fun t => t.net.map (·.body)) =
      some [.reply tWho { regs := [], flags := Flags.none, p15 := some false } false false 0] := by decide +kernel
/-- A `qpush` to a queue of two entries with one entry at 0x41000. -/
def tPush : State := (tPages (tArr 0x10000001#32 (tAcc 0x41000 (.qpush 9#64)))).wr 0x41000 (tDesc 0x42000 0 1 1)
theorem witness_QueueSteps_pushed : (tPush.desc 0x41000).check 0x41000 (fun k => k == 0) true = none ∧ tPush.room (0x41000 / 64) (tPush.desc 0x41000) 1 = true ∧
    tPush.heldQ = [] ∧ (match tPush.probe tWho .descPush ((tPush.desc 0x41000).entry 1) 16 true with
      | .ok u => ((u.line? (0x41000 / 128)).isNone, u.heldQ == [])
      | _ => (false, false)) = (true, true) ∧
    after (exec (.homeAccess 1) tPush) (fun t => ((t.desc 0x41000).widx, t.net.getLast?.map (·.body))) =
      some (2, some (.reply tWho { regs := [], flags := Flags.none, p15 := some true } false false 0)) := by decide +kernel
/-- A fault message on its way, without and with an array of service descriptors at 0x41000. -/
def tFaultMsg : FaultMsg :=
  { part := 0, desc := 0, cid := 0, cause := 0x0501#64, faddr := 0#64, core := 0, cookie := 0, record := none, key := none, priv := 0, svc := false }
def tService (svcq : Word) : State :=
  let s := (tPages (tR.modPart 0 fun p => { p with svcq := svcq })).wr 0x41000 (tDesc 0x42000 2 1 0)
  s.send (.core 0) (.desc 0) 0 (.msg tFaultMsg)
theorem witness_QueueSteps_fault : ((tService 0#64).part 0).faultSlot tFaultMsg = none ∧ (tgetD (tService 0#64).reg.kept 0 []).length < 256 ∧
    after (exec (.faultMessage 1) (tService 0#64)) (fun t => ((tgetD t.reg.kept 0 []).map (·.cause), (t.part 0).icause)) = some ([0x40000501#64], 2 ^ 17) ∧
    wfld 0x41000#64 11 43 ≠ 0 ∧
    after (exec (.faultMessage 1) (tService 0x41000#64)) (fun t => (t.desc 0x41000).widx) = some 1 := by decide +kernel

/-- A reserving load of the context at 0x40000 on its way, with a queue of `n` entries of other contexts at the line. -/
def tOtherWho : Who := { tWho with key := 0x2001 }
def tLdr (n : Nat) : State :=
  let e : ResvEntry := { who := tOtherWho, dst := 3, acc := { tAcc 0x40000 (.ldrw 3) with w := tOtherWho } }
  let s := tArr (mkWt 3 0) (tAcc 0x40000 (.ldrw 3))
  if n = 0 then s else { s with resv := [(0x1000, { entries := List.replicate n e, granted := false, since := 0 })] }
theorem witness_ReservationSteps : tPass (tLdr 0) (tAcc 0x40000 (.ldrw 3)) = true ∧ (tLdr 15).resvRefused (tAcc 0x40000 (.ldrw 3)) = none ∧ (tLdr 0).slDown 0 = false ∧ (tLdr 15).heads 0x1000 tKey = false ∧
    (((tLdr 15).drop 1).unreserve tKey).resv = (tLdr 15).resv ∧
    after (exec (.reservationEnqueue 1) (tLdr 15)) (fun t => (tget t.resv 0x1000).map (·.entries.length)) = some (some 16) ∧
    after (exec (.reservationEnqueue 1) (tLdr 16)) (fun t => t.net.map fun y => match y.body with | .fault _ f _ _ _ _ _ => (f.cls, f.sub) | _ => (0, 0)) =
      some [(0x0A, 0x01)] ∧
    after (exec (.reservationEnqueue 1) (tLdr 0)) (fun t => (tget t.resv 0x1000).map (·.entries.length)) = some (some 1) := by decide +kernel
/-- The same queue with this context at its head, granted, and another behind it. -/
def tLdr2 : State :=
  let e : ResvEntry := { who := tOtherWho, dst := 3, acc := { tAcc 0x40000 (.ldrw 3) with w := tOtherWho } }
  { tLdr 0 with resv := [(0x1000, { entries := [{ who := tWho, dst := 3, acc := tAcc 0x40000 (.ldrw 3) }, e], granted := true, since := 0 })] }
theorem witness_ReservationSteps_again : tLdr2.resvRefused (tAcc 0x40000 (.ldrw 3)) = none ∧ tLdr2.heads 0x1000 tKey = true ∧
    ((tLdr2.drop 1).unreserve tKey).resv = (tLdr2.unreserveAt 0x1000 tKey).resv ∧
    after (exec (.reservationEnqueue 1) tLdr2) (fun t => (tget t.resv 0x1000).map fun q => (q.entries.map (·.who.key), q.granted)) =
      some (some ([0x2001, tKey], false)) := by decide +kernel
/-- The context at the head of the line's queue, granted or not. -/
def tHead (granted : Bool) (since : Nat) : State :=
  let s := (tR.modLine tKey fun l => { l with wt := mkWt 3 0 }).wr 0x40000 [7]
  { s with resv := [(0x1000, { entries := [{ who := tWho, dst := 3, acc := tAcc 0x40000 (.ldrw 3) }], granted := granted, since := since })] }
def tStc (s : State) : State := s.send (.core 0) (.slice 0) 0 (.acc (tAcc 0x40000 (.stc 9#64)))
theorem witness_ReservationSteps_grant : (tHead false 0).slDown ((tHead false 0).homeAt 0 0x1000) = false ∧
    (tHead false 0).gate (tHead false 0).nextId (tAcc 0x40000 (.ldrw 3)) = .pass ∧ (tHead false 0).net = [] ∧
    lineOf (.reservationGrant 0x1000) (tHead false 0) (fun l => (l.v.getD 3 0#64, l.wt)) = some (7#64, 0#32) ∧
    tPass (tStc (tHead true 0)) (tAcc 0x40000 (.stc 9#64)) = true ∧ (tStc (tHead true 0)).heads 0x1000 tKey = true ∧
    after (exec (.conditionalStore 1) (tStc (tHead true 0))) (fun t => (t.rd 0x40000 1, tget t.resv 0x1000)) = some ([9], none) ∧
    after (exec (.conditionalStore 1) (tStc (tR.wr 0x40000 [7]))) (fun t => t.rd 0x40000 1) = some [7] ∧
    after (exec (.reservationTimeout 0x1000) { tHead true 0 with cycle := 2 ^ 20 }) (fun t => tget t.resv 0x1000) = some none ∧
    after (exec (.reservationTimeout 0x1000) { tHead true 0 with cycle := 2 ^ 20 - 1 }) (fun t => (tget t.resv 0x1000).isSome) = some true := by
  decide +kernel
/-- A flit of one message on network 0 from this package to a peer, or from die 0 to die 1. -/
def tFlit (dst : Nat) (poison : Bool) : FlitBody := { vn := 0, msg := 1, idx := 0, last := 0, src := 0, dst := dst, data := [0xAB], poison := poison }
/-- Direction 100, of a Troty port, in a state, with two flits in its replay buffer, of which the second is missing. -/
def tLink (st : LinkState) (f : Link → Link) : State :=
  tR.setLink 100 (f { Link.reset with st := st, txSeq := 7, rxSeq := 6, replay := [{ sq := 5, body := tFlit 0 false }, { sq := 6, body := tFlit 0 false }] })
/-- The same with an injector armed for one flit, of a kind, with a mask of one bit, and every flit accepted. -/
def tInj (ctl : Word) : State :=
  { tLink .up fun l => { l with rxSeq := 7 } with injectors := [(100, { Injector.reset with ctl := ctl, left := 1, mask := 1#64 })] }
theorem witness_LinkSteps : ((tLink .up id).link 100).flows = true ∧ (tInj 0x1#64).counts 100 (tFlit 0 false) = true ∧
    (tInj 0x1#64).sendable 100 (tFlit 0 false) = true ∧ ((tInj 0x1#64).link 100).held = none ∧
    crcGood 100 (disturb (flitWire 100 7 (tFlit 0 false)) 0 (leBytes 8 1)) = false ∧
    after (exec (.injctlWrite 100 0x5000000F1#64) tR) (fun t => ((t.inj 100).left, (t.inj 100).ctl)) = some (5, 0x500000001#64) ∧
    after (exec (.injectorFire ⟨100, tFlit 0 false⟩) (tInj 0x1#64)) (fun t => ((t.inj 100).fired, (t.inj 100).ctl.getLsbD 0, (t.link 100).corrected)) =
      some (1, false, 1) ∧
    after (exec (.injectorFire ⟨100, tFlit 0 false⟩) (tInj 0x5#64)) (fun t => ((t.link 100).replay.map (·.body.poison), (t.link 100).rxSeq)) =
      some ([false, false, true], 8) ∧
    after (exec (.injectorFire ⟨100, tFlit 0 false⟩) (tInj 0x20D#64)) (fun t => ((t.link 100).held, (t.link 100).rxSeq)) = some (some (7, 2), 7) := by
  decide +kernel
/-- Direction 0 of a die edge, with an access on its way whose flit is poisoned. -/
def tEdge : State := (tArr 0x10000001#32 (tAcc 0x40000 (.load (.reg 3 4 false) 4 .rlx .core))).setLink 0 { Link.reset with st := .up }
theorem witness_LinkSteps_receive : (tLink .up id).sendable 100 (tFlit 0 false) = true ∧ (tLink .up id).counts 100 (tFlit 0 false) = false ∧
    after (exec (.flitReceive 100 7 (tFlit 0 false) []) (tLink .up id)) (fun t => ((t.link 100).txSeq, (t.link 100).rxSeq, (t.link 100).corrected)) =
      some (8, 6, 1) ∧
    after (exec (.flitReceive 100 6 (tFlit 0 false) []) (tLink .up fun l => { l with resend := some 6 })) (fun t => (t.link 100).rxSeq) = some 7 ∧
    after (exec (.flitReceive 100 5 (tFlit 0 false) []) (tLink .up fun l => { l with resend := some 5 })) (fun t => (t.link 100).rxSeq) = some 6 ∧
    ((tLink .up id).link 100).comes 6 0 = false ∧ ((tLink .up fun l => { l with resend := some 6 }).link 100).comes 6 0 = true ∧
    after (exec (.flitReceive 100 6 (tFlit 0 false) [1]) (tLink .up fun l => { l with resend := some 6 })) (fun t => ((t.link 100).rxSeq, (t.link 100).corrected)) = some (6, 1) ∧
    after (exec (.flitReceive 0 0 (tFlit 1024 true) []) tEdge) (fun t => t.net.map fun y => match y.body with
      | .fault _ f _ _ _ _ _ => (f.cls, f.sub)
      | _ => (0, 0)) = some [(0x12, 0x23)] := by decide +kernel
theorem witness_LinkSteps_replay :
    after (exec (.replayRequest 100 6) (tLink .up fun l => { l with asked := true, again := true })) (fun t =>
      ((t.link 100).replay.map (·.sq), (t.link 100).fails)) = some ([5, 6], 1) ∧
    after (exec (.replayRequest 100 5) (tLink .up fun l => { l with asked := true, again := true })) (fun t => (t.link 100).fails) = some 0 ∧
    after (exec (.linkAck 100 5) (tLink .up id)) (fun t => (t.link 100).replay.map (·.sq)) = some [6] ∧
    after (exec (.replayTimeout 100) { tLink .up id with cycle := 4096 }) (fun t => (t.link 100).again) = some true ∧
    after (exec (.replayTimeout 100) { tLink .up id with cycle := 4095 }) (fun t => (t.link 100).again) = some false ∧
    after (exec (.linkRetrain 100) (tLink .up fun l => { l with fails := 16 })) (fun t => ((t.link 100).st, (t.link 100).replay.length)) = some (.training, 2) := by
  decide +kernel
theorem witness_LinkSteps_training :
    after (exec (.linkEnable 100) (tLink .down id)) (fun t => (t.link 100).st) = some .training ∧
    after (exec (.linkDisable 100) (tLink .faulted id)) (fun t => (t.link 100).st) = some .down ∧
    after (exec (.trainingComplete 100) { tLink .training id with cycle := 28000 }) (fun t => (t.link 100).st) = some .up ∧
    ({ tLink .training id with cycle := 28000 } : State).gtime = 20000 ∧
    after (exec (.trainingComplete 100) (tLink .training fun l => { l with bad := [3] })) (fun t => (t.link 100).st) = some .degraded ∧
    after (exec (.trainingTimeout 100) { tLink .training id with cycle := 28007 }) (fun t => ((t.link 100).st, t.reg.log.map fun x => (x.cls, x.sub))) =
      some (.faulted, [(0x12, 0x20)]) ∧
    after (exec (.laneDegrade 100 7) (tLink .up id)) (fun t => ((t.link 100).st, (t.link 100).bad)) = some (.degraded, [7]) ∧
    after (exec (.laneTrainingFailure 100 7) (tLink .training id)) (fun t => ((t.link 100).st, (t.link 100).bad)) = some (.degraded, [7]) ∧
    after (exec (.laneDegrade 100 6) (tLink .degraded fun l => { l with bad := [7] })) (fun t => (t.link 100).st) = some .faulted ∧
    after (exec (.laneTrainingFailure 100 6) (tLink .training fun l => { l with bad := [7] })) (fun t => (t.link 100).st) = some .faulted := by decide +kernel

/-- A matrix operation of the context, and the unit of `tM` with operations queued or running; A holds 1 to 4 and 5 to 8. -/
def tMop (k : MatKind) : MatOp := { id := 7, who := tWho, k := k, tab := [], tabNo := none, prev := none, after := [], seen := (tM.cl 0).judged k }
def tMac : MatKind := .mmac false 0 5 tA tD 2#64
def tMrun (k : MatKind) : MatRun := { op := tMop k, cfg := tCfg, row := 0, masks := [], masked := false, flags := Flags.none, err := none }
def tUnit (f : Cluster → Cluster) : State :=
  { (tM.modCore 0 fun c => { c with scratch := memWrite (memWrite c.scratch 0x4000 [1, 2, 3, 4]) 0x4040 [5, 6, 7, 8] }).modCl 0 f with ops := [(7, tInfo)] }
theorem witness_MatrixSteps_accept :
    let s := ((tUnit id).modLine tKey fun l => { l with wt := 0x90000001#32 }).send (.core 0) (.engine 0) 0 (.matReq (tMop tMac))
    (s.engineMsg? 1).isSome = true ∧ s.answers tWho = true ∧ lineOf (.matrixAccept 1) s (·.wt) = some 0#32 ∧
    after (exec (.matrixAccept 1) s) (fun t => (t.cl 0).mops.map (·.id)) = some [7] := by decide +kernel
theorem witness_MatrixSteps_again :
    let s := ((tUnit id).modLine tKey fun l => { l with wt := 0x90000001#32, pc := 0#64 }).send (.core 0) (.engine 0) 0
      (.matReq { tMop tMac with seen := (none, none) })
    ((none, none) : Option (List Byte) × Option BTag) ≠ (s.cl 0).judged tMac ∧ lineOf (.matrixAccept 1) s (fun l => (l.wt, l.pc)) = some (0#32, 0x100000#64) ∧
    after (exec (.matrixAccept 1) s) (fun t => ((t.cl 0).mops.length, t.ops)) = some (0, []) := by decide +kernel
theorem witness_MatrixSteps_start :
    ((tUnit id).cl 0).resB.map (·.tag) = some (tagOf 0 (mcfgOf ((tget ((tUnit id).cl 0).mslots 0).getD []))) ∧
    after (exec (.matrixOpStart 0) (tUnit fun c => { c with mops := [tMop tMac] })) (fun t => (t.cl 0).mrun.isSome) = some true ∧
    after (exec (.matrixOpStart 0) (tUnit fun c => { c with mops := [tMop tMac], resB := none })) (fun t => t.net.map fun y => match y.body with
      | .fault _ f _ _ _ _ _ => (f.cls, f.sub)
      | _ => (0, 0)) = some [(0x0B, 0x05)] ∧
    after (exec (.matrixOpStart 0) (tUnit fun c => { c with mops := [tMop (.mcfg 7 tCfg)] })) (fun t => (tget (t.cl 0).mslots 7).isSome) = some true ∧
    after (exec (.matrixOpStart 0) (tUnit fun c => { c with mops := [tMop (.ctswap 3)], t3swap := [3] })) (fun t => (tget (t.cl 0).swapOps 3, t.ops.length)) =
      some (some 7, 1) ∧
    after (exec (.matrixOpStart 0) (tUnit fun c => { c with mops := [tMop (.mloadb 0 tA)] })) (fun t => (t.cl 0).mrun.isSome) = some true ∧
    after (exec (.matrixOpStart 0) (tUnit fun c => { c with mops := [tMop (.mepi 0 5 6 tD tO none none 2#64 0)] })) (fun t => (t.cl 0).erun.isSome) =
      some true := by decide +kernel
theorem witness_MatrixSteps_run : (mcfgOf tCfg).bfmt = 4 ∧ matRows 2#64 = 2 ∧
    after (exec (.mloadbExecute 0) (tUnit fun c => { c with mrun := some (tMrun (.mloadb 0 tA)) })) (fun t => (t.cl 0).resB.map fun b => (b.cells, b.check.headD [])) =
      some (some ([[1, 2, 3, 4], [5, 6, 7, 8]], [6, 8, 10, 12])) ∧
    after (exec (.matrixPass 0) (tUnit fun c => { c with mrun := some (tMrun tMac) })) (fun t =>
      (memRead (t.core 0).scratch 0xC000 8, (t.cl 0).unchecked.map fun u => (u.p, u.q))) = some (leBytes 4 30 ++ leBytes 4 34, [(64, 64)]) ∧
    after (exec (.epilogueRow 0) ((tUnit fun c => { c with erun := some (tMrun (.mepi 0 5 6 tD tO none none 2#64 0)) }).modCore 0 fun c =>
      { c with scratch := memWrite c.scratch 0xC000 (leBytes 4 30 ++ leBytes 4 34) })) (fun t => memRead (t.core 0).scratch 0x10000 8) =
      some (leBytes 4 30 ++ leBytes 4 34) := by decide +kernel
/-- A sparse operation of K = 96 that waits for its two masks. -/
def tSp : MatRun := { tMrun (.mmac true 0 5 tA tD 2#64) with cfg := [4, 4, 96, 0, 2, 0, 1, 24, 1] ++ List.replicate 23 0#8 }
def tMask : List Byte := [0xFF, 0xFF, 0xFF, 0, 0, 0, 0xFF, 0xFF, 0xFF] ++ List.replicate 7 0#8
theorem witness_MatrixSteps_masks : (mcfgOf tSp.cfg).kk / 48 = 2 ∧ maskFault (mcfgOf tSp.cfg).spn (leNat tMask) = none ∧
    after (exec (.maskPop 0) (tUnit fun c => { c with mrun := some tSp, mqueues := [(0, [tMask])] })) (fun t => (t.cl 0).mrun.map fun r => (r.masks.length, r.masked)) =
      some (some (1, false)) ∧
    after (exec (.maskPop 0) (tUnit fun c => { c with mrun := some tSp, mqueues := [(0, [tMask, tMask, tMask])] })) (fun t =>
      ((t.cl 0).mrun.map fun r => (r.masks.length, r.masked), (tgetD (t.cl 0).mqueues 0 []).length)) = some (some (2, true), 1) := by decide +kernel
/-- A row whose check is outstanding. -/
def tUnchecked : Unchecked :=
  { opId := 7, site := 0, ks := 0, h := 5, row := 0, at_ := 0xC000, prior := [9], slot := 0, pc := 0x100000#64, epiH := none, failed := false, pending := false, redo := false,
    lost := false, p := 2 ^ 20 - 1, q := 2 ^ 20 - 1 }
theorem witness_MatrixSteps_check :
    after (exec (.passCheck 0 ⟨0, false, 0, 0⟩) (tUnit fun c => { c with unchecked := [tUnchecked] })) (fun t => (t.cl 0).unchecked.length) = some 0 ∧
    after (exec (.passCheck 0 ⟨1, false, 0, 0⟩) (tUnit fun c => { c with unchecked := [tUnchecked] })) (fun t =>
      ((t.cl 0).unchecked.map (·.pending), memRead (t.core 0).scratch 0xC000 1)) = some ([true], [9]) ∧
    after (exec (.passCheck 0 ⟨0, true, 3, 127⟩) (tUnit fun c => { c with unchecked := [{ tUnchecked with failed := true }] })) (fun t =>
      ((t.core 0).life, (t.cl 0).unchecked.map (·.lost))) = some (.containing, [true]) ∧
    lineOf (.heldRelease 0 tKey) ((tR.modLine tKey fun l => l.setTsw 5 1 1).modCore 0 fun c => { c with holders := [(tKey, [])] }) (·.held) = some false ∧
    after (exec (.matrixComplete 0) (tUnit fun c => { c with mrun := some { tMrun tMac with row := 2 } })) (fun t => ((t.cl 0).mrun.isSome, t.ops)) =
      some (false, []) ∧ (tUnit id).settled 0 (tMrun tMac) = true ∧
    after (exec (.matrixComplete 0) (tUnit fun c => { c with mrun := some { tMrun tMac with row := 2, flags := { Flags.none with nx := true } } })) (fun t =>
      t.net.map (·.body)) = some [.opFlags tWho { Flags.none with nx := true } 7 none] ∧
    after (exec (.matrixComplete 0) (tUnit fun c => { c with erun := some { tMrun (.mepi 0 5 6 tD tO none none 2#64 0) with row := 2 } })) (fun t =>
      ((t.cl 0).erun.isSome, t.ops)) = some (false, []) := by decide +kernel
theorem witness_MatrixSteps_units : (tUnit fun c => { c with t3swap := [3], mops := [{ tMop tMac with tabNo := some 3 }] }).captured 0 3 = true ∧ (tUnit fun c => { c with t3swap := [3] }).captured 0 3 = false ∧
    after (exec (.tableSwap 0 3) (tUnit fun c => { c with t3swap := [3], t3shadow := [(3, [⟨1, 1⟩])] })) (fun t => ((t.cl 0).t3swap, (t.cl 0).table 3)) =
      some ([], [⟨1, 1⟩]) ∧
    lineOf (.semaphoreGrant 1) (tMsg (mkWt 8 15) (.semGrant tKey 15)) (·.wt) = some 0#32 ∧
    after (exec (.engineSemaphorePost 1) ((tUnit fun c => { c with sems := [(3, 254)] }).send (.engine 0) (.engine 0) 0 (.semPost 0 3 7))) (fun t =>
      (tget (t.cl 0).sems 3, t.ops)) = some (some 255, []) ∧
    after (exec (.engineSemaphorePost 1) ((tUnit fun c => { c with sems := [(3, 255)] }).send (.engine 0) (.engine 0) 0 (.semPost 0 3 7))) (fun t => t.net.length) =
      some 1 ∧
    after (exec (.engineSemaphorePost 1) ((tUnit fun c => { c with semWait := [{ sem := 3, key := tKey }] }).send (.engine 0) (.engine 0) 0 (.semPost 0 3 7)))
      (fun t => t.net.map (·.body)) = some [.semGrant tKey 3] := by decide +kernel
-- R98, R211, R215: 1 × -128 + 127 × 2 - 126 = 0, 255 read as -1, and the two sums of the check
def tRow (kk : Nat) (col row acc : List Nat) : (List Nat × Flags) × Nat × Nat :=
  let c : MCfg := { mcfgOf tCfg with kk := kk, n := 1 }
  let b := loadB (tagOf 0 c) [] [col] [[]]
  let segs := rowSegs c [] [] row []
  (macRow c b segs acc, passP b segs, passQ b segs)
theorem witness_IntegerMatrixRow : tRow 2 [0x80, 2] [1, 0x7F] [0xFFFFFF82] = (([0], Flags.none), 126, 126) ∧
    tRow 1 [0xFF] [0xFF] [0] = (([1], Flags.none), 1, 1) := by decide +kernel
/-- A commit of stream 7 to 0x41000, a page of class REC, covering two lines at 0x40000. -/
def tCover : Word := 0x0080000000040000#64
def tCommit (cls va : Nat) : State :=
  let s := tMap 0x41000 { tLeaf with pa := 0x41000, cls := cls } (tMap 0x40000 { tLeaf with cls := 2 } tR)
  (s.modLine tKey fun l => { l with wt := 0x10000001#32 }).send (.core 0) (.slice 0) 0 (.req tWho va (.rcommit 7 tCover) 0 false)
theorem witness_RecoverySteps_cover : coverN tCover = 2 ∧ coverL tCover = 0x40000 ∧ ((tCommit 2 0x41000).reqMsg? 1).isSome = true ∧
    (match (tCommit 2 0x41000).xlate 0 0 2 0x41000 .commitW with | .ok (_, l) => l.cls | .error _ => 9) = 2 ∧
    (match (tCommit 2 0x41000).xlateCover tWho (coverPages tCover) with | .ok (_, ls) => ls.map fun y => y.2.durable | .error _ => []) = [true] ∧
    (tCommit 2 0x41000).pathWaits 0 0 = false ∧ (tCommit 2 0x41000).unreached 0 0 = none ∧
    after (exec (.commitRecord 1) (tCommit 2 0x41000)) (fun t => t.net.map fun y => match y.body with
      | .commit _ c => c.lines.map (·.1)
      | _ => []) = some [[0x40000, 0x40040]] := by decide +kernel
/-- The commit at the unit: its lines still to be read, its mark, the invalidations of its record, and dies under reset. -/
def tRun0 : CommitRun :=
  { va := 0x41000, ga := 0x41000, leaf := { tLeaf with cls := 2 }, st := 7, cover := tCover, lines := [], data := [], mark := none, grp := none, tok := 0 }
def tCommit2 (c : CommitRun) (dies : List Nat) : State :=
  let s := ((tCommit 2 0x41000).drop 1).send (.slice 0) .regulator 0 (.commit tWho c)
  { s with reg := { s.reg with resetDies := dies } }
def tMark : CommitRun := { tRun0 with mark := some (1, 0#64) }
theorem witness_RecoverySteps_busy : let s := (tCommit2 tRun0 []).send (.slice 0) .regulator 0 (.commit tWho tRun0)
    s.committing 0 7 3 = true ∧ s.committing 0 7 2 = false ∧ after (exec (.commitRecord 3) s) (fun t => t.net == s.net) = some true := by decide +kernel
theorem witness_RecoverySteps_read : let c := { tMark with lines := [(0x40040, { tLeaf with cls := 2 })] }
    (tCommit2 c []).unitWaits tWho .commitR c.leaf 0x40040 = false ∧ (tCommit2 c []).undurable 0x1001 = false ∧
    (tCommit2 c []).unreached 0 ((tCommit2 c []).unitHome tWho .commitR c.leaf 0x40040) = none ∧
    ((tCommit2 c [0]).unreached 0 ((tCommit2 c [0]).unitHome tWho .commitR c.leaf 0x40040)).isSome = true ∧
    after (exec (.commitRecord 2) (tCommit2 c [])) (fun t => t.net.map fun y => match y.body with
      | .commit _ c => (c.lines.length, c.data.length)
      | _ => (9, 9)) = some [(0, 64)] ∧
    after (exec (.commitRecord 2) (tCommit2 c [0])) (fun t => t.net.map fun y => match y.body with | .fault _ f _ _ _ _ _ => f.sub | _ => 0) = some [5] := by
  decide +kernel
theorem witness_RecoverySteps :
    after (exec (.commitRecord 2) (tCommit2 tRun0 [])) (fun t => (((t.part 0).stream 7).next, t.net.map fun y => match y.body with
      | .commit _ c => c.mark.map (·.1)
      | _ => none)) = some (((tR.part 0).stream 7).next + 1, [some ((tR.part 0).stream 7).next]) ∧
    after (exec (.commitRecord 2) (tCommit2 tMark [])) (fun t => (t.rdNat (0x41000 + 26) 2, ((t.part 0).stream 7).rcp)) =
      some (7, ((tR.part 0).stream 7).rcp) ∧
    after (exec (.commitRecord 2) (tCommit2 { tMark with grp := some 9 } [])) (fun t => ((t.part 0).stream 7).rcp) = some (W (2 ^ 63 + 0x41000)) ∧
    after (exec (.commitRecord 2) (tCommit2 { tMark with grp := some 9 } [1])) (fun t => ((t.part 0).stream 7).rcp) = some ((tR.part 0).stream 7).rcp ∧
    after (exec (.commitRecord 1) (tCommit 0 0x41000)) (fun t => t.net.map fun y => match y.body with | .fault _ f _ _ _ _ _ => f.sub | _ => 0) = some [2] ∧
    after (exec (.commitRecord 1) (tCommit 2 0x40060)) (fun t => t.net.map fun y => match y.body with | .fault _ f _ _ _ _ _ => f.sub | _ => 0) = some [3] := by
  decide +kernel
/-- A core with `n` corrected mismatches at time 0, and one in containment. -/
def tMism (n : Nat) : State := tR.modCore 0 fun c => { c with mism := List.replicate n 0 }
theorem witness_RecoverySteps_core : ((tMism 16).core 0).life = .active ∧ ((tMism 16).core 0).serves = true ∧
    after (exec (.mismatchThreshold 0) (tMism 16)) (fun t => (t.core 0).life) = some .containing ∧
    after (exec (.mismatchThreshold 0) (tMism 15)) (fun t => (t.core 0).life) = some .active ∧
    after (exec (.machineCheck 0 1 2 3 4 9#64) tR) (fun t => t.net.map fun y => match y.body with | .msg x => (x.desc, x.faddr) | _ => (1, 0#64)) =
      some [(0, 9#64)] ∧
    after (exec (.contain 0) (tR.modCore 0 fun c => { c with life := .containing })) (fun t => (t.core 0).bound) = some [] ∧
    after (exec (.containmentComplete 0) (tR.modCore 0 fun c => { c with life := .containing })) (fun t => (t.core 0).life) = some .contained ∧
    tR.reg.resetDies.contains 3 = false ∧ after (exec .powerLoss tR) (fun t => (t.reg.powered, t.lines, t.cores)) = some (false, [], []) := by decide +kernel

/-- A request in a mailbox, and partitions 0 and 1 of one quarter each. -/
def tBox (box code : Nat) (args : List Nat) : State :=
  let s := { tR with parts := [(0, Part.reset 1), (1, Part.reset 2)] }
  (s.modCore 0 fun c => { c with pos := some 0 }).send (.port 0) .regulator 0 (.reg box code args)
def tEnd (o : Out) (box : Nat) : Option Nat := after o fun t => (t.box box).stat
theorem witness_RegulatorSteps : (tBox 16 1 [1]).regReq? 1 1 = some (16, 0, [1]) ∧ (tBox 16 1 [1]).partEmpty 0 = true ∧ (tBox 16 1 [1]).partEmpty 1 = true ∧
    tEnd (exec (.merge 1) (tBox 15 1 [1])) 15 = some (3 + 5 * 256) ∧
    tEnd (exec (.merge 1) ((tBox 16 1 [1]).modPart 1 fun p => { p with kernels := [tKer 0] })) 16 = some (3 + 2 * 256) ∧
    (4 &&& 5 : Nat) = 4 ∧ (tget (tBox 16 2 [2, 4]).parts 2).isNone = true ∧
    tEnd (exec (.split 1) (tBox 15 2 [2, 4])) 15 = some (3 + 5 * 256) := by decide +kernel
theorem witness_RegulatorSteps_kernel : (((tBox 0 3 [0]).modPart 0 fun p => { p with kernels := [tKer 0] }).part 0).kernels.map (·.state) = [.running] ∧
    after (exec (.endKernel 1) ((tBox 0 3 [0]).modPart 0 fun p => { p with kernels := [tKer 0] })) (fun t => ((t.line? tKey).map (·.life), (t.box 0).stat)) =
      some (some .lost, 2) ∧ tEnd (exec (.endKernel 1) (tBox 0 3 [7])) 0 = some (3 + 5 * 256) := by decide +kernel
/-- Core 0 contained or halted. -/
def tCore (code : Nat) (life : CoreLife) : State := (tBox 16 code [0]).modCore 0 fun c => { c with life := life }
theorem witness_RegulatorSteps_core : (tCore 5 .contained).namedCore 16 0 = some 0 ∧ ((tCore 5 .contained).core 0).life = .contained ∧
    ((tCore 5 .contained).flood (dieOf 0)).state = 0 ∧
    after (exec (.restartCore 1 true) (tCore 5 .contained)) (fun t => ((t.core 0).life, (t.core 0).pos, (t.box 16).stat)) = some (.active, some 0, 2) ∧
    after (exec (.restartCore 1 false) (tCore 5 .contained)) (fun t => ((t.core 0).life, t.reg.retired)) = some (.retired, [0]) ∧
    after (exec (.restartCore 1 true) (tCore 5 .halted)) (fun t => (t.core 0).life) = some .active ∧
    tEnd (exec (.restartCore 1 true) (tCore 5 .active)) 16 = some (3 + 5 * 256) ∧
    after (exec (.retireCore 1) (tCore 6 .contained)) (fun t => (t.core 0).life) = some .retired ∧
    tEnd (exec (.retireCore 1) (tCore 6 .active)) 16 = some (3 + 5 * 256) := by decide +kernel
-- whether an image verifies is an opaque constant, so its clauses are witnessed under each answer
theorem witness_RegulatorSteps_images : (tBox 16 4 [0]).regReq? 1 4 = some (16, 0, [0]) ∧ inHbm 0 0x480 = true ∧ (tBox 16 4 [0]).quiet 0 = true ∧
    ((tBox 16 4 [0]).modPart 0 fun p => { p with kernels := [tKer 0] }).quiet 0 = false ∧
    tEnd (exec (.loadPatchImage 1) ((tBox 16 4 [0]).modPart 0 fun p => { p with kernels := [tKer 0] })) 16 = some (3 + 2 * 256) ∧
    (tBox 16 7 [0, 0x1000]).regReq? 1 7 = some (16, 0, [0, 0x1000]) ∧ inHbm 0 32 = true ∧ inHbm (hbmEnd - 31) 32 = false ∧
    (tBox 16 8 [0, 68]).regReq? 1 8 = some (16, 0, [0, 68]) ∧ inHbm 0 68 = true := by decide +kernel
theorem witness_RegulatorSteps_verify (bs : List Byte) : (signedOk patchKey bs = false → verifyImage bs 0 = .error rSignature) ∧
    (signedOk patchKey bs = true → leField bs 4 4 < 1 → verifyImage bs 1 = .error rVersion) := by
  constructor
  · intro h; simp [verifyImage, h]
  · intro h g; simp only [verifyImage, h]; simp [g]
theorem witness_RegulatorSteps_links :
    after (exec (.linkState 1) ((tBox 16 9 [3, 0]).setLink 7 { Link.reset with st := .faulted })) (fun t => ((t.link 7).st, (t.box 16).stat)) = some (.down, 2) ∧
    after (exec (.linkState 1) (tBox 16 9 [3, 1])) (fun t => ((t.link 6).st, (t.link 7).st)) = some (.training, .training) ∧
    tEnd (exec (.linkState 1) (tBox 16 9 [3, 2])) 16 = some (3 + 5 * 256) ∧
    after (exec (.objectSelect 5#64) tR) (fun t => t.reg.selector) = some 5#64 ∧
    after (exec (.thermalLimit 255 1840) tR) (fun t => ((t.cl 255).temp, t.reg.powered)) = some (1840, true) ∧
    after (exec (.thermalLimit 255 1841) tR) (fun t => t.reg.powered) = some false := by decide +kernel

/-- Partition 1 without cores under the boot ROM's tables, its switch asked for, with a save area. -/
def tSw (gsin gsstat : Nat) (area : Word) : State :=
  { tR with
    parts := tR.parts ++ [(1, { Part.reset 0 with
      rom := true, gsout := area, gsin := W gsin, gsstat := W gsstat, kernels := [{ tKer 0 with state := .queued }] })] }
theorem witness_SwitchSteps : (tSw 0 1 0x100000#64).ejectable 1 = true ∧ ((tSw 0 1 0x100000#64).part 1).gsstat.toNat % 4 = 1 ∧ (tSw 0 1 0x100000#64).finished 1 = true ∧
    (tSw 0 1 0x100000#64).areaOk 1 0x100000 (.engWrite false) (((tSw 0 1 0x100000#64).part 1).areaSize / 4096) = true ∧
    (tSw 0 1 0x007000000000#64).areaOk 1 0x007000000000 (.engWrite false) (((tSw 0 1 0x100000#64).part 1).areaSize / 4096) = false ∧
    (tSw 0x200000 1 0x100000#64).areaValid 1 ((tSw 0x200000 1 0x100000#64).areaGa 1 0x200000 .engRead) = false := by decide +kernel
theorem witness_SwitchSteps_switch :
    after (exec (.gangSwitch 1) (tSw 0 1 0x100000#64)) (fun t => ((t.part 1).gsstat.toNat % 4, (t.part 1).kernels.length, (t.part 1).saved.map fun v => v.2.kernels.length)) =
      some (3, 0, [1]) ∧
    after (exec (.gangSwitch 1) (tSw 0 1 0x007000000000#64)) (fun t => ((t.part 1).gsstat.toNat % 8, (t.part 1).kernels.length)) = some (4, 1) ∧
    after (exec (.gangSwitch 1) (tSw 0x200000 1 0x100000#64)) (fun t => ((t.part 1).gsstat.toNat % 8, (t.part 1).kernels.length)) = some (4, 1) := by
  decide +kernel
/-- A switch that has two ejected messages of 0 and 1 hops still to re-inject. -/
def tRound (ms : List Msg) : State := (tSw 0 2 0#64).modPart 1 fun p => { p with reinject := ms, round := [99] }
def tEject (id d : Nat) : Msg := { id := id, src := .slice 0, dst := .slice d, vn := 0, body := .joinDone 0 }
theorem witness_SwitchSteps_round : (tRound []).accepted 99 = true ∧ (tRound []).hopsOf (tEject 50 0) < (tRound []).hopsOf (tEject 51 1) ∧
    after (exec (.reinjectRound 1) (tRound [])) (fun t => (t.part 1).gsstat.toNat % 4) = some 3 ∧
    after (exec (.reinjectRound 1) (tRound [tEject 51 1, tEject 50 0])) (fun t => (t.net.map (·.id), (t.part 1).reinject.map (·.id))) = some ([50], [51]) ∧
    ({ tRound [tEject 51 1] with net := [tEject 99 0] } : State).accepted 99 = false := by decide +kernel
end

section
/-! O1: the decoder reads back what the encoder wrote. A word is built by adding one field after another; each field lands in bits that
are still clear, so that it can be read back while every other field keeps its value (R4, R28). -/

namespace Sys2Proof

open Machine

/-! ## A word as a union of fields -/

/-- The word `w` with the bits of `v` set from bit `lo` up: what `put` makes of a word whose field is still clear. -/
def setFld {k : Nat} (v : Fin (2 ^ k)) (lo w : Nat) : Nat := w ||| v.val <<< lo

theorem testBit_fld (w lo n i : Nat) : (fld w lo n).testBit i = (decide (i < n) && w.testBit (lo + i)) := by
  rw [fld, Nat.testBit_mod_two_pow, Nat.testBit_div_two_pow, Nat.add_comm]

theorem fld_or (x y lo n : Nat) : fld (x ||| y) lo n = fld x lo n ||| fld y lo n := by
  refine Nat.eq_of_testBit_eq fun i => ?_
  simp only [testBit_fld, Nat.testBit_or, Bool.and_or_distrib_left]

/-- A shifted value reads as itself in its own field. -/
theorem fld_shiftLeft_same {v k : Nat} (hv : v < 2 ^ k) (lo : Nat) : fld (v <<< lo) lo k = v := by
  rw [fld, Nat.shiftLeft_eq, Nat.mul_div_cancel _ (by positivity), Nat.mod_eq_of_lt hv]

/-- A shifted value has no bit in a field that lies apart from its own. -/
theorem fld_shiftLeft_apart {v k lo lo' n : Nat} (hv : v < 2 ^ k) (h : ¬ (lo < lo' + n ∧ lo' < lo + k)) :
    fld (v <<< lo) lo' n = 0 := by
  refine Nat.eq_of_testBit_eq fun i => ?_
  simp only [testBit_fld, Nat.testBit_shiftLeft, Nat.zero_testBit, Bool.and_eq_false_iff, decide_eq_false_iff_not]
  rcases Nat.lt_or_ge (lo' + i) (lo + k) with hi | hi
  · omega
  · exact .inr (.inr (Nat.testBit_lt_two_pow (hv.trans_le (Nat.pow_le_pow_right (by decide) (by omega)))))

@[simp] theorem fld_setFld_same {k : Nat} (v : Fin (2 ^ k)) (lo w : Nat) :
    fld (setFld v lo w) lo k = fld w lo k ||| v.val := by
  rw [setFld, fld_or, fld_shiftLeft_same v.isLt]

@[simp] theorem fld_setFld_apart {k lo lo' n : Nat} (h : ¬ (lo < lo' + n ∧ lo' < lo + k)) (v : Fin (2 ^ k)) (w : Nat) :
    fld (setFld v lo w) lo' n = fld w lo' n := by
  rw [setFld, fld_or, fld_shiftLeft_apart v.isLt h, Nat.or_zero]

/-- Adding a value at a clear field sets its bits and carries into no other. -/
theorem put_eq_setFld {v k lo w : Nat} (hv : v < 2 ^ k) (hw : fld w lo k = 0) :
    put v lo w = setFld (⟨v, hv⟩ : Fin (2 ^ k)) lo w := by
  have hr : w % 2 ^ lo < 2 ^ lo := Nat.mod_lt _ (by positivity)
  have hq : w / 2 ^ lo = 2 ^ k * (w / 2 ^ lo / 2 ^ k) := by
    have hdiv := Nat.div_add_mod (w / 2 ^ lo) (2 ^ k)
    rw [fld] at hw
    rw [hw, Nat.add_zero] at hdiv
    exact hdiv.symm
  generalize w / 2 ^ lo / 2 ^ k = q at hq
  have hw' : w = (2 ^ k * q) <<< lo + w % 2 ^ lo := by rw [← hq, Nat.shiftLeft_eq, Nat.div_add_mod']
  generalize w % 2 ^ lo = r at hr hw'
  subst hw'
  calc put v lo ((2 ^ k * q) <<< lo + r) = (2 ^ k * q + v) <<< lo + r := by simp only [put, Nat.shiftLeft_eq]; ring
    _ = (2 ^ k * q) <<< lo ||| v <<< lo ||| r := by
      rw [Nat.shiftLeft_add_eq_or_of_lt hr, Nat.two_pow_add_eq_or_of_lt hv, Nat.shiftLeft_or_distrib]
    _ = setFld ⟨v, hv⟩ lo ((2 ^ k * q) <<< lo + r) := by
      rw [setFld, Nat.shiftLeft_add_eq_or_of_lt hr, Nat.or_right_comm]

theorem fld_mod_two_pow {lo n m : Nat} (h : lo + n ≤ m) (w : Nat) : fld (w % 2 ^ m) lo n = fld w lo n := by
  refine Nat.eq_of_testBit_eq fun i => ?_
  rw [testBit_fld, testBit_fld, Nat.testBit_mod_two_pow]
  by_cases hi : i < n
  · rw [decide_eq_true (show lo + i < m by omega), Bool.true_and]
  · rw [decide_eq_false hi, Bool.false_and, Bool.false_and]

@[simp] theorem fld_mod_word {lo n : Nat} (h : ¬ 32 < lo + n) (w : Nat) : fld (w % 4294967296) lo n = fld w lo n :=
  fld_mod_two_pow (Nat.le_of_not_lt h) w

@[simp] theorem fld_mod_half {lo n : Nat} (h : ¬ 16 < lo + n) (w : Nat) : fld (w % 65536) lo n = fld w lo n :=
  fld_mod_two_pow (Nat.le_of_not_lt h) w

/-- A field of a numeral is computed. -/
@[simp] theorem fld_ofNat (c lo n : Nat) : fld (no_index (OfNat.ofNat c)) lo n = OfNat.ofNat c / 2 ^ lo % 2 ^ n := by rw [fld]

/-- A field is its lower bits and its higher bits. -/
theorem fld_split (w lo m n : Nat) : fld w lo (m + n) = fld w lo m + 2 ^ m * fld w (lo + m) n := by
  rw [fld, fld, fld, Nat.pow_add, Nat.pow_add, Nat.mod_mul, Nat.div_div_eq_div_mul]

/-! ## The guard (R27) -/

/-- The guard field [11:7] of a guard. -/
def guardBits (g : Guard) : Fin (2 ^ 5) :=
  ⟨g.p.val + 16 * b2n g.n, by have := g.p.isLt; have := b2n_lt g.n; omega⟩

@[simp] theorem putGuard_eq_setFld (g : Guard) {w : Nat} (h : fld w 7 5 = 0) : putGuard g w = setFld (guardBits g) 7 w := by
  rw [← put_eq_setFld (guardBits g).isLt h, putGuard, put, put, put, guardBits]
  ring

@[simp] theorem fGuard_setFld_guardBits (g : Guard) {w : Nat} (h : fld w 7 5 = 0) : fGuard (setFld (guardBits g) 7 w) = g := by
  have hf : fld (setFld (guardBits g) 7 w) 7 5 = g.p.val + 16 * b2n g.n := by
    rw [fld_setFld_same, h, Nat.zero_or, guardBits]
  rw [fld_split _ 7 4 1, show 7 + 4 = 11 from rfl] at hf
  have hp := g.p.isLt
  have hl := fld_lt (setFld (guardBits g) 7 w) 7 4
  have h4 : fld (setFld (guardBits g) 7 w) 7 4 = g.p.val := by omega
  have h1 : fld (setFld (guardBits g) 7 w) 11 1 = b2n g.n := by omega
  rw [fGuard, f1, f4, h1, h4, b2n_beq_one, Fin.ofNat_val_eq_self]

@[simp] theorem fGuard_mod_word (w : Nat) : fGuard (w % 4294967296) = fGuard w := by
  simp only [fGuard, f1, f4, fld_mod_word (show ¬ 32 < 11 + 1 by decide), fld_mod_word (show ¬ 32 < 7 + 4 by decide)]

/-! ## The operands: each kind fits the width that R28 to R49 give its field -/

theorem Round.code_fits (v : Round) : v.code < 2 ^ 2 := by cases v <;> decide
theorem Order.code_fits (v : Order) : v.code < 2 ^ 2 := by cases v <;> decide
theorem FCond.code_fits (v : FCond) : v.code < 2 ^ 3 := by cases v <;> decide
theorem AmoType.code_fits (v : AmoType) : v.code < 2 ^ 3 := by cases v <;> decide
theorem RedOp.code_fits (v : RedOp) : v.code < 2 ^ 2 := by cases v <;> decide

section
variable {lo w : Nat}

@[simp] theorem put_fin4 (v : Fin 4) (h : fld w lo 2 = 0) : put v.val lo w = setFld (k := 2) v lo w := put_eq_setFld v.isLt h
@[simp] theorem put_fin8 (v : Fin 8) (h : fld w lo 3 = 0) : put v.val lo w = setFld (k := 3) v lo w := put_eq_setFld v.isLt h
@[simp] theorem put_fin16 (v : Fin 16) (h : fld w lo 4 = 0) : put v.val lo w = setFld (k := 4) v lo w := put_eq_setFld v.isLt h
@[simp] theorem put_fin64 (v : Fin 64) (h : fld w lo 6 = 0) : put v.val lo w = setFld (k := 6) v lo w := put_eq_setFld v.isLt h
@[simp] theorem put_bitVec {k : Nat} (v : BitVec k) (h : fld w lo k = 0) : put v.toNat lo w = setFld ⟨v.toNat, v.isLt⟩ lo w :=
  put_eq_setFld v.isLt h
@[simp] theorem put_b2n (v : Bool) (h : fld w lo 1 = 0) : put (b2n v) lo w = setFld (k := 1) ⟨b2n v, b2n_lt v⟩ lo w :=
  put_eq_setFld (b2n_lt v) h
@[simp] theorem put_laneType (v : LaneType) (h : fld w lo 3 = 0) : put v.code lo w = setFld (k := 3) ⟨v.code, v.code_lt⟩ lo w :=
  put_eq_setFld _ h
@[simp] theorem put_round (v : Round) (h : fld w lo 2 = 0) : put v.code lo w = setFld (k := 2) ⟨v.code, v.code_fits⟩ lo w :=
  put_eq_setFld _ h
@[simp] theorem put_scope (v : Scope) (h : fld w lo 3 = 0) : put v.code lo w = setFld (k := 3) ⟨v.code, v.code_lt⟩ lo w :=
  put_eq_setFld _ h
@[simp] theorem put_order (v : Order) (h : fld w lo 2 = 0) : put v.code lo w = setFld (k := 2) ⟨v.code, v.code_fits⟩ lo w :=
  put_eq_setFld _ h
@[simp] theorem put_cond (v : Cond) (h : fld w lo 4 = 0) : put v.code lo w = setFld (k := 4) ⟨v.code, v.code_lt⟩ lo w :=
  put_eq_setFld _ h
@[simp] theorem put_fcond (v : FCond) (h : fld w lo 3 = 0) : put v.code lo w = setFld (k := 3) ⟨v.code, v.code_fits⟩ lo w :=
  put_eq_setFld _ h
@[simp] theorem put_msize (v : MSize) (h : fld w lo 3 = 0) : put v.code lo w = setFld (k := 3) ⟨v.code, v.code_lt⟩ lo w :=
  put_eq_setFld _ h
@[simp] theorem put_amoType (v : AmoType) (h : fld w lo 3 = 0) : put v.code lo w = setFld (k := 3) ⟨v.code, v.code_fits⟩ lo w :=
  put_eq_setFld _ h
@[simp] theorem put_memFmt (v : MemFmt) (h : fld w lo 4 = 0) : put v.code lo w = setFld (k := 4) ⟨v.code, v.code_lt.trans (by decide)⟩ lo w :=
  put_eq_setFld _ h
@[simp] theorem put_redOp (v : RedOp) (h : fld w lo 2 = 0) : put v.code lo w = setFld (k := 2) ⟨v.code, v.code_fits⟩ lo w :=
  put_eq_setFld _ h
@[simp] theorem put_resumeMode (v : ResumeMode) (h : fld w lo 2 = 0) : put v.code lo w = setFld (k := 2) ⟨v.code, v.code_lt⟩ lo w :=
  put_eq_setFld _ h

end

/-! ## The bytes of a word (R4, R25) -/

@[simp] theorem decodeBytes_leBytes_four {w : Nat} (h : fld w 0 1 = 1) (rest : List Byte) :
    decodeBytes (leBytes 4 w ++ rest) = decode32 (w % 4294967296) := by
  have hlong : isLong (BitVec.ofNat 8 w).toNat = true := by
    rw [fld] at h; rw [isLong, beq_iff_eq, BitVec.toNat_ofNat]; omega
  simp only [leBytes, List.cons_append, List.nil_append, decodeBytes, if_pos hlong]
  refine congrArg decode32 ?_
  simp only [BitVec.toNat_ofNat]
  omega

@[simp] theorem decodeBytes_leBytes_two {w : Nat} (h : fld w 0 1 = 0) (rest : List Byte) :
    decodeBytes (leBytes 2 w ++ rest) = decode16 (w % 65536) := by
  have hshort : isLong (BitVec.ofNat 8 w).toNat = false := by
    rw [fld] at h; rw [isLong, beq_eq_false_iff_ne, BitVec.toNat_ofNat]; omega
  simp only [leBytes, List.cons_append, List.nil_append, decodeBytes, hshort]
  refine congrArg decode16 ?_
  simp only [BitVec.toNat_ofNat]
  omega

/-! ## Instructions, by major opcode (R35) -/

/-- The decoder reads the fields of `i` back from the bytes of its encoding and finds every unused field zero; what remains is the
operand check of step 5 of R52. -/
def ReadsBack (i : Instr) : Prop := ∀ rest, decodeBytes (leBytes i.length (encode i) ++ rest) = accept true (some i)

/-- The 16-bit forms (R34). -/
theorem readsBack_half (t : LaneType) (d s : Reg) :
    ReadsBack (.mov16 t d s) ∧ ReadsBack (.add16 t d s) ∧ ReadsBack (.sub16 t d s) ∧ ReadsBack (.and16 t d s) ∧
    ReadsBack (.or16 t d s) ∧ ReadsBack (.xor16 t d s) ∧ ReadsBack (.shl16 t d s) ∧ ReadsBack (.shr16 t d s) ∧
    ReadsBack (.sra16 t d s) ∧ ReadsBack (.mul16 t d s) ∧ ReadsBack (.min16 t d s) ∧ ReadsBack (.max16 t d s) ∧
    ReadsBack (.fadd16 t d s) ∧ ReadsBack (.fsub16 t d s) ∧ ReadsBack (.fmul16 t d s) ∧ ReadsBack (.fmax16 t d s) := by
  delta ReadsBack encode Instr.length
  and_intros <;> intros <;> simp [decode16, f4]

/-- Integer arithmetic and logic, major 0x00 (R36). -/
theorem readsBack_intOps (g : Guard) (t : LaneType) (d a : Reg) :
    (∀ b, ReadsBack (.add g t d a b)) ∧ (∀ b, ReadsBack (.sub g t d a b)) ∧ (∀ b, ReadsBack (.and g t d a b)) ∧
    (∀ b, ReadsBack (.or g t d a b)) ∧ (∀ b, ReadsBack (.xor g t d a b)) ∧ (∀ b, ReadsBack (.shl g t d a b)) ∧
    (∀ b, ReadsBack (.shr g t d a b)) ∧ (∀ b, ReadsBack (.sra g t d a b)) ∧ (∀ b, ReadsBack (.mul g t d a b)) ∧
    (∀ b, ReadsBack (.mulh g t d a b)) ∧ (∀ b, ReadsBack (.mulhu g t d a b)) ∧ (∀ b, ReadsBack (.min g t d a b)) ∧
    (∀ b, ReadsBack (.max g t d a b)) ∧ (∀ b, ReadsBack (.minu g t d a b)) ∧ (∀ b, ReadsBack (.maxu g t d a b)) ∧
    ReadsBack (.mov g t d a) := by
  delta ReadsBack encode Instr.length
  and_intros <;> intros <;> simp [decode32, decodeMajor00, f4]

/-- Operations with a 12-bit immediate, majors 0x01 to 0x04 (R35). -/
theorem readsBack_immOps (g : Guard) (d a : Reg) (i : BitVec 12) :
    ReadsBack (.addi g d a i) ∧ ReadsBack (.andi g d a i) ∧ ReadsBack (.ori g d a i) ∧ ReadsBack (.xori g d a i) := by
  delta ReadsBack encode Instr.length
  and_intros <;> intros <;> simp [decode32, decodeMajor01, decodeMajor02, decodeMajor03, decodeMajor04, f4]

/-- Shifts by an immediate, major 0x05 (R38). -/
theorem readsBack_shiftImm (g : Guard) (t : LaneType) (d a : Reg) (h : Fin 64) :
    ReadsBack (.shli g t d a h) ∧ ReadsBack (.shri g t d a h) ∧ ReadsBack (.srai g t d a h) ∧ ReadsBack (.rori g t d a h) := by
  delta ReadsBack encode Instr.length
  and_intros <;> intros <;> simp [decode32, decodeMajor05, f4, f6]

/-- Moves of an immediate, major 0x06 (R38). -/
theorem readsBack_movImm (d : Reg) (i : BitVec 16) (w : Fin 4) :
    ReadsBack (.movi d i w) ∧ ReadsBack (.movk d i w) := by
  delta ReadsBack encode Instr.length
  and_intros <;> intros <;> simp [decode32, decodeMajor06, f2, f4]

/-- Bit operations, major 0x07 (R36). -/
theorem readsBack_bitOps (g : Guard) (t : LaneType) (d a : Reg) :
    ReadsBack (.clz g t d a) ∧ ReadsBack (.ctz g t d a) ∧ ReadsBack (.popc g t d a) ∧ ReadsBack (.bswap g t d a) ∧
    ReadsBack (.brev g t d a) ∧ ReadsBack (.sext g t d a) ∧ ReadsBack (.zext g t d a) ∧ (∀ b, ReadsBack (.bext g t d a b)) ∧
    (∀ b, ReadsBack (.bins g t d a b)) := by
  delta ReadsBack encode Instr.length
  and_intros <;> intros <;> simp [decode32, decodeMajor07, f4]

/-- Division, major 0x08 (R36). -/
theorem readsBack_divOps (g : Guard) (t : LaneType) (d a b : Reg) :
    ReadsBack (.div g t d a b) ∧ ReadsBack (.divu g t d a b) ∧ ReadsBack (.rem g t d a b) ∧ ReadsBack (.remu g t d a b) := by
  delta ReadsBack encode Instr.length
  and_intros <;> intros <;> simp [decode32, decodeMajor08, f4]

/-- Compares into a predicate, majors 0x09 and 0x0A (R33, R38). -/
theorem readsBack_compares (g : Guard) (c : Cond) (p : Pred) (a : Reg) :
    (∀ t b, ReadsBack (.cmp g t c p a b)) ∧ (∀ i, ReadsBack (.cmpi g c p a i)) := by
  delta ReadsBack encode Instr.length
  and_intros <;> intros <;> simp [decode32, decodeMajor09, decodeMajor0A, f4]

/-- Predicate operations, major 0x0B (R38). -/
theorem readsBack_predicates (g : Guard) :
    (∀ d a b, ReadsBack (.pand g d a b)) ∧ (∀ d a b, ReadsBack (.por g d a b)) ∧ (∀ d a b, ReadsBack (.pxor g d a b)) ∧
    (∀ d a b, ReadsBack (.pandn g d a b)) ∧ (∀ d, ReadsBack (.pget g d)) ∧ (∀ a, ReadsBack (.pput g a)) := by
  delta ReadsBack encode Instr.length
  and_intros <;> intros <;> simp [decode32, decodeMajor0B, f4]

/-- Select and address arithmetic, major 0x0C (R38). -/
theorem readsBack_selects (g : Guard) (d a b : Reg) :
    (∀ c, ReadsBack (.sel g d a b c)) ∧ (∀ h, ReadsBack (.lea g d a b h)) ∧ ReadsBack (.padd g d a b) := by
  delta ReadsBack encode Instr.length
  and_intros <;> intros <;> simp [decode32, decodeMajor0C, f4]

/-- Saturating and absolute lane arithmetic, major 0x0D (R36). -/
theorem readsBack_laneArith (g : Guard) (t : LaneType) (d a : Reg) :
    (∀ b, ReadsBack (.adds g t d a b)) ∧ (∀ b, ReadsBack (.subs g t d a b)) ∧ (∀ b, ReadsBack (.addsu g t d a b)) ∧
    (∀ b, ReadsBack (.subsu g t d a b)) ∧ (∀ b, ReadsBack (.avgu g t d a b)) ∧ (∀ b, ReadsBack (.absd g t d a b)) ∧
    ReadsBack (.neg g t d a) ∧ ReadsBack (.abs g t d a) := by
  delta ReadsBack encode Instr.length
  and_intros <;> intros <;> simp [decode32, decodeMajor0D, f4]

/-- Rearrangements and reductions of lanes, major 0x0E (R36). -/
theorem readsBack_laneMoves (g : Guard) (t : LaneType) (d a : Reg) :
    (∀ b, ReadsBack (.vshuf g t d a b)) ∧ (∀ b, ReadsBack (.vpack g t d a b)) ∧ ReadsBack (.vunpkl g t d a) ∧
    ReadsBack (.vunpkh g t d a) ∧ ReadsBack (.vbcast g t d a) ∧ (∀ b, ReadsBack (.vdot g t d a b)) ∧
    ReadsBack (.vrsum g t d a) := by
  delta ReadsBack encode Instr.length
  and_intros <;> intros <;> simp [decode32, decodeMajor0E, f4]

/-- Selection by lane masks, major 0x0F (R122). -/
theorem readsBack_laneSelects (g : Guard) (t : LaneType) (d a : Reg) :
    (∀ b, ReadsBack (.vsel g t d a b)) ∧ ReadsBack (.vmsk g t d a) := by
  delta ReadsBack encode Instr.length
  and_intros <;> intros <;> simp [decode32, decodeMajor0F, f4]

/-- `vcmp` has no code of its own: its condition stands in the code field, with bit 28 clear (R122). -/
theorem decodeMajor0F_vcmp {w : Nat} (c : Cond) (h5 : fld w 24 5 = c.code) (h4 : fld w 24 4 = c.code) :
    decodeMajor0F w =
      accept true ((LaneType.ofCode (fld w 29 3)).bind fun t => some (.vcmp (fGuard w) t c (f4 w 12) (f4 w 16) (f4 w 20))) := by
  rw [decodeMajor0F, h5, h4, Cond.ofCode_code]
  cases c <;> simp only [Cond.code, Option.map_some]

theorem readsBack_vcmp (g : Guard) (t : LaneType) (c : Cond) (d a b : Reg) : ReadsBack (.vcmp g t c d a b) := by
  delta ReadsBack encode Instr.length
  intro rest
  simp [decode32, decodeMajor0F_vcmp c, fld_split _ 24 4 1, f4]

/-- Floating-point arithmetic, major 0x10 (R39). -/
theorem readsBack_fpArith (g : Guard) (t : LaneType) (d a : Reg) :
    (∀ r b, ReadsBack (.fadd g t r d a b)) ∧ (∀ r b, ReadsBack (.fsub g t r d a b)) ∧
    (∀ r b, ReadsBack (.fmul g t r d a b)) ∧ (∀ r b, ReadsBack (.fma g t r d a b)) ∧ (∀ r b, ReadsBack (.fms g t r d a b)) ∧
    (∀ r b, ReadsBack (.fnma g t r d a b)) ∧ (∀ b, ReadsBack (.fmin g t d a b)) ∧ (∀ b, ReadsBack (.fmax g t d a b)) ∧
    ReadsBack (.fabs g t d a) ∧ ReadsBack (.fneg g t d a) ∧ (∀ b, ReadsBack (.fsgnj g t d a b)) := by
  delta ReadsBack encode Instr.length
  and_intros <;> intros <;> simp [decode32, decodeMajor10, f4]

/-- Floating-point division, root and estimates, major 0x11 (R39). -/
theorem readsBack_fpDivide (g : Guard) (t : LaneType) (d a : Reg) :
    (∀ r b, ReadsBack (.fdiv g t r d a b)) ∧ (∀ r, ReadsBack (.fsqrt g t r d a)) ∧ ReadsBack (.frcpe g t d a) ∧
    ReadsBack (.frsqe g t d a) := by
  delta ReadsBack encode Instr.length
  and_intros <;> intros <;> simp [decode32, decodeMajor11, f4]

/-- Floating-point compares, classes and conversions, major 0x12 (R40). -/
theorem readsBack_fpConvert (g : Guard) (t : LaneType) (a : Reg) :
    (∀ c p b, ReadsBack (.fcmp g t c p a b)) ∧ (∀ d, ReadsBack (.fclass g t d a)) ∧
    (∀ r u e d, ReadsBack (.icvtf g t r u e d a)) ∧ (∀ r sr e d, ReadsBack (.fcvt g t r sr e d a)) ∧
    (∀ r u e d, ReadsBack (.fcvti g t r u e d a)) := by
  delta ReadsBack encode Instr.length
  and_intros <;> intros <;> simp [decode32, decodeMajor12, f1, f4, b2n_beq_one]

/-- Control transfers, majors 0x14 to 0x17 (R41). -/
theorem readsBack_transfers (g : Guard) :
    (∀ off, ReadsBack (.br g off)) ∧ (∀ d off, ReadsBack (.call g d off)) ∧ (∀ a, ReadsBack (.jmp g a)) ∧
    (∀ d a, ReadsBack (.jal g d a)) ∧ (∀ a, ReadsBack (.ret g a)) ∧ (∀ a b, ReadsBack (.brx g a b)) ∧
    (∀ d off, ReadsBack (.dbnz g d off)) := by
  delta ReadsBack encode Instr.length
  and_intros <;> intros <;> simp [decode32, decodeMajor14, decodeMajor15, decodeMajor16, decodeMajor17, f4]

/-- Loads and stores, majors 0x18 and 0x19 (R42). -/
theorem readsBack_accesses (g : Guard) (z : MSize) (d a : Reg) (i : BitVec 8) :
    (∀ x, ReadsBack (.ld g z x d a i)) ∧ ReadsBack (.st g z d a i) := by
  delta ReadsBack encode Instr.length
  and_intros <;> intros <;> simp [decode32, decodeMajor18, decodeMajor19, f1, f4, b2n_beq_one]

/-- Ordered loads and stores, major 0x1A (R43). -/
theorem readsBack_orderedAccesses (z : MSize) (o : Order) (sc : Scope) (a : Reg) :
    (∀ d, ReadsBack (.ldOrd z o sc d a)) ∧ (∀ d, ReadsBack (.ldOrdSigned z o sc d a)) ∧ (∀ b, ReadsBack (.stOrd z o sc a b)) := by
  delta ReadsBack encode Instr.length
  and_intros <;> intros <;> simp [decode32, decodeMajor1A, f4]

/-- Typed loads and stores, major 0x1B (R45). -/
theorem readsBack_typedAccesses (f : MemFmt) (t : LaneType) (r : Round) (d a b : Reg) :
    ReadsBack (.ldt f t r d a b) ∧ (∀ sr, ReadsBack (.stt f t r sr d a b)) := by
  delta ReadsBack encode Instr.length
  and_intros <;> intros <;> simp [decode32, decodeMajor1B, f1, f4, b2n_beq_one]

/-- Atomics, major 0x1C (R44). -/
theorem readsBack_atomics (o : Order) (sc : Scope) (d a b : Reg) :
    (∀ y, ReadsBack (.amoAdd y o sc d a b)) ∧ (∀ y, ReadsBack (.amoAnd y o sc d a b)) ∧
    (∀ y, ReadsBack (.amoOr y o sc d a b)) ∧ (∀ y, ReadsBack (.amoXor y o sc d a b)) ∧
    (∀ y, ReadsBack (.amoMin y o sc d a b)) ∧ (∀ y, ReadsBack (.amoMax y o sc d a b)) ∧
    (∀ y, ReadsBack (.amoMinu y o sc d a b)) ∧ (∀ y, ReadsBack (.amoMaxu y o sc d a b)) ∧
    (∀ y, ReadsBack (.amoSwap y o sc d a b)) ∧ (∀ y, ReadsBack (.amoCas y o sc d a b)) ∧ ReadsBack (.amoCas128 o sc d a b) ∧
    (∀ y, ReadsBack (.amoFadd y o sc d a b)) ∧ (∀ y, ReadsBack (.amoFmin y o sc d a b)) ∧
    (∀ y, ReadsBack (.amoFmax y o sc d a b)) := by
  delta ReadsBack encode Instr.length
  and_intros <;> intros <;> simp [decode32, decodeMajor1C, f4]

/-- Reductions to memory, major 0x1D (R44). -/
theorem readsBack_reductions (y : AmoType) (o : Order) (sc : Scope) (a b : Reg) :
    ReadsBack (.redAdd y o sc a b) ∧ ReadsBack (.redAnd y o sc a b) ∧ ReadsBack (.redOr y o sc a b) ∧
    ReadsBack (.redXor y o sc a b) ∧ ReadsBack (.redMin y o sc a b) ∧ ReadsBack (.redMax y o sc a b) ∧
    ReadsBack (.redMinu y o sc a b) ∧ ReadsBack (.redMaxu y o sc a b) ∧ ReadsBack (.redFadd y o sc a b) ∧
    ReadsBack (.redFmin y o sc a b) ∧ ReadsBack (.redFmax y o sc a b) := by
  delta ReadsBack encode Instr.length
  and_intros <;> intros <;> simp [decode32, decodeMajor1D, f4]

/-- Reservations, major 0x1E (R46). -/
theorem readsBack_reservations (a : Reg) :
    (∀ d, ReadsBack (.ldrW d a)) ∧ (∀ b, ReadsBack (.stc a b)) ∧ ReadsBack (.rcancel a) := by
  delta ReadsBack encode Instr.length
  and_intros <;> intros <;> simp [decode32, decodeMajor1E, f4]

/-- Fences, drains and cache maintenance, major 0x1F (R46). -/
theorem readsBack_fences :
    (∀ o sc, ReadsBack (.fence o sc)) ∧ ReadsBack .drainTs ∧ ReadsBack .drainGm ∧ ReadsBack .drainMx ∧
    (∀ sc a, ReadsBack (.cln sc a)) ∧ (∀ a, ReadsBack (.cinv a)) ∧ (∀ a, ReadsBack (.iinv a)) ∧ (∀ a, ReadsBack (.pref a)) := by
  delta ReadsBack encode Instr.length
  and_intros <;> intros <;> simp [decode32, decodeMajor1F, f4]

/-- Context and system register instructions, major 0x20 (R47). -/
theorem readsBack_contextOps (g : Guard) :
    ReadsBack (.yield g) ∧ ReadsBack (.park g) ∧ (∀ a, ReadsBack (.wake g a)) ∧ ReadsBack (.exit g) ∧
    (∀ a, ReadsBack (.migr g a)) ∧ (∀ n d, ReadsBack (.mfs g n d)) ∧ (∀ n d, ReadsBack (.mts g n d)) ∧
    (∀ k d, ReadsBack (.widF g k d)) := by
  delta ReadsBack encode Instr.length
  and_intros <;> intros <;> simp [decode32, decodeMajor20, f3, f4]

/-- Fork, sync and gang, major 0x21 (R47). -/
theorem readsBack_forks (g : Guard) :
    (∀ off, ReadsBack (.fork g off)) ∧ ReadsBack (.sync g) ∧ (∀ a, ReadsBack (.gang g a)) := by
  delta ReadsBack encode Instr.length
  and_intros <;> intros <;> simp [decode32, decodeMajor21, f4]

/-- Launches and graphs, major 0x22 (R47). -/
theorem readsBack_launches (g : Guard) :
    (∀ a, ReadsBack (.launch g a)) ∧ ReadsBack (.trig g) ∧ (∀ a b, ReadsBack (.grun g a b)) := by
  delta ReadsBack encode Instr.length
  and_intros <;> intros <;> simp [decode32, decodeMajor22, f4]

/-- Queues, major 0x23 (R47). -/
theorem readsBack_queues (a : Reg) :
    (∀ g l b, ReadsBack (.send g l a b)) ∧ (∀ g b, ReadsBack (.qpush g a b)) ∧ (∀ g d, ReadsBack (.qpop g a d)) ∧
    (∀ g d, ReadsBack (.qstat g a d)) ∧ (∀ sc h b, ReadsBack (.wenq sc h a b)) := by
  delta ReadsBack encode Instr.length
  and_intros <;> intros <;> simp [decode32, decodeMajor23, f2, f4, f6]

/-- Barriers, major 0x24 (R47). -/
theorem readsBack_barriers (g : Guard) (j : BNum) :
    (∀ a, ReadsBack (.barInit g j a)) ∧ ReadsBack (.barArv g j) ∧ (∀ a, ReadsBack (.barArvb g j a)) ∧
    (∀ a, ReadsBack (.barExp g j a)) ∧ (∀ a, ReadsBack (.barWait g j a)) ∧ ReadsBack (.barAw g j) ∧
    (∀ d, ReadsBack (.barTest g j d)) ∧ ReadsBack (.barInv g j) ∧ ReadsBack (.dbar g j) := by
  delta ReadsBack encode Instr.length
  and_intros <;> intros <;> simp [decode32, decodeMajor24, f4, f6]

/-- Append pages and shoot-down, major 0x25 (R47). -/
theorem readsBack_appends (g : Guard) (a : Reg) :
    (∀ d b, ReadsBack (.apnd g d a b)) ∧ (∀ h d, ReadsBack (.apndh g h d a)) ∧ (∀ d, ReadsBack (.ldtail g d a)) ∧
    ReadsBack (.seal g a) ∧ (∀ b, ReadsBack (.xinv g a b)) := by
  delta ReadsBack encode Instr.length
  and_intros <;> intros <;> simp [decode32, decodeMajor25, f4, f6]

/-- Recovery streams, major 0x26 (R47). -/
theorem readsBack_recovery (g : Guard) (st : Fin 8) :
    (∀ a b, ReadsBack (.rcommit g st a b)) ∧ (∀ d, ReadsBack (.rmark g st d)) := by
  delta ReadsBack encode Instr.length
  and_intros <;> intros <;> simp [decode32, decodeMajor26, f3, f4]

/-- Traps, major 0x27 (R47). -/
theorem readsBack_traps (g : Guard) :
    (∀ i, ReadsBack (.trap g i)) ∧ ReadsBack (.ebrk g) ∧ (∀ m a b, ReadsBack (.resume g m a b)) ∧ ReadsBack (.halt g) ∧
    (∀ i, ReadsBack (.trc g i)) := by
  delta ReadsBack encode Instr.length
  and_intros <;> intros <;> simp [decode32, decodeMajor27, f4]

/-- Handles, major 0x28 (R49). -/
theorem readsBack_handles (h : HNum) :
    (∀ a, ReadsBack (.hdef h a)) ∧ (∀ d, ReadsBack (.hinfo h d)) ∧ ReadsBack (.hseal h) ∧ ReadsBack (.hopen h) ∧
    (∀ a, ReadsBack (.hmap h a)) ∧ ReadsBack (.hunmap h) ∧ (∀ d a, ReadsBack (.ldh h d a)) ∧ (∀ a b, ReadsBack (.sth h a b)) := by
  delta ReadsBack encode Instr.length
  and_intros <;> intros <;> simp [decode32, decodeMajor28, f4, f6]

/-- Copies, major 0x29 (R49). -/
theorem readsBack_copies (sc : Scope) (b : Reg) :
    (∀ h a, ReadsBack (.cpyG2t sc h a b)) ∧ (∀ h a, ReadsBack (.cpyT2g sc h a b)) ∧
    (∀ h ha, ReadsBack (.cpyT2t sc h ha b)) ∧ (∀ d a, ReadsBack (.cpyG2g sc d a b)) ∧
    (∀ q a, ReadsBack (.cpyG2q sc q a b)) ∧ (∀ h a, ReadsBack (.cpyGat sc h a b)) ∧ (∀ h a, ReadsBack (.cpySca sc h a b)) := by
  delta ReadsBack encode Instr.length
  and_intros <;> intros <;> simp [decode32, decodeMajor29, f2, f4, f6]

/-- Tile arithmetic, major 0x2A (R49). -/
theorem readsBack_tileArith (hd ha : HNum) :
    (∀ r hb, ReadsBack (.tvAdd r hd ha hb)) ∧ (∀ r hb, ReadsBack (.tvSub r hd ha hb)) ∧
    (∀ r hb, ReadsBack (.tvMul r hd ha hb)) ∧ (∀ r hb, ReadsBack (.tvFma r hd ha hb)) ∧
    (∀ r hb, ReadsBack (.tvMin r hd ha hb)) ∧ (∀ r hb, ReadsBack (.tvMax r hd ha hb)) ∧ ReadsBack (.tvAbs hd ha) ∧
    ReadsBack (.tvExp2 hd ha) ∧ ReadsBack (.tvRcp hd ha) := by
  delta ReadsBack encode Instr.length
  and_intros <;> intros <;> simp [decode32, decodeMajor2A, f6]

/-- Tile conversions, reductions and moves, major 0x2B (R49). -/
theorem readsBack_tileMoves (hd ha : HNum) :
    (∀ r sr, ReadsBack (.tvCvt r sr hd ha)) ∧ (∀ ro all, ReadsBack (.tvRed ro all hd ha)) ∧ ReadsBack (.tvBcast hd ha) ∧
    ReadsBack (.tvTrans hd ha) ∧ (∀ hb, ReadsBack (.tvSel hd ha hb)) ∧ (∀ hb, ReadsBack (.tvScale hd ha hb)) := by
  delta ReadsBack encode Instr.length
  and_intros <;> intros <;> simp [decode32, decodeMajor2B, f1, f6, b2n_beq_one]

/-- The matrix unit, major 0x2C (R49). -/
theorem readsBack_matrixOps :
    (∀ m a, ReadsBack (.mcfg m a)) ∧ (∀ m ha, ReadsBack (.mloadb m ha)) ∧ (∀ m ha hd a, ReadsBack (.mmac m ha hd a)) ∧
    (∀ m ha hd a, ReadsBack (.mmacs m ha hd a)) ∧ (∀ m ha hd a, ReadsBack (.mepi m ha hd a)) ∧ (∀ t, ReadsBack (.ctswap t)) := by
  delta ReadsBack encode Instr.length
  and_intros <;> intros <;> simp [decode32, decodeMajor2C, f3, f4, f6]

/-- Matrix semaphores and drain, major 0x2D (R49). -/
theorem readsBack_matrixSync (g : Guard) :
    (∀ n, ReadsBack (.msemWait g n)) ∧ (∀ n, ReadsBack (.msemPost g n)) ∧ ReadsBack (.mdrain g) := by
  delta ReadsBack encode Instr.length
  and_intros <;> intros <;> simp [decode32, decodeMajor2D, f4]

/-- Every encoded instruction reads back, major by major. -/
theorem readsBack_of_not_isEvent {i : Instr} (h : i.isEvent = false) : ReadsBack i := by
  cases i with
  | mov16 | add16 | sub16 | and16 | or16 | xor16 | shl16 | shr16 | sra16 | mul16 | min16 | max16 | fadd16 | fsub16 |
    fmul16 | fmax16 => simp only [readsBack_half]
  | add | sub | and | or | xor | shl | shr | sra | mul | mulh | mulhu | min | max | minu | maxu | mov => simp only [readsBack_intOps]
  | addi | andi | ori | xori => simp only [readsBack_immOps]
  | shli | shri | srai | rori => simp only [readsBack_shiftImm]
  | movi | movk => simp only [readsBack_movImm]
  | clz | ctz | popc | bswap | brev | sext | zext | bext | bins => simp only [readsBack_bitOps]
  | div | divu | rem | remu => simp only [readsBack_divOps]
  | cmp | cmpi => simp only [readsBack_compares]
  | pand | por | pxor | pandn | pget | pput => simp only [readsBack_predicates]
  | sel | lea | padd => simp only [readsBack_selects]
  | adds | subs | addsu | subsu | avgu | absd | neg | abs => simp only [readsBack_laneArith]
  | vshuf | vpack | vunpkl | vunpkh | vbcast | vdot | vrsum => simp only [readsBack_laneMoves]
  | vsel | vmsk => simp only [readsBack_laneSelects]
  | vcmp => simp only [readsBack_vcmp]
  | fadd | fsub | fmul | fma | fms | fnma | fmin | fmax | fabs | fneg | fsgnj => simp only [readsBack_fpArith]
  | fdiv | fsqrt | frcpe | frsqe => simp only [readsBack_fpDivide]
  | fcmp | fclass | icvtf | fcvt | fcvti => simp only [readsBack_fpConvert]
  | br | call | jmp | jal | ret | brx | dbnz => simp only [readsBack_transfers]
  | ld | st => simp only [readsBack_accesses]
  | ldOrd | ldOrdSigned | stOrd => simp only [readsBack_orderedAccesses]
  | ldt | stt => simp only [readsBack_typedAccesses]
  | amoAdd | amoAnd | amoOr | amoXor | amoMin | amoMax | amoMinu | amoMaxu | amoSwap | amoCas | amoCas128 | amoFadd |
    amoFmin | amoFmax => simp only [readsBack_atomics]
  | redAdd | redAnd | redOr | redXor | redMin | redMax | redMinu | redMaxu | redFadd | redFmin | redFmax => simp only [readsBack_reductions]
  | ldrW | stc | rcancel => simp only [readsBack_reservations]
  | fence | drainTs | drainGm | drainMx | cln | cinv | iinv | pref => simp only [readsBack_fences]
  | yield | park | wake | exit | migr | mfs | mts | widF => simp only [readsBack_contextOps]
  | fork | sync | gang => simp only [readsBack_forks]
  | launch | trig | grun => simp only [readsBack_launches]
  | send | qpush | qpop | qstat | wenq => simp only [readsBack_queues]
  | barInit | barArv | barArvb | barExp | barWait | barAw | barTest | barInv | dbar => simp only [readsBack_barriers]
  | apnd | apndh | ldtail | xinv => simp only [readsBack_appends]
  | rcommit | rmark => simp only [readsBack_recovery]
  | trap | ebrk | resume | halt | trc => simp only [readsBack_traps]
  | hdef | hinfo | hseal | hopen | hmap | hunmap | ldh | sth => simp only [readsBack_handles]
  | cpyG2t | cpyT2g | cpyT2t | cpyG2g | cpyG2q | cpyGat | cpySca => simp only [readsBack_copies]
  | tvAdd | tvSub | tvMul | tvFma | tvMin | tvMax | tvAbs | tvExp2 | tvRcp => simp only [readsBack_tileArith]
  | tvCvt | tvRed | tvBcast | tvTrans | tvSel | tvScale => simp only [readsBack_tileMoves]
  | mcfg | mloadb | mmac | mmacs | mepi | ctswap => simp only [readsBack_matrixOps]
  | msemWait | msemPost | mdrain => simp only [readsBack_matrixSync]
  -- `seal`, which as the name of a case is a keyword of Lean, and the steps of the device, which `h` rules out
  | _ => cases h <;> simp only [readsBack_appends]

/-- Settles O1: the fields read back, so the decoder comes to the operand check of step 5 of R52 with the very instruction that was
encoded, and a well-formed instruction passes it. -/
theorem encodeDecodeRoundTrip : Obligations.EncodeDecodeRoundTrip := by
  intro i rest hwf hev
  rw [readsBack_of_not_isEvent hev rest, accept, if_pos rfl, hwf]
  rfl

end Sys2Proof
end

section
/-! O23: what `mfs` reads (R48, R79, R383). The tables of R48 and R383 give every listed number a read privilege, so the read completes
with the value that the state holds. -/

namespace Sys2Proof

open Machine

/-! ## The bits of a word with a field replaced -/

/-- Replacing a field keeps what stands above and below it. -/
theorem wput_eq_ofNat (x : Word) (lo n v : Nat) :
    wput x lo n v = BitVec.ofNat 64 (2 ^ lo * (2 ^ n * (x.toNat / 2 ^ lo / 2 ^ n) + v % 2 ^ n) + x.toNat % 2 ^ lo) := by
  have hlo := Nat.div_add_mod x.toNat (2 ^ lo)
  have hn := congrArg (2 ^ lo * ·) (Nat.div_add_mod (x.toNat / 2 ^ lo) (2 ^ n))
  simp only [Nat.mul_add] at hn
  rw [wput, wfld, Nat.mul_add, Nat.mul_comm _ (2 ^ lo), Nat.mul_comm _ (2 ^ lo)]
  exact congrArg (BitVec.ofNat 64) (by omega)

/-- The field reads as it was written, and every other bit as before. -/
theorem getLsbD_wput (x : Word) (lo n v : Nat) {k : Nat} (hk : k < 64) :
    (wput x lo n v).getLsbD k = if lo ≤ k ∧ k < lo + n then v.testBit (k - lo) else x.getLsbD k := by
  have hr : x.toNat % 2 ^ lo < 2 ^ lo := Nat.mod_lt _ (by positivity)
  have hv : v % 2 ^ n < 2 ^ n := Nat.mod_lt _ (by positivity)
  rw [wput_eq_ofNat, BitVec.getLsbD_ofNat, decide_eq_true hk, Bool.true_and, Nat.testBit_two_pow_mul_add _ hr,
    Nat.testBit_two_pow_mul_add _ hv, Nat.testBit_mod_two_pow, Nat.testBit_mod_two_pow, BitVec.getLsbD]
  rcases Nat.lt_or_ge k lo with hbelow | hlo
  · rw [if_pos hbelow, if_neg (by omega), decide_eq_true hbelow, Bool.true_and]
  rw [if_neg hlo.not_gt]
  rcases Nat.lt_or_ge k (lo + n) with hin | habove
  · have hin' : k - lo < n := by omega
    rw [if_pos hin', if_pos ⟨hlo, hin⟩, decide_eq_true hin', Bool.true_and]
  · rw [if_neg (by omega), if_neg (by omega), Nat.testBit_div_two_pow, Nat.testBit_div_two_pow]
    exact congrArg x.toNat.testBit (by omega)

/-- The reserved bits of `$tsw` read zero, the others as the line holds them (R5, R59). -/
theorem getLsbD_tswRead (x : Word) {k : Nat} (hk : k < 64) :
    (tswRead x).getLsbD k = (x.getLsbD k && !decide ((25 ≤ k ∧ k ≤ 31) ∨ k = 6 ∨ k = 7)) := by
  rw [tswRead, getLsbD_wput _ _ _ _ hk, getLsbD_wput _ _ _ _ hk, Nat.zero_testBit, Nat.zero_testBit]
  grind

/-! ## The registers (R48, R383) -/

/-- Each row of the tables gives its read privilege to each of its numbers. -/
theorem sysRead_of_mem_sysRows : ∀ row ∈ sysRows, ∀ n, row.1 ≤ n → n ≤ row.2.1 → sysRead n = some row.2.2.1 := by
  rw [sysRows]
  intro row hrow n hfirst hlast
  rw [sysRead]
  fin_cases hrow <;> grind

/-- A listed register has the read privilege of its row. -/
theorem sysRead_of_sysRow {n r : Nat} {w : Option Nat} (h : sysRow n = some (r, w)) : sysRead n = some r := by
  obtain ⟨row, hfind, hrow⟩ := Option.map_eq_some_iff.mp h
  obtain ⟨hfirst, hlast⟩ : row.1 ≤ n ∧ n ≤ row.2.1 := by simpa using List.find?_some hfind
  rw [sysRead_of_mem_sysRows row (List.mem_of_find?_eq_some hfind) n hfirst hlast, (Prod.mk.inj hrow).1]

section
variable (s : State) (e : Env) {n : Nat}

/-- `$rcpS` is the recovery point of stream S of the partition (R398). -/
theorem sysValue_rcp (hlo : 0x010 ≤ n) (hhi : n ≤ 0x017) :
    s.sysValue e n = ((s.part (s.partOf e.site)).stream (n - 0x010)).rcp := by
  interval_cases n <;> rfl

/-- `$replD` is entry D of the partition's list (R383). -/
theorem sysValue_repl (hlo : 0x108 ≤ n) (hhi : n ≤ 0x10B) :
    s.sysValue e n = (s.part (s.partOf e.site)).repl.getD (n - 0x108) 0#64 := by
  interval_cases n <;> rfl

end

/-- `mfs` of a register with a read privilege that the context has, and with no write of its table on its way: rd takes the value, and
a read of `$rcpS` is an acquire (R79, R402). -/
theorem exec_mfs_completes {s : State} {e : Env} {g : Guard} {n : BitVec 12} {r : Nat} (d : Reg) (hrun : s.Runs e g)
    (hread : sysRead n.toNat = some r) (hpriv : r ≤ e.line.priv)
    (hpend : ¬ (0x020 ≤ n.toNat ∧ n.toNat ≤ 0x027 ∧ s.tablePending e.site (n.toNat - 0x020) = true)) :
    exec (.mfs g n d) s = .next (s.put
      (let c := (e.setReg s.cycle d (s.sysValue e n.toNat)).adv 4
       if 0x010 ≤ n.toNat ∧ n.toNat ≤ 0x017 then { c with line := { c.line with acqTo := s.nextId } } else c)) := by
  obtain ⟨he, hg⟩ := hrun
  rw [show exec (.mfs g n d) s = execMfs g n d s from rfl, execMfs, withEnv_some _ he, hread]
  simp only [if_neg (Nat.not_lt.mpr hpriv), hg, Bool.not_true, Bool.false_eq_true, if_false, if_neg hpend, Env.commit]

/-- Settles O23: the read completes with `State.sysValue`, which for each number is the register that R48 and R383 give it. -/
theorem systemRegisterReads : Obligations.SystemRegisterReads := by
  intro s e g n d r w hrun hrow hpriv hpend
  refine ⟨s.sysValue e n.toNat, _, rfl, exec_mfs_completes d hrun (sysRead_of_sysRow hrow) hpriv hpend,
    ?_, ?_, ?_, ?_, ?_, ?_, ?_, ?_, ?_, ?_, ?_, ?_, ?_, ?_, sysValue_rcp s e, sysValue_repl s e, ?_,
    by rintro rfl k hk; exact getLsbD_tswRead _ hk, ?_, ?_, ?_, ?_⟩ <;> rintro rfl <;> rfl

end Sys2Proof
end

section
/-! O4, O5, O6: fetching, decoding and executing one instruction (R25, R52, R64, R65). A fetch from a cached line reads the bytes that
stand at PC, and with nothing scheduled the step is the execution of what they decode to. -/

namespace Sys2Proof

open Machine

/-! ## The step of the decoded instruction (R52, R64, R65) -/

section
variable {s s1 t : State} {e e1 : Env} {enc : BitVec 32} {len : Nat} {i : Instr}

/-- An active core that has not issued in this cycle prepares its slot, and the slot issues from the context that it then has. -/
theorem turn_eq_issueFrom (hact : (s.core s.cur).life = .active) (hturn : (s.core s.cur).turnAt ≠ some s.cycle)
    (hs1 : s1 = (s.setCore s.cur { s.core s.cur with turnAt := some s.cycle }).slotPrepare s.cur s.slot) (henv : s1.env? = some e)
    (hrun : e.run? = none) : s.turn s.cur = s1.issueFrom e State.patchExec := by
  have hidle : ((s.core s.cur).life != .active || (s.core s.cur).turnAt == some s.cycle) = false := by simp [hact, hturn]
  change (if ((s.core s.cur).life != .active || (s.core s.cur).turnAt == some s.cycle) = true then _ else
    match State.env? ((s.setCore s.cur { s.core s.cur with turnAt := some s.cycle }).slotPrepare s.cur s.slot) with
    | none => _
    | some e => _) = _
  rw [hidle, ← hs1, henv]
  simp [hrun]

/-- A fetched instruction does what `go` says, and its turn counts (R65). -/
theorem issueFrom_of_fetch (go : State → Env → Out) (hfetch : s.fetch e = .ok (t, enc, len))
    (henv : ({ t with fetched := enc, flen := len } : State).env? = some e1) :
    s.issueFrom e go =
      thenDo (go { t with fetched := enc, flen := len } e1) fun v => v.countTurn e1.site e1.slot e1.key := by
  simp [State.issueFrom, hfetch, henv]

/-- Where no patch slot matches, and no step of the LFSR is owed, the fetched word is decoded and executed (R52). -/
theorem patchExec_of_decodeWord (hpatch : (s.part e.line.part).encSlot s.fetched s.flen e.line.priv = none)
    (hdec : decodeWord s.fetched.toNat = .ok i) (hlfsr : s.lfsrHolds e.site i = false) : s.patchExec e = exec i s := by
  simp [State.patchExec, hpatch, State.decodeExec, hdec, hlfsr]

/-- A turn of a powered package whose firmware runs. -/
theorem perform_turn (site : Nat) (hpow : s.reg.powered = true) (hfail : s.reg.failed = false) :
    s.perform (.turn site) = s.turn site := by
  simp [State.perform, hpow, hfail]

end

/-- Settles O4: the step is the turn of the current core, the turn the execution of what it fetched. -/
theorem stepRunsDecoded : Obligations.StepRunsDecoded := by
  intro s s1 t u e e1 enc len i hag hpow hfail hact hturn hs1 henv hrun hfetch hu henv1 hpatch hdec hlfsr
  subst hs1 hu
  rw [step_turn hag, perform_turn _ hpow hfail, turn_eq_issueFrom hact hturn rfl henv hrun, issueFrom_of_fetch _ hfetch henv1,
    patchExec_of_decodeWord hpatch hdec hlfsr]
  cases exec i { t with fetched := enc, flen := len } <;> rfl

/-! ## The words of the worked examples -/

/-- Settles O6: each word evaluates in the decoder. -/
theorem decodedWords : Obligations.DecodedWords :=
  ⟨rfl, rfl, rfl, rfl, ⟨_, rfl⟩, _, rfl⟩

/-! ## The fetch (R25, R52) -/

/-- A field of a list of bytes is its lower part and, above it, the rest. -/
theorem leField_add (bs : List Byte) (i : Nat) {n : Nat} (m : Nat) (h : i + n ≤ bs.length) :
    leField bs i (n + m) = leField bs i n + 256 ^ n * leField bs (i + n) m := by
  have hn : ((bs.drop i).take n).length = n := by simp; omega
  rw [leField, ← take_drop_append, leNat_append, hn]
  rfl

/-- The bytes from `o` on begin with the bytes of the field that stands there. -/
theorem drop_eq_leBytes_leField_append {bs : List Byte} {o n : Nat} (h : o + n ≤ bs.length) :
    bs.drop o = leBytes n (leField bs o n) ++ (bs.drop o).drop n := by
  rw [leBytes_leField h, List.take_append_drop]

/-- The bytes of a 16-bit encoding decode as its halfword (R4, R25). -/
theorem decodeBytes_drop_two {bs : List Byte} {o : Nat} (h : o + 2 ≤ bs.length) (hshort : leField bs o 2 % 2 = 0) :
    decodeBytes (bs.drop o) = decodeWord (leField bs o 2) := by
  rw [drop_eq_leBytes_leField_append h, decodeBytes_leBytes_two (by simpa [fld] using hshort)]
  simp [decodeWord, isLong, hshort]

/-- The bytes of a 32-bit encoding decode as its word (R4, R25). -/
theorem decodeBytes_drop_four {bs : List Byte} {o : Nat} (h : o + 4 ≤ bs.length) (hlong : leField bs o 4 % 2 = 1) :
    decodeBytes (bs.drop o) = decodeWord (leField bs o 4) := by
  rw [drop_eq_leBytes_leField_append h, decodeBytes_leBytes_four (by simpa [fld] using hlong)]
  simp [decodeWord, isLong, hlong]

section
variable {s : State} {e : Env} {bs : List Byte}

/-- A halfword of a cached line is read without any change (R14, R25). -/
theorem fetchHalf_of_cached {va : Nat} (hcanon : va < 2 ^ 54) (hline : tget (s.core e.site).icache (ikey e.line.asid va) = some bs) :
    s.fetchHalf e va = .ok (s, leField bs (va % 64) 2) := by
  rw [State.fetchHalf, if_neg (Nat.not_le.mpr hcanon), hline]

/-- A 16-bit encoding in a cached line (R25). -/
theorem fetch_short_of_cached (heven : e.line.pc.toNat % 2 = 0) (hcanon : e.line.pc.toNat < 2 ^ 54)
    (hline : tget (s.core e.site).icache (ikey e.line.asid e.line.pc.toNat) = some bs)
    (hshort : leField bs (e.line.pc.toNat % 64) 2 % 2 = 0) :
    s.fetch e = .ok (s, BitVec.ofNat 32 (leField bs (e.line.pc.toNat % 64) 2), 2) := by
  simp [State.fetch, heven, fetchHalf_of_cached hcanon hline, isLong, hshort]

/-- A 32-bit encoding with both halves in a cached line (R25). -/
theorem fetch_long_of_cached (heven : e.line.pc.toNat % 2 = 0) (hcanon : e.line.pc.toNat < 2 ^ 54)
    (hline : tget (s.core e.site).icache (ikey e.line.asid e.line.pc.toNat) = some bs) (hlen : bs.length = 64)
    (hlong : leField bs (e.line.pc.toNat % 64) 2 % 2 = 1) (hin : e.line.pc.toNat % 64 ≤ 60) :
    s.fetch e = .ok (s, BitVec.ofNat 32 (leField bs (e.line.pc.toNat % 64) 4), 4) := by
  have hkey : ikey e.line.asid (e.line.pc.toNat + 2) = ikey e.line.asid e.line.pc.toNat := by
    rw [ikey, ikey, show (e.line.pc.toNat + 2) / 64 = e.line.pc.toNat / 64 by omega]
  have hsecond := fetchHalf_of_cached (s := s) (e := e) (va := e.line.pc.toNat + 2) (by omega) (hkey ▸ hline)
  rw [show (e.line.pc.toNat + 2) % 64 = e.line.pc.toNat % 64 + 2 by omega] at hsecond
  rw [leField_add bs (e.line.pc.toNat % 64) (n := 2) 2 (by omega), Nat.mul_comm (256 ^ 2)]
  simp [State.fetch, heven, fetchHalf_of_cached hcanon hline, hsecond, isLong, hlong]

end

/-- Settles O5: the halfwords come from the cached line, and `decodeExec` raises ILL where the decoder answers an error. -/
theorem fetchReadsCachedBytes : Obligations.FetchReadsCachedBytes := by
  refine ⟨fun s e w x hdec => by rw [State.decodeExec, hdec]; rfl, ?_⟩
  rintro s e bs _ heven hcanon rfl hlen hline
  refine ⟨fun hshort => ⟨fetch_short_of_cached heven hcanon hline hshort, decodeBytes_drop_two (by omega) hshort⟩,
    fun hlong hin => ⟨fetch_long_of_cached heven hcanon hline hlen hlong hin, decodeBytes_drop_four (by omega) ?_⟩⟩
  rw [leField_add bs _ (n := 2) 2 (by omega)]
  omega

end Sys2Proof
end

section
/-! O22, O24: who may read and write the system registers, and what `mts` writes (R48, R51, R79, R94, R383). The tables of R48 and
R383 give every number its privileges, and each register keeps the bits of the written value that R383 gives it. -/

namespace Sys2Proof

open Machine

/-! ## Rights (R48, R51, R79, R383) -/

/-- A number that neither table lists has no read privilege. -/
theorem sysRead_of_sysRow_none {n : Nat} (h : sysRow n = none) : sysRead n = none := by
  simp only [sysRow, Option.map_eq_none_iff, List.find?_eq_none, sysRows, List.forall_mem_cons] at h
  rw [sysRead]
  grind

/-- Each row of the tables gives its write privilege to each of its numbers. -/
theorem sysWrite_of_mem_sysRows : ∀ row ∈ sysRows, ∀ n, row.1 ≤ n → n ≤ row.2.1 → sysWrite n = row.2.2.2 := by
  rw [sysRows]
  intro row hrow n hfirst hlast
  rw [sysWrite]
  fin_cases hrow <;> grind

/-- A listed register has the write privilege of its row. -/
theorem sysWrite_of_sysRow {n r : Nat} {w : Option Nat} (h : sysRow n = some (r, w)) : sysWrite n = w := by
  obtain ⟨row, hfind, hrow⟩ := Option.map_eq_some_iff.mp h
  obtain ⟨hfirst, hlast⟩ : row.1 ≤ n ∧ n ≤ row.2.1 := by simpa using List.find?_some hfind
  rw [sysWrite_of_mem_sysRows row (List.mem_of_find?_eq_some hfind) n hfirst hlast, (Prod.mk.inj hrow).2]

/-- Whoever may write a register has a number that the tables list. -/
theorem sysRead_isSome_of_sysWrite {n p : Nat} (h : sysWrite n = some p) : ∃ r, sysRead n = some r := by
  rw [sysWrite] at h
  rw [sysRead]
  grind

/-- Every context may read and write the type 3 tables, as far as its privilege goes (R48). -/
theorem sysRead_sysWrite_table {n : Nat} (hlo : 0x020 ≤ n) (hhi : n ≤ 0x027) : sysRead n = some 0 ∧ sysWrite n = some 0 := by
  rw [sysRead, sysWrite]
  grind

section
variable {s : State} {e : Env} (g : Guard) (n : BitVec 12) (d : Reg)

/-- `mfs` of an unlisted number raises ILL (R79). -/
theorem exec_mfs_unlisted (he : s.env? = some e) (hread : sysRead n.toNat = none) :
    exec (.mfs g n d) s = .next (s.raise e (fltIll e.line.pc)) := by
  rw [show exec (.mfs g n d) s = execMfs g n d s from rfl, execMfs, withEnv_some _ he, hread]

/-- `mts` of an unlisted number raises ILL (R79). -/
theorem exec_mts_unlisted (he : s.env? = some e) (hread : sysRead n.toNat = none) :
    exec (.mts g n d) s = .next (s.raise e (fltIll e.line.pc)) := by
  rw [show exec (.mts g n d) s = execMts g n d s from rfl, execMts, withEnv_some _ he]
  simp only [hread]

/-- `mfs` above the context's privilege raises PRIV, whatever the guard (R51, R79). -/
theorem exec_mfs_unprivileged {r : Nat} (he : s.env? = some e) (hread : sysRead n.toNat = some r) (hpriv : e.line.priv < r) :
    exec (.mfs g n d) s = .next (s.raise e (fltPrivReg e.line.pc)) := by
  rw [show exec (.mfs g n d) s = execMfs g n d s from rfl, execMfs, withEnv_some _ he, hread]
  simp only [hpriv, if_true]

/-- `mts` of a register that is read-only at the context's privilege raises PRIV, whatever the guard (R48, R51). -/
theorem exec_mts_readOnly {r : Nat} (he : s.env? = some e) (hread : sysRead n.toNat = some r)
    (hpriv : ∀ p, sysWrite n.toNat = some p → e.line.priv < p) :
    exec (.mts g n d) s = .next (s.raise e (fltPrivReg e.line.pc)) := by
  rw [show exec (.mts g n d) s = execMts g n d s from rfl, execMts, withEnv_some _ he]
  cases hw : sysWrite n.toNat with
  | none => simp only [hread, hw]
  | some p => simp only [hread, hw, hpriv p hw, if_true]

/-- A table write that has the privilege and the guard but not TSW.MX raises MX (R79, R94). -/
theorem exec_mts_table_without_mx (he : s.env? = some e) (hg : e.line.guard g = true) (hlo : 0x020 ≤ n.toNat) (hhi : n.toNat ≤ 0x027)
    (hmx : e.line.mx = false) : exec (.mts g n d) s = .next (s.raiseOpen e 0x0B 0x01 0 0xF) := by
  obtain ⟨hread, hwrite⟩ := sysRead_sysWrite_table hlo hhi
  rw [show exec (.mts g n d) s = execMts g n d s from rfl, execMts, withEnv_some _ he]
  simp only [hread, hwrite, Nat.not_lt_zero, hg, Bool.not_true, Bool.false_eq_true, if_false, hlo, hhi, hmx, and_self, if_true]

end

/-- Settles O22: `sysRead` and `sysWrite` give every number the privileges of its row, so each refusal is the one that its row gives. -/
theorem systemRegisterRights : Obligations.SystemRegisterRights := by
  intro s e g n d he
  refine ⟨fun hrow => ?_, fun r w hrow => ⟨?_, ?_, ?_⟩⟩
  · have hread := sysRead_of_sysRow_none hrow
    exact ⟨exec_mfs_unlisted g n d he hread, exec_mts_unlisted g n d he hread⟩
  · exact exec_mfs_unprivileged g n d he (sysRead_of_sysRow hrow)
  · exact fun hpriv => exec_mts_readOnly g n d he (sysRead_of_sysRow hrow) (sysWrite_of_sysRow hrow ▸ hpriv)
  · exact fun hlo hhi hg hmx => ⟨_, exec_mts_table_without_mx g n d he hg hlo hhi hmx⟩

/-! ## Writes (R79, R94, R383) -/

/-- The bits of a field. -/
theorem testBit_wfld (x : Word) (lo n j : Nat) : (wfld x lo n).testBit j = (decide (j < n) && x.getLsbD (lo + j)) := by
  rw [wfld, Nat.testBit_mod_two_pow, Nat.testBit_div_two_pow, Nat.add_comm j, BitVec.getLsbD]

/-- A field put back at its place, on its own: every bit outside it is zero. -/
theorem getLsbD_W_wfld (x : Word) (lo n : Nat) {k : Nat} (hk : k < 64) :
    (W (wfld x lo n * 2 ^ lo)).getLsbD k = (decide (lo ≤ k ∧ k < lo + n) && x.getLsbD k) := by
  rw [W, BitVec.getLsbD_ofNat, Nat.testBit_mul_two_pow, testBit_wfld]
  grind

/-- A write of a system register by a context that may make it, for the registers that are written at once: all but the tables and
`$rcpS`, whose writes leave as messages (R79, R383). -/
def mtsWritten (s : State) (e : Env) (n : Nat) (v : Word) : State :=
  let c := e.core
  if n = 0x007 then s.put { e.adv 4 with core := { c with lfsr := seedOf v } }
  else if n = 0x110 then s.put { e.adv 4 with core := { c with trace := c.trace.writeCtl v } }
  else if n = 0x112 then s.put { e.adv 4 with core := { c with trace := { c.trace with sel := W (wfld v 0 10) } } }
  else if n = 0x118 then s.put { e.adv 4 with line := (e.adv 4).line.writeTsw v }
  else (s.put (e.adv 4)).modPart (s.partOf e.site) fun x => x.writeSys n v

section
variable {s : State} {e : Env} {g : Guard} (n : BitVec 12) (d : Reg)

/-- With the privilege and the guard, `mts` of such a register writes it and goes on (R79). -/
theorem exec_mts_eq_mtsWritten {p : Nat} (hrun : s.Runs e g) (hwrite : sysWrite n.toNat = some p) (hpriv : p ≤ e.line.priv)
    (htable : ¬ (0x020 ≤ n.toNat ∧ n.toNat ≤ 0x027)) (hrcp : ¬ (0x010 ≤ n.toNat ∧ n.toNat ≤ 0x017)) :
    exec (.mts g n d) s = .next (mtsWritten s e n.toNat (e.reg d)) := by
  obtain ⟨he, hg⟩ := hrun
  obtain ⟨r, hread⟩ := sysRead_isSome_of_sysWrite hwrite
  have hmx : ¬ (0x020 ≤ n.toNat ∧ n.toNat ≤ 0x027 ∧ e.line.mx = false) := fun h => htable ⟨h.1, h.2.1⟩
  rw [show exec (.mts g n d) s = execMts g n d s from rfl, execMts, withEnv_some _ he]
  simp only [hread, hwrite, Nat.not_lt.mpr hpriv, hg, Bool.not_true, Bool.false_eq_true, if_false, hmx, htable, hrcp]
  rfl

/-- With TSW.MX and the guard, and no swap of the table pending, `mts` of a table sends the write to the cluster's table store (R94). -/
theorem exec_mts_table (hrun : s.Runs e g) (hmx : e.line.mx = true) (hlo : 0x020 ≤ n.toNat) (hhi : n.toNat ≤ 0x027)
    (hswap : (s.cl (clusterOf e.site)).t3swap.contains (n.toNat - 0x020) = false) :
    exec (.mts g n d) s = .next ((s.put (e.adv 4)).send (.core e.site) (.engine (clusterOf e.site)) regVn
      (.ctbl e.site (n.toNat - 0x020) (e.reg d))) := by
  obtain ⟨he, hg⟩ := hrun
  obtain ⟨hread, hwrite⟩ := sysRead_sysWrite_table hlo hhi
  have hseed : n.toNat ≠ 0x007 := by omega
  rw [show exec (.mts g n d) s = execMts g n d s from rfl, execMts, withEnv_some _ he]
  simp only [hread, hwrite, Nat.not_lt_zero, hg, Bool.not_true, Bool.true_eq_false, Bool.false_eq_true, if_false, hlo, hhi, hmx, and_self,
    and_false, hseed, if_true, hswap]

end

/-- `$tsw` takes COOKIE, DLX and SVC from the written value (R383). -/
theorem getLsbD_writeTsw (l : Line) (v : Word) {k : Nat} (hk : k < 64) :
    (l.writeTsw v).tsw.getLsbD k = if 32 ≤ k ∨ (16 ≤ k ∧ k ≤ 23) ∨ k = 4 then v.getLsbD k else l.tsw.getLsbD k := by
  simp only [Line.writeTsw, Line.setTsw, getLsbD_wput _ _ _ _ hk, testBit_wfld]
  grind

/-- `$trcctl` takes the written value but for FRZ and its reserved bits, which become zero (R379). -/
theorem getLsbD_writeCtl (t : Trace) (v : Word) {k : Nat} (hk : k < 64) :
    (t.writeCtl v).ctl.getLsbD k = if k = 11 ∨ 46 ≤ k ∨ (13 ≤ k ∧ k ≤ 15) then false else v.getLsbD k := by
  simp only [Trace.writeCtl, getLsbD_wput _ _ _ _ hk, Nat.zero_testBit]
  grind

/-- The partition's registers that a supervisor writes and this development speaks of (R383). -/
def partRegs : List (BitVec 12) := [0x008#12, 0x100#12, 0x101#12, 0x102#12, 0x104#12, 0x105#12, 0x122#12, 0x123#12]

/-- A supervisor writes each of them, and none is a register with a rule of its own. -/
theorem partReg_number (n : BitVec 12) (hn : n ∈ partRegs) :
    sysWrite n.toNat = some 2 ∧ n.toNat ∉ [0x007, 0x110, 0x112, 0x118] ∧ ¬ (0x020 ≤ n.toNat ∧ n.toNat ≤ 0x027) ∧
      ¬ (0x010 ≤ n.toNat ∧ n.toNat ≤ 0x017) := by
  fin_cases hn <;> decide

/-- With the privilege and the guard, `mts` of a partition register sets it in the partition of the context's core (R383). -/
theorem exec_mts_partReg {s : State} {e : Env} {g : Guard} {n : BitVec 12} (d : Reg) (hrun : s.Runs e g) (hpriv : 2 ≤ e.line.priv)
    (hn : n ∈ partRegs) :
    exec (.mts g n d) s =
      .next ((s.put (e.adv 4)).setPart (s.partOf e.site) ((s.part (s.partOf e.site)).writeSys n.toNat (e.reg d))) := by
  obtain ⟨hwrite, hother, htable, hrcp⟩ := partReg_number n hn
  simp only [List.mem_cons, List.not_mem_nil, or_false, not_or] at hother
  obtain ⟨hseed, hctl, hsel, htsw⟩ := hother
  rw [exec_mts_eq_mtsWritten n d hrun hwrite hpriv htable hrcp, mtsWritten]
  simp only [hseed, hctl, hsel, htsw, if_false]
  rfl

/-- The partition that a state is given can be read back from it. -/
theorem setPart_inj {s : State} {p : Nat} {x y : Part} (h : s.setPart p x = s.setPart p y) : x = y := by
  simpa using congrArg (State.part · p) h

section
variable (y : Part) (v : Word) {k : Nat} (hk : k < 64)
include hk

/-- `$svcq` keeps bits [63:11] of the written value (R314). -/
theorem getLsbD_svcq_writeSys : (y.writeSys 0x008 v).svcq.getLsbD k = (decide (11 ≤ k) && v.getLsbD k) := by
  rw [show (y.writeSys 0x008 v).svcq = wput v 0 11 0 from rfl, getLsbD_wput _ _ _ _ hk, Nat.zero_testBit]
  grind

/-- `$xlbase` keeps bits [51:3]. -/
theorem getLsbD_xlbase_writeSys : (y.writeSys 0x100 v).xlbase.getLsbD k = (decide (3 ≤ k ∧ k ≤ 51) && v.getLsbD k) :=
  (getLsbD_W_wfld v 3 49 hk).trans (by grind)

/-- `$apdbase` keeps bits [51:4]. -/
theorem getLsbD_apdbase_writeSys : (y.writeSys 0x101 v).apdbase.getLsbD k = (decide (4 ≤ k ∧ k ≤ 51) && v.getLsbD k) :=
  (getLsbD_W_wfld v 4 48 hk).trans (by grind)

/-- `$biasbase` keeps bits [51:12]. -/
theorem getLsbD_biasbase_writeSys : (y.writeSys 0x102 v).biasbase.getLsbD k = (decide (12 ≤ k ∧ k ≤ 51) && v.getLsbD k) :=
  (getLsbD_W_wfld v 12 40 hk).trans (by grind)

/-- `$ilv` keeps bit 0. -/
theorem getLsbD_ilv_writeSys : (y.writeSys 0x104 v).ilv.getLsbD k = (decide (k = 0) && v.getLsbD k) := by
  rw [show (y.writeSys 0x104 v).ilv = W (wfld v 0 1 * 2 ^ 0) from congrArg W (Nat.mul_one _).symm, getLsbD_W_wfld v 0 1 hk]
  grind

/-- `$sasid` keeps bits [15:0]. -/
theorem getLsbD_sasid_writeSys : (y.writeSys 0x105 v).sasid.getLsbD k = (decide (k < 16) && v.getLsbD k) := by
  rw [show (y.writeSys 0x105 v).sasid = W (wfld v 0 16 * 2 ^ 0) from congrArg W (Nat.mul_one _).symm, getLsbD_W_wfld v 0 16 hk]
  grind

end

/-- Settles O24: each write comes to `mtsWritten`, or to the message of a table write, and the bits that a register keeps of the
written value are those that R383 gives it. -/
theorem systemRegisterWrites : Obligations.SystemRegisterWrites := by
  rintro s e g d _ hrun rfl
  refine ⟨?_, fun hpriv => ⟨(e.adv 4).line.writeTsw (e.reg d), ?_, rfl, fun k hk => getLsbD_writeTsw _ _ hk⟩,
    fun hpriv => ⟨(e.core.trace.writeCtl (e.reg d)).ctl, ?_, fun k hk => getLsbD_writeCtl _ _ hk⟩, ?_,
    fun hpriv n hn => ⟨_, exec_mts_partReg d hrun hpriv hn⟩,
    fun hmx n hlo hhi hswap => exec_mts_table n d hrun hmx hlo hhi hswap⟩
  · exact exec_mts_eq_mtsWritten (p := 0) 0x007 d hrun rfl (Nat.zero_le _) (by decide) (by decide)
  · exact exec_mts_eq_mtsWritten 0x118 d hrun rfl hpriv (by decide) (by decide)
  · exact exec_mts_eq_mtsWritten 0x110 d hrun rfl hpriv (by decide) (by decide)
  · rintro hpriv n x y hn rfl hexec
    obtain rfl := setPart_inj (Host.Outcome.next.inj ((exec_mts_partReg d hrun hpriv hn).symm.trans hexec))
    refine ⟨?_, ?_, ?_, ?_, ?_, ?_, ?_, ?_⟩ <;> rintro rfl
    · exact ⟨rfl, fun k hk => getLsbD_svcq_writeSys _ _ hk⟩
    · exact ⟨rfl, fun k hk => getLsbD_xlbase_writeSys _ _ hk⟩
    · exact ⟨rfl, fun k hk => getLsbD_apdbase_writeSys _ _ hk⟩
    · exact ⟨rfl, fun k hk => getLsbD_biasbase_writeSys _ _ hk⟩
    · exact ⟨rfl, fun k hk => getLsbD_ilv_writeSys _ _ hk⟩
    · exact ⟨rfl, fun k hk => getLsbD_sasid_writeSys _ _ hk⟩
    · rfl
    · rfl

end Sys2Proof
end

section
/-! The instructions on registers, family by family (R26, R105 to R108): each writes one register, or PW, in one of the shared forms of
the model. -/

namespace Sys2Proof

open Machine

/-! ## One bit of PW (R26) -/

/-- A predicate is its bit of PW, and p0 reads 1 (R26). -/
theorem pred_eq_or (l : Line) (p : Nat) : l.pred p = (p == 0 || l.pw.getLsbD p) := by
  by_cases h : p = 0 <;> simp [Line.pred, h]

/-- The word `x` with bit p replaced, in the arithmetic of `predEffect`. -/
def replaceBit (x : BitVec 32) (p : Nat) (b : Bool) : BitVec 32 :=
  BitVec.ofNat 32 (x.toNat - b2n (x.getLsbD p) * 2 ^ p + b2n b * 2 ^ p)

theorem testBit_b2n (b : Bool) (k : Nat) : (b2n b).testBit k = (decide (k = 0) && b) := by
  cases b with
  | false => simp [b2n]
  | true => rw [b2n, if_pos rfl, Bool.and_true, Bool.eq_iff_iff, Nat.testBit_one_eq_true_iff_self_eq_zero, decide_eq_true_iff]

/-- A number with bit p taken out and another put in, by the digits above and below it. -/
theorem sub_bit_add_bit (x p : Nat) (b : Bool) :
    x - b2n (x.testBit p) * 2 ^ p + b2n b * 2 ^ p = 2 ^ p * (2 ^ 1 * (x / 2 ^ p / 2) + b2n b) + x % 2 ^ p := by
  have hbit : b2n (x.testBit p) = x / 2 ^ p % 2 := by
    rw [Nat.testBit_eq_decide_div_mod_eq]
    rcases Nat.mod_two_eq_zero_or_one (x / 2 ^ p) with h | h <;> simp [h, b2n]
  have hdigits := Nat.div_add_mod x (2 ^ p)
  have hlow := congrArg (2 ^ p * ·) (Nat.div_add_mod (x / 2 ^ p) 2)
  simp only [Nat.mul_add] at hlow
  rw [hbit, Nat.mul_comm _ (2 ^ p), Nat.mul_comm _ (2 ^ p), Nat.mul_add, Nat.pow_one]
  omega

/-- The replaced bit is as given, the others as before. -/
theorem getLsbD_replaceBit (x : BitVec 32) (p : Nat) (b : Bool) {k : Nat} (hk : k < 32) :
    (replaceBit x p b).getLsbD k = if k = p then b else x.getLsbD k := by
  rw [replaceBit, BitVec.getLsbD_ofNat, decide_eq_true hk, Bool.true_and]
  simp only [BitVec.getLsbD]
  rw [sub_bit_add_bit, Nat.testBit_two_pow_mul_add _ (Nat.mod_lt _ (by positivity)), Nat.testBit_two_pow_mul_add _ (b2n_lt b),
    Nat.testBit_mod_two_pow, testBit_b2n, Nat.div_div_eq_div_mul, ← Nat.pow_succ, Nat.testBit_div_two_pow]
  rcases Nat.lt_trichotomy k p with h | rfl | h
  · simp [h, h.ne]
  · simp
  · have h1 : ¬ k < p := h.not_gt
    have h2 : ¬ k - p < 1 := by omega
    rw [if_neg h1, if_neg h2, if_neg h.ne', show k - p - 1 + (p + 1) = k by omega]

theorem getLsbD_one_shiftLeft (p : Nat) {k : Nat} (hk : k < 32) : (1#32 <<< p).getLsbD k = decide (k = p) := by
  rw [BitVec.getLsbD_shiftLeft, BitVec.getLsbD_one]
  grind

/-- A write of a predicate replaces its bit of PW, and a write of p0 is discarded (R26). -/
theorem setPred_eq (l : Line) (p : Nat) (b : Bool) :
    l.setPred p b = { l with pw := if p = 0 then l.pw else replaceBit l.pw p b } := by
  rw [Line.setPred]
  by_cases hp : p = 0
  · rw [if_pos hp, if_pos hp]
  · rw [if_neg hp, if_neg hp]
    have hbits : (if b then l.pw ||| (1#32 <<< p) else l.pw &&& ~~~(1#32 <<< p)) = replaceBit l.pw p b := by
      refine BitVec.eq_of_getLsbD_eq fun k hk => ?_
      rw [getLsbD_replaceBit _ _ _ hk]
      cases b with
      | false => simp only [Bool.false_eq_true, if_false, BitVec.getLsbD_and, BitVec.getLsbD_not, getLsbD_one_shiftLeft p hk, hk]; grind
      | true => simp only [if_true, BitVec.getLsbD_or, getLsbD_one_shiftLeft p hk]; grind
    rw [hbits]

/-- The word that `pput` leaves: PW[15:1] from ra, the other bits as before (R118). -/
theorem getLsbD_pputWord (pw : BitVec 32) (v : Word) {k : Nat} (hk : k < 32) :
    (BitVec.ofNat 32 (pw.toNat / 2 ^ 16 * 2 ^ 16 + v.toNat / 2 % 2 ^ 15 * 2 + pw.toNat % 2)).getLsbD k =
      if 1 ≤ k ∧ k < 16 then v.getLsbD k else pw.getLsbD k := by
  rw [show pw.toNat / 2 ^ 16 * 2 ^ 16 + v.toNat / 2 % 2 ^ 15 * 2 + pw.toNat % 2 =
      2 ^ 1 * (2 ^ 15 * (pw.toNat / 2 ^ 16) + v.toNat / 2 ^ 1 % 2 ^ 15) + pw.toNat % 2 ^ 1 by omega, BitVec.getLsbD_ofNat,
    Nat.testBit_two_pow_mul_add _ (Nat.mod_lt _ (by positivity)), Nat.testBit_two_pow_mul_add _ (Nat.mod_lt _ (by positivity))]
  simp only [Nat.testBit_mod_two_pow, Nat.testBit_div_two_pow, BitVec.getLsbD]
  grind

/-- It is the word that the model's masks give. -/
theorem pput_bits (pw : BitVec 32) (v : Word) :
    (pw &&& 0xFFFF0001#32) ||| (v.setWidth 32 &&& 0x0000FFFE#32) =
      BitVec.ofNat 32 (pw.toNat / 2 ^ 16 * 2 ^ 16 + v.toNat / 2 % 2 ^ 15 * 2 + pw.toNat % 2) := by
  have hkeep : ∀ k < 32, (0xFFFF0001#32).getLsbD k = decide (k = 0 ∨ 16 ≤ k) := by decide
  have htake : ∀ k < 32, (0x0000FFFE#32).getLsbD k = decide (1 ≤ k ∧ k < 16) := by decide
  refine BitVec.eq_of_getLsbD_eq fun k hk => ?_
  rw [getLsbD_pputWord pw v hk, BitVec.getLsbD_or, BitVec.getLsbD_and, BitVec.getLsbD_and, hkeep k hk, htake k hk,
    BitVec.getLsbD_setWidth]
  grind

/-! ## The forms (R105–R108) -/

section
variable {i : Instr} {g : Guard} {x : LaneEffect}

/-- The integer lane instructions of two sources write rd under a guard and raise no flag. -/
theorem exec_of_intLanes (h : intLanes i = some x) : ∃ g f, x.guard = some g ∧ ∀ s, exec i s = computeRd g s x.d f := by
  unfold intLanes at h
  split at h <;> cases h <;> exact ⟨_, _, rfl, fun _ => rfl⟩

/-- So do those of one source. -/
theorem exec_of_intLanes1 (h : intLanes1 i = some x) : ∃ g f, x.guard = some g ∧ ∀ s, exec i s = computeRd g s x.d f := by
  unfold intLanes1 at h
  split at h <;> cases h <;> exact ⟨_, _, rfl, fun _ => rfl⟩

/-- The floating-point lane instructions write rd under a guard; those that only move signs or classify raise no flag. -/
theorem exec_of_fpLanes (h : fpLanes i = some x) :
    ∃ g, x.guard = some g ∧ ((∃ f, ∀ s, exec i s = computeRd g s x.d f) ∨ ∃ f, ∀ s, exec i s = computeRdF g s x.d f) := by
  cases i with
  | fabs | fneg | fsgnj | fclass => cases h; exact ⟨_, rfl, .inl ⟨_, fun _ => rfl⟩⟩
  | fadd | fsub | fmul | fma | fms | fnma | fmin | fmax | frcpe | frsqe | vcmp => cases h; exact ⟨_, rfl, .inr ⟨_, fun _ => rfl⟩⟩
  | _ => cases h

/-- The 16-bit forms write rd without a guard (R34); those on integers raise no flag. -/
theorem exec_of_lanes16 (h : lanes16 i = some x) :
    x.guard = none ∧ ((∃ f, ∀ s, exec i s = computeRd16 s x.d f) ∨ ∃ f, ∀ s, exec i s = computeRdF16 s x.d f) := by
  cases i with
  | add16 | sub16 | and16 | or16 | xor16 | shl16 | shr16 | sra16 | mul16 | min16 | max16 =>
    cases h; exact ⟨rfl, .inl ⟨_, fun _ => rfl⟩⟩
  | fadd16 | fsub16 | fmul16 | fmax16 => cases h; exact ⟨rfl, .inr ⟨_, fun _ => rfl⟩⟩
  | _ => cases h

/-- The conversions write rd and raise flags under a guard. -/
theorem exec_of_convLanes (h : convLanes i = some x) : ∃ g f, x.guard = some g ∧ ∀ s, exec i s = computeRdF g s x.d f := by
  cases i with
  | icvtf | fcvti => cases h; exact ⟨_, _, rfl, fun _ => rfl⟩
  | fcvt g t r sr e d a =>
    cases sr with
    | false => cases h; exact ⟨_, _, rfl, fun _ => rfl⟩
    | true => cases h
  | _ => cases h

/-- The long instructions leave their result to a later answer, under a guard. -/
theorem exec_of_longLanes (h : longLanes i = some x) : ∃ g f, x.guard = some g ∧ ∀ s, exec i s = longOp g s x.d f := by
  unfold longLanes at h
  split at h <;> cases h <;> exact ⟨_, _, rfl, fun _ => rfl⟩

/-- The instructions that write a whole register do so under a guard, or have none. -/
theorem exec_of_wordEffect {x : WordEffect} (h : wordEffect i = some x) :
    ∃ f, (∃ g, x.guard = some g ∧ ∀ s, exec i s = computeRd g s x.d f) ∨
      (x.guard = none ∧ ∀ s, exec i s = withEnv s fun e => s.put (e.commit s.cycle x.len x.d (f e))) := by
  cases i with
  | mov | addi | andi | ori | xori | sext | zext | pget | sel | lea | vdot | vrsum | vsel | vmsk | widF =>
    cases h; exact ⟨_, .inl ⟨_, rfl, fun _ => rfl⟩⟩
  | mov16 | movi | movk | hinfo => cases h; exact ⟨_, .inr ⟨rfl, fun _ => rfl⟩⟩
  | _ => cases h

/-- The instructions that write predicates do so under a guard, and change PW of the line alone. -/
theorem exec_of_predEffect {f : Env → BitVec 32} (h : predEffect i = some (g, f)) :
    ∃ l : Env → Line, (∀ s, exec i s = computePred g s l) ∧ ∀ e, l e = { e.line with pw := f e } := by
  cases i with
  | cmp | pand | por | pxor | pandn =>
    cases h
    exact ⟨_, fun _ => rfl, fun e => by simp only [setPred_eq, pred_eq_or]; rfl⟩
  | cmpi =>
    cases h
    exact ⟨_, fun _ => rfl, fun e => setPred_eq _ _ _⟩
  | fcmp =>
    cases h
    exact ⟨_, fun _ => rfl, fun e => congrArg (Line.orFlags · _) (setPred_eq _ _ _)⟩
  | pput =>
    cases h
    exact ⟨_, fun _ => rfl, fun e => by rw [pput_bits]⟩
  | _ => cases h

end

end Sys2Proof
end

section
/-! O7: the guard (R27). Each guarded instruction has the shape `guarded g s f`, or checks its privilege first; either way a guard
that fails leaves only the advance of the PC. -/

namespace Sys2Proof

open Machine

/-! ## Guards -/

/-- The guard of a word is its fields n [11] and g [10:7] (R27). -/
theorem fGuard_eq (w : Nat) : fGuard w = { n := w.testBit 11, p := Fin.ofNat 16 (w / 2 ^ 7 % 16) } := by
  rw [fGuard, f1, f4, fld, fld, Nat.testBit_eq_decide_div_mod_eq]
  rfl

/-- The instruction is `guarded` by g: its effect, whatever it is, stands behind the test of the guard. -/
def GuardedBy (i : Instr) (g : Guard) : Prop := ∃ f : State → Env → State, ∀ s, exec i s = guarded g s (f s)

section
variable {i : Instr} {g : Guard} {x : LaneEffect}

/-! ## Every guarded instruction -/

/-- The transfers stand behind their guard (R131, R132). -/
theorem guardedBy_of_transferOf {e : Env} {x : Transfer} (h : transferOf i e = some x) : GuardedBy i x.guard := by
  unfold transferOf at h
  split at h <;> cases h <;> exact ⟨_, fun _ => rfl⟩

/-- So do the accesses and the waits, but for `resume`. -/
theorem guardedBy_of_guardOf (h : guardOf i = some g) (hres : ∀ h m a b, i ≠ .resume h m a b) : GuardedBy i g := by
  cases i with
  | resume => exact (hres _ _ _ _ rfl).elim
  | _ => cases h <;> exact ⟨_, fun _ => rfl⟩

/-- The lane, long, whole-register and predicate families. -/
theorem guardedBy_of_lanes (h : intLanes i = some x ∨ intLanes1 i = some x ∨ fpLanes i = some x ∨ convLanes i = some x ∨ longLanes i = some x)
    (hg : x.guard = some g) : GuardedBy i g := by
  rcases h with h | h | h | h | h
  · obtain ⟨_, _, hx, hf⟩ := exec_of_intLanes h
    exact Option.some.inj (hx.symm.trans hg) ▸ ⟨_, hf⟩
  · obtain ⟨_, _, hx, hf⟩ := exec_of_intLanes1 h
    exact Option.some.inj (hx.symm.trans hg) ▸ ⟨_, hf⟩
  · obtain ⟨_, hx, ⟨_, hf⟩ | ⟨_, hf⟩⟩ := exec_of_fpLanes h <;> exact Option.some.inj (hx.symm.trans hg) ▸ ⟨_, hf⟩
  · obtain ⟨_, _, hx, hf⟩ := exec_of_convLanes h
    exact Option.some.inj (hx.symm.trans hg) ▸ ⟨_, hf⟩
  · obtain ⟨_, _, hx, hf⟩ := exec_of_longLanes h
    exact Option.some.inj (hx.symm.trans hg) ▸ ⟨_, hf⟩

theorem guardedBy_of_wordEffect {x : WordEffect} (h : wordEffect i = some x) (hg : x.guard = some g) : GuardedBy i g := by
  obtain ⟨_, ⟨_, hx, hf⟩ | ⟨hx, -⟩⟩ := exec_of_wordEffect h
  · exact Option.some.inj (hx.symm.trans hg) ▸ ⟨_, hf⟩
  · cases hx.symm.trans hg

theorem guardedBy_of_predEffect {f : Env → BitVec 32} (h : predEffect i = some (g, f)) : GuardedBy i g := by
  obtain ⟨_, hexec, -⟩ := exec_of_predEffect h
  exact ⟨_, hexec⟩

/-! ## A guard that fails (R27) -/

section
variable {s : State} {e : Env} (he : s.env? = some e) (hg : e.line.guard g = false)
include he hg

theorem GuardedBy.exec_skips (h : GuardedBy i g) : exec i s = .next (s.put (e.adv 4)) := by
  obtain ⟨f, hf⟩ := h
  rw [hf, guarded_skips _ he hg]

/-- Behind a privilege that the context has, the guard counts as elsewhere. -/
theorem privileged_skips {p : Nat} (f : Env → State) (hpriv : p ≤ e.line.priv) : privileged p g s f = .next (s.put (e.adv 4)) := by
  simp only [privileged, withEnv_some _ he, if_neg (Nat.not_lt.mpr hpriv), hg, Bool.false_eq_true, if_false]

theorem exec_mfs_skips {n : BitVec 12} {r : Nat} (d : Reg) (hread : sysRead n.toNat = some r) (hpriv : r ≤ e.line.priv) :
    exec (.mfs g n d) s = .next (s.put (e.adv 4)) := by
  rw [show exec (.mfs g n d) s = execMfs g n d s from rfl, execMfs, withEnv_some _ he]
  simp only [hread, if_neg (Nat.not_lt.mpr hpriv), hg, Bool.not_false, if_true]

theorem exec_mts_skips {n : BitVec 12} {p : Nat} (d : Reg) (hwrite : sysWrite n.toNat = some p) (hpriv : p ≤ e.line.priv) :
    exec (.mts g n d) s = .next (s.put (e.adv 4)) := by
  obtain ⟨r, hread⟩ := sysRead_isSome_of_sysWrite hwrite
  rw [show exec (.mts g n d) s = execMts g n d s from rfl, execMts, withEnv_some _ he]
  simp only [hread, hwrite, if_neg (Nat.not_lt.mpr hpriv), hg, Bool.not_false, if_true]

/-- The instructions that the families leave out skip too; those with a privilege check do where it passes (R52). -/
theorem exec_skips_of_guardOfRest (h : guardOfRest i e = some g) : exec i s = .next (s.put (e.adv 4)) := by
  cases i with
  | resume | halt | xinv =>
    obtain ⟨hpriv, hg'⟩ := Option.ite_none_right_eq_some.mp h
    cases hg'
    exact privileged_skips he hg _ hpriv
  | mfs g' n d =>
    obtain ⟨hpriv, hg'⟩ := Option.ite_none_right_eq_some.mp h
    cases hg'
    obtain ⟨⟨r, w⟩, hrow, hr⟩ := Option.any_eq_true _ _ |>.mp hpriv
    exact exec_mfs_skips he hg d (sysRead_of_sysRow hrow) (of_decide_eq_true hr)
  | mts g' n d =>
    obtain ⟨hpriv, hg'⟩ := Option.ite_none_right_eq_some.mp h
    cases hg'
    obtain ⟨p, hrow, hp⟩ := Option.any_eq_true _ _ |>.mp hpriv
    obtain ⟨⟨r, w⟩, hrow, rfl⟩ := Option.bind_eq_some_iff.mp hrow
    exact exec_mts_skips he hg d (sysWrite_of_sysRow hrow) (of_decide_eq_true hp)
  | fcvt g' t r sr y d a =>
    cases h
    cases sr with
    | false => exact GuardedBy.exec_skips he hg ⟨_, fun _ => rfl⟩
    | true => exact GuardedBy.exec_skips he hg ⟨_, fun _ => rfl⟩
  | _ => cases h <;> exact GuardedBy.exec_skips he hg ⟨_, fun _ => rfl⟩

end

end

/-- Settles O7: each table of the statement makes the instruction `GuardedBy` its guard, or gives the privilege behind which the guard
stands. -/
theorem guardFails : Obligations.GuardFails := by
  refine ⟨fGuard_eq, fun l g => by rw [Line.guard, pred_eq_or], fun i g s e h he hg => ?_⟩
  rcases h with ⟨h, hres⟩ | h | ⟨x, h, hx⟩ | ⟨x, h, hx⟩ | ⟨f, h⟩ | ⟨x, h, rfl⟩
  · exact (guardedBy_of_guardOf h hres).exec_skips he hg
  · exact exec_skips_of_guardOfRest he hg h
  · exact (guardedBy_of_lanes h hx).exec_skips he hg
  · exact (guardedBy_of_wordEffect h hx).exec_skips he hg
  · exact (guardedBy_of_predEffect h).exec_skips he hg
  · exact (guardedBy_of_transferOf h).exec_skips he hg

end Sys2Proof
end

section
/-! O14: the instructions that write predicates (R26, R116 to R118, R126, R378). The line changes in PW
and PC alone, and beside it only the trace buffer, which records PW while it is enabled. -/

namespace Sys2Proof

open Machine

/-! ## The trace (R378) -/

/-- While the trace is disabled, nothing is recorded. -/
theorem record_of_disabled {t : Trace} (h : t.ctl.getLsbD 0 = false) (now kind slot ks payload : Nat) :
    t.record now kind slot ks payload = t := by
  rw [Trace.record, h]
  rfl

/-- Settles O14: the line that the instruction writes is the rule's, and the record of PW is the only change beside it. -/
theorem predicates : Obligations.Predicates := by
  intro i g f s e h _ hrun
  obtain ⟨l, hexec, hl⟩ := exec_of_predEffect h
  refine ⟨e.core.trace.record s.gtime 2 e.slot e.ks ((f e).toNat % 2 ^ 16), ?_, fun hoff => record_of_disabled hoff ..⟩
  rw [hexec, computePred_runs l hrun.1 hrun.2, hl]
  rfl

end Sys2Proof
end

section
/-! O16: what an instruction on registers leaves alone (R26, R105, R108). Each of them puts back the issuing context with one register,
PC and the predicates and flags of PW changed, and the frame follows from that alone. -/

namespace Sys2Proof

open Machine

/-! ## Register writes of a context -/

section
variable (e : Env) (n : Nat) (r : Reg) (v : Word)

/-- The kernel slot after a replacement is the new one; where the core has no such slot, nothing is replaced. -/
theorem kslot_setKs (k : KSlot) :
    ({ e with core := e.core.setKs e.ks k } : Env).kslot = k ∨ ({ e with core := e.core.setKs e.ks k } : Env).kslot = e.kslot := by
  simp only [Env.kslot, Core.setKs, List.getD_eq_getElem?_getD, List.getElem?_set]
  grind

/-- A register write leaves every other register alone, of either bank (R26). -/
theorem reg_setReg_ne {q : Reg} (hq : q ≠ r) : (e.setReg n r v).reg q = e.reg q := by
  by_cases hr : r.val < 8
  · exact e.reg_setReg_ne_v n r v hr hq
  · by_cases hv : q.val < 8
    · simp only [Env.setReg, Env.reg, if_neg hr, if_pos hv]
    · have hne : r.val - 8 ≠ q.val - 8 := fun h => hq (Fin.ext (by omega))
      simp only [Env.setReg, if_neg hr, Env.reg, if_neg hv]
      rcases kslot_setKs e (e.kslot.setS n (e.slot * 3 + 2) (r.val - 8) v) with h | h
      · rw [h]
        rcases e.kslot.setS_cases n (e.slot * 3 + 2) (r.val - 8) v with ⟨hs, -⟩ | hs
        · rw [hs]
        · rw [hs]; simp only [List.getD_eq_getElem?_getD, List.getElem?_set_ne hne]
      · rw [h]

end

/-! ## The bits of PW above the flags -/

/-- The flags stand in PW[20:16] (R86). -/
theorem getLsbD_flagBits (f : Flags) {k : Nat} (hk : 21 ≤ k) : f.bits.getLsbD k = false := by
  have hlt : f.bits.toNat < 2 ^ 21 := by
    obtain ⟨nv, dz, ov, uf, nx⟩ := f
    revert nv dz ov uf nx
    decide
  exact Nat.testBit_lt_two_pow (hlt.trans_le (Nat.pow_le_pow_right (by norm_num) hk))

/-- An instruction that writes predicates changes no bit of PW above the flags. -/
theorem getLsbD_predEffect {i : Instr} {g : Guard} {f : Env → BitVec 32} (h : predEffect i = some (g, f)) (e : Env) {k : Nat}
    (hk : 21 ≤ k) (hk32 : k < 32) : (f e).getLsbD k = e.line.pw.getLsbD k := by
  have hset (p : Pred) (b : Bool) : (if p.val = 0 then e.line.pw else replaceBit e.line.pw p.val b).getLsbD k = e.line.pw.getLsbD k := by
    split_ifs
    · rfl
    · rw [getLsbD_replaceBit _ _ _ hk32, if_neg (by omega)]
  cases i with
  | cmp | cmpi | pand | por | pxor | pandn => cases h; exact hset _ _
  | fcmp =>
    cases h
    rw [BitVec.getLsbD_or, getLsbD_flagBits _ hk, Bool.or_false]
    exact hset _ _
  | pput =>
    cases h
    exact (getLsbD_pputWord _ _ hk32).trans (if_neg (by omega))
  | _ => cases h

/-! ## The context that an instruction on registers puts back -/

/-- `e'` is the context `e` after an instruction that may write register `d`, PC, and PW up to bit 20. -/
structure Writes (d : Option Reg) (e e' : Env) : Prop where
  site : e'.site = e.site
  key : e'.key = e.key
  ks : e'.ks = e.ks
  reg : ∀ r, d ≠ some r → e'.reg r = e.reg r
  line : ∃ pc pw v, e'.line = { e.line with pc := pc, pw := pw, v := v }
  high : ∀ k, 21 ≤ k → k < 32 → e'.line.pw.getLsbD k = e.line.pw.getLsbD k
  lfsr : e'.core.lfsr = e.core.lfsr

section
variable (e : Env) (n len : Nat) (r : Reg) (v : Word)

theorem writes_adv (d : Option Reg) : Writes d e (e.adv len) :=
  ⟨rfl, rfl, rfl, fun _ _ => rfl, ⟨_, _, _, rfl⟩, fun _ _ _ => rfl, rfl⟩

theorem writes_commit_orFlags (f : Flags) :
    Writes (some r) e { e.commit n len r v with line := (e.commit n len r v).line.orFlags f } := by
  refine ⟨?_, ?_, ?_, fun q hq => ?_, ?_, fun k hk _ => ?_, ?_⟩
  · simp [Env.commit]
  · simp [Env.commit]
  · simp [Env.commit]
  · exact reg_setReg_ne e n r v fun h => hq (congrArg some h.symm)
  · obtain ⟨vs, hvs⟩ := e.setReg_line n r v
    exact ⟨_, _, vs, by simp only [Env.commit, Env.adv, Line.orFlags, hvs]; rfl⟩
  · simp [Line.orFlags, Env.commit, getLsbD_flagBits f hk]
  · simp [Env.commit]

theorem writes_commit : Writes (some r) e (e.commit n len r v) := by
  have h := writes_commit_orFlags e n len r v Flags.none
  rwa [Line.orFlags_none] at h

@[simp] theorem commit_pw : (e.commit n len r v).line.pw = e.line.pw := by simp [Env.commit]

theorem writes_pred {i : Instr} {g : Guard} {f : Env → BitVec 32} (h : predEffect i = some (g, f)) (now kind payload : Nat) :
    Writes none e ((({ e with line := { e.line with pw := f e } } : Env).trace now kind payload).adv 4) :=
  ⟨rfl, rfl, rfl, fun _ _ => rfl, ⟨_, _, _, rfl⟩, fun _ hk hk32 => getLsbD_predEffect h e hk hk32, rfl⟩

end

section
variable {s t : State} {e : Env} {i : Instr} {r : Reg} (he : s.env? = some e)
include he

/-- Under a guard, the context is put back with rd written, or with its PC advanced. -/
theorem computeRdF_writes {g : Guard} {f : Env → Word × Flags} (h : computeRdF g s r f = .next t) :
    ∃ e', t = s.put e' ∧ Writes (some r) e e' := by
  cases hg : e.line.guard g with
  | true => exact ⟨_, Host.Outcome.next.inj (h.symm.trans (computeRdF_runs f he hg)), writes_commit_orFlags ..⟩
  | false => exact ⟨_, Host.Outcome.next.inj (h.symm.trans (guarded_skips _ he hg)), writes_adv ..⟩

/-- Without flags, PW stays. -/
theorem computeRd_writes {g : Guard} {f : Env → Word} (h : computeRd g s r f = .next t) :
    ∃ e', t = s.put e' ∧ Writes (some r) e e' ∧ e'.line.pw = e.line.pw := by
  cases hg : e.line.guard g with
  | true => exact ⟨_, Host.Outcome.next.inj (h.symm.trans (computeRd_runs f he hg)), writes_commit .., commit_pw ..⟩
  | false => exact ⟨_, Host.Outcome.next.inj (h.symm.trans (guarded_skips _ he hg)), writes_adv .., rfl⟩

/-- An instruction without a guard writes rd. -/
theorem withEnv_commit_writes {len : Nat} {f : Env → Word} (h : (withEnv s fun e => s.put (e.commit s.cycle len r (f e))) = .next t) :
    ∃ e', t = s.put e' ∧ Writes (some r) e e' ∧ e'.line.pw = e.line.pw :=
  ⟨_, Host.Outcome.next.inj (h.symm.trans (withEnv_some _ he)), writes_commit .., commit_pw ..⟩

/-- The integer lane instructions and those that write a whole register leave PW alone. -/
theorem integer_writes {d : Option Reg} (hexec : exec i s = .next t)
    (h : (∃ x, (intLanes i = some x ∨ intLanes1 i = some x) ∧ d = some x.d) ∨ ∃ x, wordEffect i = some x ∧ d = some x.d) :
    ∃ e', t = s.put e' ∧ Writes d e e' ∧ e'.line.pw = e.line.pw := by
  rcases h with ⟨x, h | h, rfl⟩ | ⟨x, h, rfl⟩
  · obtain ⟨g, f, -, hf⟩ := exec_of_intLanes h
    exact computeRd_writes he ((hf s).symm.trans hexec)
  · obtain ⟨g, f, -, hf⟩ := exec_of_intLanes1 h
    exact computeRd_writes he ((hf s).symm.trans hexec)
  · obtain ⟨f, ⟨g, -, hf⟩ | ⟨-, hf⟩⟩ := exec_of_wordEffect h
    · exact computeRd_writes he ((hf s).symm.trans hexec)
    · exact withEnv_commit_writes he ((hf s).symm.trans hexec)

/-- So do the 16-bit forms on integers; those on floating-point lanes raise flags. -/
theorem lanes16_writes {x : LaneEffect} (hexec : exec i s = .next t) (h : lanes16 i = some x) :
    ∃ e', t = s.put e' ∧ Writes (some x.d) e e' := by
  obtain ⟨-, ⟨f, hf⟩ | ⟨f, hf⟩⟩ := exec_of_lanes16 h
  · exact ⟨_, Host.Outcome.next.inj (hexec.symm.trans ((hf s).trans (computeRd16_runs f he))), writes_commit ..⟩
  · exact ⟨_, Host.Outcome.next.inj (hexec.symm.trans ((hf s).trans (computeRdF16_runs f he))), writes_commit_orFlags ..⟩

/-- The floating-point lane instructions and the conversions raise flags alone in PW. -/
theorem fp_writes {x : LaneEffect} (hexec : exec i s = .next t) (h : fpLanes i = some x ∨ convLanes i = some x) :
    ∃ e', t = s.put e' ∧ Writes (some x.d) e e' := by
  rcases h with h | h
  · obtain ⟨g, -, ⟨f, hf⟩ | ⟨f, hf⟩⟩ := exec_of_fpLanes h
    · obtain ⟨e', ht, hw, -⟩ := computeRd_writes he ((hf s).symm.trans hexec)
      exact ⟨e', ht, hw⟩
    · exact computeRdF_writes he ((hf s).symm.trans hexec)
  · obtain ⟨g, f, -, hf⟩ := exec_of_convLanes h
    exact computeRdF_writes he ((hf s).symm.trans hexec)

/-- The instructions that write predicates write no register. -/
theorem predEffect_writes {g : Guard} {f : Env → BitVec 32} (hexec : exec i s = .next t) (h : predEffect i = some (g, f)) :
    ∃ e', t = s.put e' ∧ Writes none e e' := by
  obtain ⟨l, hf, hl⟩ := exec_of_predEffect h
  have hnext := (hf s).symm.trans hexec
  cases hg : e.line.guard g with
  | true =>
    rw [computePred_runs l he hg, hl] at hnext
    exact ⟨_, (Host.Outcome.next.inj hnext).symm, writes_pred e h ..⟩
  | false => exact ⟨_, Host.Outcome.next.inj (hnext.symm.trans (guarded_skips _ he hg)), writes_adv ..⟩

/-! ## The frame of a context put back -/

/-- A context's registers are where the state holds them (R26). -/
theorem regOf_eq_reg (q : Reg) : s.regOf e q = e.reg q := by
  obtain ⟨hsite, -, hcore, -, hline, -⟩ := State.env?_some he
  simp only [State.regOf, Env.reg, Env.kslot, hline, hsite, hcore, Option.map_some, Option.getD_some]

omit he in
/-- The line of a context put back, and its core. -/
theorem line?_put_of_writes {d : Option Reg} {e' : Env} (hw : Writes d e e') :
    (s.put e').line? e.key = some { e'.line with touched := true } := hw.key ▸ s.line?_put_eq e'

omit he in
theorem core_put_of_writes {d : Option Reg} {e' : Env} (hw : Writes d e e') : (s.put e').core e.site = e'.core :=
  hw.site ▸ s.core_put_eq e'

omit he in
/-- The registers of a context put back are where the state holds them too. -/
theorem regOf_put {d : Option Reg} {e' : Env} (hw : Writes d e e') (q : Reg) : (s.put e').regOf e q = e'.reg q := by
  simp only [State.regOf, Env.reg, Env.kslot, line?_put_of_writes hw, core_put_of_writes hw, hw.ks, Option.map_some, Option.getD_some]

/-- The integer and whole-register families leave PW as it was. -/
theorem pw_of_integer (hexec : exec i s = .next t)
    (h : (∃ x, wordEffect i = some x) ∨ (∃ x, intLanes i = some x) ∨ ∃ x, intLanes1 i = some x) :
    (t.line? e.key).map (·.pw) = some e.line.pw := by
  obtain ⟨d, e', rfl, hw, hpw⟩ : ∃ d e', t = s.put e' ∧ Writes d e e' ∧ e'.line.pw = e.line.pw := by
    rcases h with ⟨x, h⟩ | ⟨x, h⟩ | ⟨x, h⟩
    · exact ⟨_, integer_writes he hexec (.inr ⟨x, h, rfl⟩)⟩
    · exact ⟨_, integer_writes he hexec (.inl ⟨x, .inl h, rfl⟩)⟩
    · exact ⟨_, integer_writes he hexec (.inl ⟨x, .inr h, rfl⟩)⟩
  rw [line?_put_of_writes hw, Option.map_some, hpw]

end

/-- Words that agree above the flags. -/
theorem toNat_div_eq_of_getLsbD_eq {x y : BitVec 32} (h : ∀ k, 21 ≤ k → k < 32 → x.getLsbD k = y.getLsbD k) :
    x.toNat / 2 ^ 21 = y.toNat / 2 ^ 21 := by
  refine Nat.eq_of_testBit_eq fun j => ?_
  rw [Nat.testBit_div_two_pow, Nat.testBit_div_two_pow]
  rcases Nat.lt_or_ge (j + 21) 32 with hj | hj
  · exact h (j + 21) (Nat.le_add_left ..) hj
  · exact (BitVec.getLsbD_of_ge x _ hj).trans (BitVec.getLsbD_of_ge y _ hj).symm

/-- Putting a context back changes no byte outside its own line (R70). -/
theorem rdByte_put_ne (s : State) {e : Env} {a : Nat} (h : a / 128 ≠ e.key) : (s.put e).rdByte a = s.rdByte a := by
  simp only [State.rdByte, s.line?_put_ne h, State.put_mem]

/-- Settles O16: the next state is the context put back, and `Writes` says what of it may have changed. -/
theorem registerFrame : Obligations.RegisterFrame := by
  intro i s t e d he hexec hfam
  obtain ⟨e', rfl, hw⟩ : ∃ e', t = s.put e' ∧ Writes d e e' := by
    rcases hfam with ⟨x, h | h | h | h | h, rfl⟩ | ⟨x, h, rfl⟩ | ⟨g, f, h, rfl⟩
    · exact (integer_writes he hexec (.inl ⟨x, .inl h, rfl⟩)).imp fun _ ⟨ht, hw, _⟩ => ⟨ht, hw⟩
    · exact (integer_writes he hexec (.inl ⟨x, .inr h, rfl⟩)).imp fun _ ⟨ht, hw, _⟩ => ⟨ht, hw⟩
    · exact lanes16_writes he hexec h
    · exact fp_writes he hexec (.inl h)
    · exact fp_writes he hexec (.inr h)
    · exact (integer_writes he hexec (.inr ⟨x, h, rfl⟩)).imp fun _ ⟨ht, hw, _⟩ => ⟨ht, hw⟩
    · exact predEffect_writes he hexec h
  obtain ⟨pc, pw, v, hl⟩ := hw.line
  obtain ⟨hsite, -, hcur, -⟩ := State.env?_some he
  refine ⟨fun r hr => ?_, pw_of_integer he hexec, ?_, ?_, fun key hkey => ?_, rfl, rfl, ?_, fun site hs => ?_, rfl, fun a ha => ?_⟩
  · rw [regOf_put hw, hw.reg r hr, regOf_eq_reg he]
  · rw [line?_put_of_writes hw, Option.map_some, Option.some.injEq]
    exact toNat_div_eq_of_getLsbD_eq hw.high
  · rw [line?_put_of_writes hw, hl]; rfl
  · exact s.line?_put_ne (hw.key ▸ hkey)
  · rw [core_put_of_writes hw, hw.lfsr, hsite, hcur]
  · exact s.core_put_ne (hw.site ▸ hs)
  · exact rdByte_put_ne s (hw.key ▸ ha)

end Sys2Proof
end

section
/-! O10: the 16-bit lane instructions (R34, R110, R130). What a lane instruction computes is compared with its rule lane by lane, once
for the forms without flags and once for those with them. -/

namespace Sys2Proof

open Machine

/-! ## One lane of the integer operations (R110) -/

/-- A lane type's width is a power of two. -/
theorem width_eq_two_pow (t : LaneType) : ∃ n, t.width = 2 ^ n := by
  cases t with
  | i8 => exact ⟨3, rfl⟩
  | i16 | bf16 | f16 => exact ⟨4, rfl⟩
  | i32 | f32 => exact ⟨5, rfl⟩
  | i64 | f64 => exact ⟨6, rfl⟩

/-- The masked shift count is the count modulo the width. -/
theorem shiftCount_eq_countOf (t : LaneType) (y : Nat) : shiftCount t.width y = countOf t.width y := by
  obtain ⟨n, hn⟩ := width_eq_two_pow t
  rw [shiftCount, countOf, hn, Nat.and_two_pow_sub_one_eq_mod]

/-- The difference of two lanes, modulo the width. -/
theorem wrap_sub_eq_subLane {w x y : Nat} (hy : y < 2 ^ w) : wrap w ((x : Int) - y) = subLane w x y := by
  have hcast : (x : Int) - y = ((2 ^ w + x - y : Nat) : Int) - 2 ^ w := by
    rw [Nat.cast_sub (by omega)]
    push_cast
    ring
  rw [wrap, hcast, Int.sub_emod_right, subLane]
  exact_mod_cast rfl

theorem minS_eq (w x y : Nat) : minS w x y = if signed w y < signed w x then y else x := by
  rw [minS]
  grind

/-- Two lanes of equal signed value are equal, so it does not matter which of them the larger is. -/
theorem maxS_eq {w x y : Nat} (hx : x < 2 ^ w) (hy : y < 2 ^ w) : maxS w x y = if signed w x < signed w y then y else x := by
  have heq : signed w x = signed w y → x = y := fun h => by rw [← wrap_signed hx, h, wrap_signed hy]
  rw [maxS]
  grind

/-! ## From the word to the lanes (R86, R105) -/

/-- The lanes of two registers, pair by pair. -/
theorem zipWith_lanes {α : Type} (w : Nat) (f : Nat → Nat → α) (a b : Word) :
    List.zipWith f (lanes w a) (lanes w b) = (List.range (64 / w)).map fun k => f (lane w a k) (lane w b k) := by
  rw [lanes, lanes, List.zipWith_map, List.zipWith_self]

/-- A lane of a result with flags. -/
theorem lane_flanes2 {w k : Nat} (f : Nat → Nat → Nat × Flags) (a b : Word) (h : k < 64 / w) :
    lane w (flanes2 w f a b).1 k = (f (lane w a k) (lane w b k)).1 % 2 ^ w := by
  rw [flanes2, packF, zipWith_lanes, lane_pack (by simpa using mul_lanes_le w)]
  simp [h]

/-- Its flags are those of its lanes. -/
theorem flags_flanes2 (w : Nat) (f : Nat → Nat → Nat × Flags) (a b : Word) :
    (flanes2 w f a b).2 = Flags.all ((List.range (64 / w)).map fun k => (f (lane w a k) (lane w b k)).2) := by
  rw [flanes2, packF, zipWith_lanes]
  exact congrArg Flags.all List.map_map

/-- A flag of a list of lanes is raised when one of them raises it. -/
theorem any_map_range (n : Nat) (f : Nat → Flags) (p : Flags → Bool) :
    (((List.range n).map f).any p = true) ↔ ∃ k, k < n ∧ p (f k) = true := by
  simp

section
variable {x : LaneEffect} {i : Instr}

/-- A lane instruction with flags does what R105 and R86 say when its word holds the rule's lanes and its flags are those of the lanes. -/
theorem holds_of_flags (w : Env → Word × Flags)
    (hexec : ∀ s e, s.env? = some e → (∀ g, x.guard = some g → e.line.guard g = true) → exec i s = .next (s.put
      { e.commit s.cycle x.len x.d (w e).1 with line := (e.commit s.cycle x.len x.d (w e).1).line.orFlags (w e).2 }))
    (hlane : ∀ e k, k < 64 / x.width → lane x.width (w e).1 k = (x.lane e k).1 % 2 ^ x.width)
    (hflags : ∀ e, (w e).2 = Flags.all ((List.range (64 / x.width)).map fun k => (x.lane e k).2)) : x.Holds i := by
  intro s e he hg
  refine ⟨_, _, hexec s e he hg, hlane e, ?_, ?_, ?_, ?_, ?_⟩
  · rw [hflags, Flags.all_nv, any_map_range]
  · rw [hflags, Flags.all_dz, any_map_range]
  · rw [hflags, Flags.all_of, any_map_range]
  · rw [hflags, Flags.all_uf, any_map_range]
  · rw [hflags, Flags.all_nx, any_map_range]

/-- No lane raises a flag, and none is raised. -/
theorem all_none (n : Nat) : Flags.all ((List.range n).map fun _ => Flags.none) = Flags.none := by
  rw [List.map_const', Flags.all]
  induction (List.range n).length with
  | zero => rfl
  | succ n ih => exact ih

/-- One without flags does so when its word holds the rule's lanes and the rule raises none. -/
theorem holds_of_word (w : Env → Word)
    (hexec : ∀ s e, s.env? = some e → (∀ g, x.guard = some g → e.line.guard g = true) →
      exec i s = .next (s.put (e.commit s.cycle x.len x.d (w e))))
    (hlane : ∀ e k, k < 64 / x.width → lane x.width (w e) k = (x.lane e k).1 % 2 ^ x.width)
    (hflags : ∀ e k, (x.lane e k).2 = Flags.none) : x.Holds i := by
  refine holds_of_flags (fun e => (w e, Flags.none)) (fun s e he hg => ?_) hlane fun e => ?_
  · rw [hexec s e he hg, Line.orFlags_none]
  · simp only [hflags, all_none]

end

/-! ## The 16-bit forms (R34, R130) -/

section
variable {i : Instr} {g : Guard} {t : LaneType} {d a b : Reg}

/-- A 16-bit form on integer lanes does what its rule says when the operation of one lane does. -/
theorem short_of2_holds {f rule : Nat → Nat → Nat}
    (hexec : ∀ s, exec i s = computeRd16 s d fun e => lanes2 t.width f (e.reg a) (e.reg b))
    (hrule : ∀ x y, x < 2 ^ t.width → y < 2 ^ t.width → f x y = rule x y) : (LaneEffect.of2 g t d a b rule).short.Holds i :=
  holds_of_word _ (fun s _ he _ => (hexec s).trans (computeRd16_runs _ he))
    (fun _ _ hk => (lane_lanes2 f _ _ hk).trans (congrArg (· % 2 ^ t.width) (hrule _ _ (lane_lt ..) (lane_lt ..)))) fun _ _ => rfl

/-- One on floating-point lanes, with the operation of one lane that the rule names. -/
theorem short_fp2_holds {f : Nat → Nat → Nat × Flags}
    (hexec : ∀ s, exec i s = computeRdF16 s d fun e => flanes2 t.width f (e.reg a) (e.reg b)) :
    (LaneEffect.fp2 g t d a b f).short.Holds i :=
  holds_of_flags _ (fun s _ he _ => (hexec s).trans (computeRdF16_runs _ he))
    (fun _ _ hk => lane_flanes2 f _ _ hk) fun _ => flags_flanes2 ..

end

/-- Settles O10: form by form, the operation of one lane is the rule's. -/
theorem shortForms : Obligations.ShortForms := by
  intro i x h _
  cases i with
  | add16 | and16 | or16 | xor16 | mul16 => cases h; exact short_of2_holds (fun _ => rfl) fun _ _ _ _ => rfl
  | sub16 => cases h; exact short_of2_holds (fun _ => rfl) fun _ _ _ hy => wrap_sub_eq_subLane hy
  | shl16 =>
    cases h
    exact short_of2_holds (fun _ => rfl) fun _ _ _ _ => by rw [shlLane, shiftCount_eq_countOf, Nat.shiftLeft_eq]
  | shr16 =>
    cases h
    exact short_of2_holds (fun _ => rfl) fun _ _ _ _ => by rw [shrLane, shiftCount_eq_countOf, Nat.shiftRight_eq_div_pow]
  | sra16 => cases h; exact short_of2_holds (fun _ => rfl) fun _ _ _ _ => by rw [sraLane, shiftCount_eq_countOf]
  | min16 => cases h; exact short_of2_holds (fun _ => rfl) fun _ _ _ _ => minS_eq ..
  | max16 => cases h; exact short_of2_holds (fun _ => rfl) fun _ _ hx hy => maxS_eq hx hy
  | fadd16 | fsub16 | fmul16 | fmax16 => cases h; exact short_fp2_holds fun _ => rfl
  | _ => cases h

end Sys2Proof
end

section
/-! O3: the state after reset (R88, R94, R153, R321, R384, R428). -/

namespace Sys2Proof

open Machine

/-- The package is one partition: whatever the cluster, the first partition whose mask is asked is number 0 (R428). -/
theorem partOfCl_reset (cl : Nat) : State.reset.partOfCl cl = 0 := by
  have hparts : State.reset.parts = [(0, Part.reset 0xFFFF)] := rfl
  rw [State.partOfCl, hparts]
  cases h : [(0, Part.reset 0xFFFF)].find? fun e => e.2.mask.testBit (cl / 16) with
  | none => rfl
  | some e => rw [List.mem_singleton.mp (List.mem_of_find?_eq_some h)]

/-- Settles O3: the tables of the reset state are empty, so each register has the value that stands for an absent entry. -/
theorem resetRegisters : Obligations.ResetRegisters :=
  ⟨State.reset_mem_wf, rfl, fun _ => rfl, fun _ => rfl, fun _ _ => rfl, fun _ _ => rfl, rfl, rfl, fun cl _ => partOfCl_reset cl, fun _ => rfl⟩

end Sys2Proof
end

section
/-! O11: the floating-point lane instructions (R86, R122 to R127). -/

namespace Sys2Proof

open Machine

/-! ## The sign of a lane (R123) -/

section
variable {n x : Nat}

/-- A lane with its top bit clear is a number of one bit less. -/
theorem lt_two_pow_of_testBit_false (hx : x < 2 ^ (n + 1)) (h : x.testBit n = false) : x < 2 ^ n := by
  refine Nat.lt_pow_two_of_testBit x fun i hi => ?_
  rcases Nat.eq_or_lt_of_le hi with rfl | hlt
  · exact h
  · exact Nat.testBit_lt_two_pow (hx.trans_le (Nat.pow_le_pow_right Nat.two_pos hlt))

/-- Dropping the top bit of a lane. -/
theorem mod_two_pow_eq_clear_top (hx : x < 2 ^ (n + 1)) : x % 2 ^ n = if x.testBit n then x - 2 ^ n else x := by
  split_ifs with h
  · have hge := Nat.ge_two_pow_of_testBit h
    rw [Nat.mod_eq_sub_mod hge, Nat.mod_eq_of_lt (by rw [Nat.pow_succ] at hx; omega)]
  · exact Nat.mod_eq_of_lt (lt_two_pow_of_testBit_false hx (Bool.eq_false_iff.mpr h))

/-- A bit put above a number. -/
theorem xor_two_pow_of_lt (hx : x < 2 ^ n) : x ^^^ 2 ^ n = x + 2 ^ n := by
  refine (Nat.eq_of_testBit_eq fun i => ?_).trans (Nat.add_comm ..)
  rw [Nat.testBit_xor, Nat.testBit_two_pow]
  rcases Nat.lt_trichotomy i n with hi | rfl | hi
  · rw [Nat.testBit_two_pow_add_gt hi]
    simp [hi.ne']
  · rw [Nat.testBit_two_pow_add_eq, Nat.testBit_lt_two_pow hx]
    simp
  · have hlt : 2 ^ n + x < 2 ^ i := by
      have := Nat.pow_le_pow_right Nat.two_pos hi
      rw [Nat.pow_succ] at this
      omega
    rw [Nat.testBit_lt_two_pow hlt, Nat.testBit_lt_two_pow (by omega)]
    simp [hi.ne]

/-- Inverting the top bit of a lane. -/
theorem xor_two_pow_eq_flip_top (hx : x < 2 ^ (n + 1)) :
    x ^^^ 2 ^ n = if x.testBit n then x - 2 ^ n else x + 2 ^ n := by
  split_ifs with h
  · have hge := Nat.ge_two_pow_of_testBit h
    have hlow := xor_two_pow_of_lt (n := n) (x := x - 2 ^ n) (by rw [Nat.pow_succ] at hx; omega)
    rw [Nat.sub_add_cancel hge] at hlow
    rw [← hlow, Nat.xor_assoc, Nat.xor_self, Nat.xor_zero, hlow]
  · exact xor_two_pow_of_lt (lt_two_pow_of_testBit_false hx (Bool.eq_false_iff.mpr h))

/-- The top bit of a lane, in its place. -/
theorem top_bit_mul (hx : x < 2 ^ (n + 1)) : x / 2 ^ n * 2 ^ n = if x.testBit n then 2 ^ n else 0 := by
  have hdiv := Nat.div_add_mod' x (2 ^ n)
  have hmod := mod_two_pow_eq_clear_top hx
  split_ifs at hmod ⊢ with h
  · have hge := Nat.ge_two_pow_of_testBit h
    omega
  · omega

end

/-- Every lane has a top bit. -/
theorem width_pos (t : LaneType) : 0 < t.width := by cases t <;> decide

/-- A comparison of lanes gives all ones or zero, and integer lanes raise no flag (R122). -/
theorem vcmpLane_eq (t : LaneType) (c : Cond) (x y : Nat) :
    vcmpLane t c x y =
      if t.isInt then (if testInt c t.width x y then 2 ^ t.width - 1 else 0, Flags.none)
      else (if (fpTest (fmtOf t) (condToF c) x y).1 then 2 ^ t.width - 1 else 0, (fpTest (fmtOf t) (condToF c) x y).2) := by
  rw [vcmpLane]
  split_ifs <;> rfl

/-! ## Lanes with flags, for one and three sources (R86, R105) -/

/-- One source counts as two of which the second is not read. -/
theorem flanes1_eq_flanes2 (w : Nat) (f : Nat → Nat × Flags) (a : Word) : flanes1 w f a = flanes2 w (fun x _ => f x) a a := by
  rw [flanes1, flanes2, List.zipWith_self]

/-- The lanes of three registers, triple by triple. -/
theorem zipWith_lanes3 {α : Type} (w : Nat) (f : Nat → Nat → Nat → α) (a b c : Word) :
    List.zipWith (fun x g => g x) (lanes w a) (List.zipWith (fun y z x => f x y z) (lanes w b) (lanes w c)) =
      (List.range (64 / w)).map fun k => f (lane w a k) (lane w b k) (lane w c k) := by
  rw [zipWith_lanes, lanes, List.zipWith_map, List.zipWith_self]

theorem lane_flanes3 {w k : Nat} (f : Nat → Nat → Nat → Nat × Flags) (a b c : Word) (h : k < 64 / w) :
    lane w (flanes3 w f a b c).1 k = (f (lane w a k) (lane w b k) (lane w c k)).1 % 2 ^ w := by
  rw [flanes3, packF, zipWith_lanes3, lane_pack (by simpa using mul_lanes_le w)]
  simp [h]

theorem flags_flanes3 (w : Nat) (f : Nat → Nat → Nat → Nat × Flags) (a b c : Word) :
    (flanes3 w f a b c).2 = Flags.all ((List.range (64 / w)).map fun k => (f (lane w a k) (lane w b k) (lane w c k)).2) := by
  rw [flanes3, packF, zipWith_lanes3]
  exact congrArg Flags.all List.map_map

/-! ## Instructions under a guard -/

section
variable {i : Instr} {g : Guard} {t : LaneType} {d a b : Reg}

/-- An instruction on the lanes of one source does what its rule says when the operation of one lane does. -/
theorem of1_holds {f rule : Nat → Nat} (hexec : ∀ s, exec i s = computeRd g s d fun e => lanes1 t.width f (e.reg a))
    (hrule : ∀ x, x < 2 ^ t.width → f x = rule x) : (LaneEffect.of1 g t d a rule).Holds i :=
  holds_of_word _ (fun s _ he hg => (hexec s).trans (computeRd_runs _ he (hg g rfl)))
    (fun _ _ hk => (lane_lanes1 f _ hk).trans (congrArg (· % 2 ^ t.width) (hrule _ (lane_lt ..)))) fun _ _ => rfl

/-- One on the lanes of two sources. -/
theorem of2_holds {f rule : Nat → Nat → Nat} (hexec : ∀ s, exec i s = computeRd g s d fun e => lanes2 t.width f (e.reg a) (e.reg b))
    (hrule : ∀ x y, x < 2 ^ t.width → y < 2 ^ t.width → f x y = rule x y) : (LaneEffect.of2 g t d a b rule).Holds i :=
  holds_of_word _ (fun s _ he hg => (hexec s).trans (computeRd_runs _ he (hg g rfl)))
    (fun _ _ hk => (lane_lanes2 f _ _ hk).trans (congrArg (· % 2 ^ t.width) (hrule _ _ (lane_lt ..) (lane_lt ..)))) fun _ _ => rfl

/-- One on the lanes of two sources that raises the flags of its lanes. -/
theorem fp2_holds {f : Nat → Nat → Nat × Flags} (hexec : ∀ s, exec i s = computeRdF g s d fun e => flanes2 t.width f (e.reg a) (e.reg b)) :
    (LaneEffect.fp2 g t d a b f).Holds i :=
  holds_of_flags _ (fun s _ he hg => (hexec s).trans (computeRdF_runs _ he (hg g rfl)))
    (fun _ _ hk => lane_flanes2 f _ _ hk) fun _ => flags_flanes2 ..

/-- One on the lanes of one source that does. -/
theorem fp1_holds {f : Nat → Nat × Flags} (hexec : ∀ s, exec i s = computeRdF g s d fun e => flanes1 t.width f (e.reg a)) :
    (LaneEffect.fp2 g t d a a fun x _ => f x).Holds i :=
  fp2_holds fun s => by simp only [hexec, flanes1_eq_flanes2]

/-- A fused operation, which reads rd too. -/
theorem fp3_holds {f : Nat → Nat → Nat → Nat × Flags}
    (hexec : ∀ s, exec i s = computeRdF g s d fun e => flanes3 t.width f (e.reg a) (e.reg b) (e.reg d)) :
    (LaneEffect.fp3 g t d a b f).Holds i :=
  holds_of_flags _ (fun s _ he hg => (hexec s).trans (computeRdF_runs _ he (hg g rfl)))
    (fun _ _ hk => lane_flanes3 f _ _ _ hk) fun _ => flags_flanes3 ..

end

/-- Settles O11: form by form, the operation of one lane is the rule's; the forms that act on the sign act on the top bit of the lane. -/
theorem fpLanes : Obligations.FpLanes := by
  intro i x h _
  have hw (t : LaneType) : t.width = t.width - 1 + 1 := (Nat.sub_add_cancel (width_pos t)).symm
  cases i with
  | fadd | fsub | fmul | fmin | fmax => cases h; exact fp2_holds fun _ => rfl
  | fma | fms | fnma => cases h; exact fp3_holds fun _ => rfl
  | frcpe | frsqe => cases h; exact fp1_holds fun _ => rfl
  | fabs g t => cases h; exact of1_holds (fun _ => rfl) fun _ hx => mod_two_pow_eq_clear_top (hw t ▸ hx)
  | fneg g t => cases h; exact of1_holds (fun _ => rfl) fun _ hx => xor_two_pow_eq_flip_top (hw t ▸ hx)
  | fsgnj g t => cases h; exact of2_holds (fun _ => rfl) fun x _ _ hy => congrArg (x % _ + ·) (top_bit_mul (hw t ▸ hy))
  | fclass => cases h; exact of1_holds (fun _ => rfl) fun _ _ => rfl
  | vcmp => cases h; exact fp2_holds fun _ => by simp only [← vcmpLane_eq]; rfl
  | _ => cases h

end Sys2Proof
end

section
/-! O17: integer division (R82). -/

namespace Sys2Proof

open Machine

/-! ## Signed lanes (R105) -/

section
variable {w n : Nat}

/-- A lane's signed value lies in the range of its width. -/
theorem signed_range (hw : 0 < w) (h : n < 2 ^ w) : -2 ^ (w - 1) ≤ signed w n ∧ signed w n < 2 ^ (w - 1) := by
  obtain ⟨v, rfl⟩ := Nat.exists_eq_add_of_lt hw
  rw [signed]
  simp only [Nat.zero_add, Nat.add_sub_cancel, pow_succ] at h ⊢
  have hc : ((2 ^ v : Nat) : Int) = 2 ^ v := by push_cast; rfl
  split_ifs <;> omega

/-- A value in that range is the signed value of its lane. -/
theorem signed_wrap (hw : 0 < w) {z : Int} (hlo : -2 ^ (w - 1) ≤ z) (hhi : z < 2 ^ (w - 1)) : signed w (wrap w z) = z := by
  obtain ⟨v, rfl⟩ := Nat.exists_eq_add_of_lt hw
  simp only [Nat.zero_add, Nat.add_sub_cancel] at hlo hhi ⊢
  have hc : ((2 ^ v : Nat) : Int) = 2 ^ v := by push_cast; rfl
  have hmod : z % 2 ^ (v + 1) = if z < 0 then z + 2 ^ (v + 1) else z := by
    split_ifs
    · rw [← Int.add_emod_right, Int.emod_eq_of_lt] <;> rw [pow_succ] <;> omega
    · exact Int.emod_eq_of_lt (by omega) (by rw [pow_succ]; omega)
  rw [signed, wrap, hmod, Nat.add_sub_cancel, pow_succ]
  split_ifs <;> omega

/-- Only the lane 0 has the signed value 0. -/
theorem signed_eq_zero (h : n < 2 ^ w) (hz : signed w n = 0) : n = 0 := by
  rw [← wrap_signed h, hz]
  simp [wrap]

end

/-! ## Quotient and remainder (R82) -/

section
variable {a b m : Int} (hlo : -m ≤ a) (hhi : a < m) (hb : b ≠ 0)
include hlo hhi

include hb in
/-- A quotient leaves the range of its dividend in the one case only that R82 names. -/
theorem tdiv_range (hcorner : ¬ (a = -m ∧ b = -1)) : -m ≤ a.tdiv b ∧ a.tdiv b < m := by
  have hle := Int.natAbs_tdiv_le_natAbs a b
  refine ⟨by omega, lt_of_le_of_ne (by omega) fun hq => ?_⟩
  have ham : a = -m := by omega
  have habs := Int.natAbs_tdiv a b
  rw [hq, ham, Int.natAbs_neg] at habs
  have hone : b.natAbs = 1 := by
    by_contra hne
    exact (Nat.div_lt_self (n := m.natAbs) (k := b.natAbs) (by omega) (by omega)).ne habs.symm
  rcases Int.natAbs_eq b with h | h
  · rw [h, hone] at hq
    simp at hq
    omega
  · exact hcorner ⟨ham, by omega⟩

omit hlo hhi in
/-- A remainder is smaller than its divisor. -/
theorem tmod_range (hblo : -m ≤ b) (hbhi : b < m) (hb : b ≠ 0) : -m ≤ a.tmod b ∧ a.tmod b < m := by
  have habs := Int.natAbs_tmod a b
  have hlt := Nat.mod_lt a.natAbs (Int.natAbs_pos.mpr hb)
  omega

end

/-- The dividend less the quotient times the divisor is the remainder. -/
theorem sub_tdiv_mul (a b : Int) : a - a.tdiv b * b = a.tmod b := by
  rw [Int.tmod_def, Int.mul_comm]

/-- Settles O17: outside the two corners the quotient and the remainder lie in the range of the width, so their lanes hold them. -/
theorem divisionTruncates : Obligations.DivisionTruncates := by
  intro t x y _ hx hy
  have hw := width_pos t
  refine ⟨fun sg hy0 => by rw [divLane, if_pos hy0], fun hmin hneg => ?_, fun hy0 hcorner => ?_, fun hy0 => ?_⟩
  · have hy0 : y ≠ 0 := by
      rintro rfl
      rw [signed, if_pos (by positivity)] at hneg
      omega
    rw [divLane, if_neg hy0, if_pos rfl, sMin, if_pos ⟨hmin, hneg⟩]
  · rw [divLane, if_neg hy0, if_pos rfl, sMin, if_neg hcorner]
    simp only [sub_tdiv_mul]
    have hb : signed t.width y ≠ 0 := fun h => hy0 (signed_eq_zero hy h)
    obtain ⟨hxlo, hxhi⟩ := signed_range hw hx
    obtain ⟨hylo, hyhi⟩ := signed_range hw hy
    obtain ⟨hqlo, hqhi⟩ := tdiv_range hxlo hxhi hb hcorner
    obtain ⟨hrlo, hrhi⟩ := tmod_range (a := signed t.width x) hylo hyhi hb
    exact ⟨signed_wrap hw hqlo hqhi, signed_wrap hw hrlo hrhi⟩
  · rw [divLane, if_neg hy0, if_neg Bool.false_ne_true]

end Sys2Proof
end

section
/-! O57: the check sums of a pass over codes that are no bytes (R210, R215). -/

namespace Sys2Proof

open Machine

/-- A configuration of one INT8 element into INT32 accumulators. -/
def oneInt8 : MCfg :=
  { afmt := 4, bfmt := 4, kk := 1, n := 1, mode := 0, spn := 0, acc := 1, qt := 0, ofmt := 0, epi := 0, sch := 0, bih := 0, rsvd := 0,
    clo := 0, chi := 0, rsvd2 := 0 }

/-- A resident B of one cell. Its code is 256 above the 16 bits that a check column keeps (R210), and no code of an INT8 element: those are
bytes. -/
def wideCell : ResB := loadB (tagOf 0 oneInt8) [] [[2 ^ 16 + 256]] [[]]

/-- The pass of one element 1 over a B. -/
def onePass : List (Seg × ASeg) := rowSegs oneInt8 [] [] [1] []

/-- The check column keeps 16 bits of the cell, and the cell has more, so that the sums of the pass differ. -/
theorem passP_wideCell_ne_passQ : passP wideCell onePass ≠ passQ wideCell onePass := by decide +kernel

/-- Refutes O57: the statement takes any numbers for the codes of INT8 elements, where its words and R98 mean bytes. The cell of the code
65792 counts with `signed 8 65792 = 65536` in the sum of the products, and with 0 in the check column, which is kept modulo 2^16. -/
theorem not_integerMatrixRow : ¬ Obligations.IntegerMatrixRow := by
  unfold Obligations.IntegerMatrixRow
  intro h
  obtain ⟨-, -, -, hcheck⟩ := h oneInt8 (tagOf 0 oneInt8) [] [] [[2 ^ 16 + 256]] [] [1] [] [0] wideCell onePass
    rfl rfl rfl rfl Nat.one_pos rfl rfl rfl (by decide) (by decide) rfl rfl
  exact passP_wideCell_ne_passQ hcheck

end Sys2Proof
end

section
/-! O46: the steps of a tile vector unit on handles of the scratchpad (R101, R194–R197, R390). -/

namespace Sys2Proof

open Machine

variable (s : State) (site : Nat) (w : Who)

/-- Handles of the scratchpad have no stash line to make ready (R179). -/
theorem fillHandles_of_scratch (hs : List (Handle × Bool)) (h : ∀ x ∈ hs, x.1.st ≠ .stash) : s.fillHandles w hs = .ok s := by
  induction hs with
  | nil => rw [State.fillHandles]
  | cons x xs ih =>
    rw [State.fillHandles, Handle.stashVas, if_neg (h x List.mem_cons_self), State.fillLines]
    exact ih fun y hy => h y (List.mem_cons_of_mem _ hy)

/-- What computing an operation changes: a free value is drawn, or not, and the core holds the rows, the flags and the LFSR that the
result gives, and free bytes in their place where hD shares bytes with a source (R194). -/
theorem tvCompute_eq (o : TvOp) (hd ha hb : Handle) {k : KSlot} {x : List (List Nat) × Flags × BitVec 32}
    (hk : k = (s.core site).ks.getD o.who.ks KSlot.reset) (hx : x = tvResult (s.core site).scratch k o hd ha hb (s.core site).lfsr) :
    ∃ free r, s.tvCompute site o hd ha hb =
        ({ s with free := free }).setCore site { s.core site with lfsr := x.2.2, tvRun := some r } ∧
      r.op = o ∧
      (tvOverlap k o hd ha hb = false →
        r.writes = (x.1.zipIdx.map fun y => (k.rowAt hd y.2, rowOf hd.fmt y.1)) ∧ r.flags = x.2.1) ∧
      (tvOverlap k o hd ha hb = true → r.writes.map (·.1) = (List.range hd.rows).map (k.rowAt hd)) := by
  subst hk hx
  cases hov : tvOverlap ((s.core site).ks.getD o.who.ks KSlot.reset) o hd ha hb with
  | true =>
    simp only [State.tvCompute, hov, if_true]
    exact ⟨_, _, rfl, rfl, nofun, fun _ => List.map_map ..⟩
  | false =>
    simp only [State.tvCompute, hov, Bool.false_eq_true, if_false]
    exact ⟨s.free, _, rfl, rfl, fun _ => ⟨rfl, rfl⟩, nofun⟩

variable {s site w} {c : Nat} {o : TvOp} {rest : List TvOp}

/-- Operations that are all performed hold nothing up. -/
theorem any_open_eq_false {ids : List Nat} (h : ∀ i ∈ ids, tget s.ops i = none) : (ids.any fun i => (tget s.ops i).isSome) = false :=
  List.any_eq_false.mpr fun i hi => by rw [h i hi]; decide

/-- The oldest operation of an idle unit on handles of the scratchpad either ends for its scale records, or leaves the queue and is
computed (R194, R196). -/
theorem exec_tvStart_oldest (hidle : (s.core c).tvRun = none) (hq : (s.core c).tvq = o :: rest) (hserves : (s.core c).serves = true)
    (hafter : ∀ i ∈ o.after, tget s.ops i = none) (hacc : (s.cl (clusterOf c)).account ≠ 0) (hd : o.hd.st ≠ .stash)
    (ha : o.ha.st ≠ .stash) (hb : o.hb.st ≠ .stash) :
    exec (.tvStart c) s = .next
      (if tvScaleBad (s.core c).scratch ((s.core c).ks.getD o.who.ks KSlot.reset) o o.hd o.ha then
        ({ s with free := s.free + 1 }).tvFault c o
          { cls := 0x07, sub := 0x01, kind := kEngine, size := 0xF, faddr := Config.freeWord s.free }
      else (((s.modCl (clusterOf c) fun x => x.debit o.id).modCore c fun x => { x with tvq := x.tvq.drop 1 }).tvCompute c o
        o.hd o.ha o.hb).dropUnkept c) := by
  have hwait : (!(s.core c).serves || (o.after.any fun i => (tget s.ops i).isSome) || (s.cl (clusterOf c)).account == 0) = false := by
    rw [hserves, any_open_eq_false hafter, beq_false_of_ne hacc]
    rfl
  have hready : s.fillHandles o.who (if o.k.two then [(o.ha, false), (o.hb, false), (o.hd, true)] else [(o.ha, false), (o.hd, true)]) =
      .ok s :=
    fillHandles_of_scratch _ _ _ (by split <;> simp [hd, ha, hb])
  change execTvStart c s = _
  simp only [execTvStart, hidle, hq, hwait, hready, Bool.false_eq_true, if_false]
  split <;> rfl

/-- A fault of a context's operation is one message to its line (R68). -/
theorem answerFault_of_context {from_ : Node} {f : Flt} {async counted dur : Bool} {tok : Nat} {record : Option (List Byte)}
    (h : w.key ≠ noKey) :
    s.answerFault from_ w f async counted tok record dur = s.send from_ (.line w.key) vnReply (.fault w f async counted tok record dur) :=
  if_neg h

/-- Rows written into the scratchpad change the scratchpad of their core and nothing else. -/
theorem foldl_memWrite_core (ws : List (Nat × List Byte)) (s : State) (c : Nat) :
    ∃ cores, ws.foldl (fun s x => s.modCore c fun y => { y with scratch := memWrite y.scratch x.1 x.2 }) s = { s with cores := cores } ∧
      tgetD cores c Core.reset = { s.core c with scratch := ws.foldl (fun m x => memWrite m x.1 x.2) (s.core c).scratch } := by
  induction ws generalizing s with
  | nil => exact ⟨s.cores, rfl, rfl⟩
  | cons x ws ih =>
    obtain ⟨cores, hs, hc⟩ := ih (s.modCore c fun y => { y with scratch := memWrite y.scratch x.1 x.2 })
    exact ⟨cores, hs, by rw [hc, State.core_modCore_eq]; rfl⟩

/-- The rows of an operation on a handle of the scratchpad. -/
theorem writeTv_of_scratch (s : State) (c : Nat) {r : TvRun} (h : r.op.hd.st ≠ .stash) :
    ∃ cores, s.writeTv c r = { s with cores := cores } ∧ tgetD cores c Core.reset =
      { s.core c with scratch := r.writes.foldl (fun m x => memWrite m x.1 x.2) (s.core c).scratch } := by
  simp only [State.writeTv, if_neg h]
  exact foldl_memWrite_core r.writes s c

/-- A byte outside every written row stays. -/
theorem memGet_foldl_memWrite_out (ws : List (Nat × List Byte)) (m : Mem) {a : Nat}
    (h : ∀ x ∈ ws, a < x.1 ∨ x.1 + x.2.length ≤ a) : memGet (ws.foldl (fun m x => memWrite m x.1 x.2) m) a = memGet m a := by
  induction ws generalizing m with
  | nil => rfl
  | cons x ws ih =>
    rw [List.foldl_cons, ih _ fun y hy => h y (List.mem_cons_of_mem _ hy), memGet_memWrite_out _ _ _ (h x List.mem_cons_self)]

/-- An operation on a handle of the scratchpad completes: its rows are written and its context is told (R86, R194). -/
theorem exec_tvComplete_scratch {r : TvRun} (hrun : (s.core c).tvRun = some r) (hd : r.op.hd.st ≠ .stash) :
    exec (.tvComplete ⟨c, false, 0⟩) s = .next
      ((((s.modCore c fun x => { x with tvRun := none }).writeTv c r).send (.core c) (.line r.op.who.key) vnReply
        (.opDone r.op.who r.flags)).endOp r.op.id) := by
  change execTvComplete ⟨c, false, 0⟩ s = _
  simp only [execTvComplete, hrun, Bool.false_eq_true, if_false, Handle.stashVas, if_neg hd, State.tvReady]

/-- An entry of the Regulator log changes the log alone (R422). -/
theorem logEvent_frame (s : State) (src : LogSrc) (cls sub detail : Nat) : ∃ reg, s.logEvent src cls sub detail = { s with reg := reg } := by
  simp only [State.logEvent]
  exact ⟨_, rfl⟩

/-- A mismatch that is noted changes the log and the count of its core (R390, R423). -/
theorem noteMismatch_frame (s : State) (c : Nat) (x : Mismatch) :
    ∃ reg mism, s.noteMismatch c x = ({ s with reg := reg }).setCore c { s.core c with mism := mism } := by
  obtain ⟨reg, hlog⟩ := logEvent_frame s (.core c) 0x0C x.unit_ x.detail
  rw [State.noteMismatch, hlog, State.modCore]
  exact ⟨reg, _, rfl⟩

/-- Settles O46, step by step. -/
theorem tileVectorSteps : Obligations.TileVectorSteps := by
  refine ⟨?start, ?scale, ?complete, ?mismatch⟩
  case start =>
    intro s c o rest k hidle hq hserves hafter hacc hk hd ha hb hgood
    obtain ⟨free, r, heq, hop, hapart, hshared⟩ := tvCompute_eq
      ((s.modCl (clusterOf c) fun x => x.debit o.id).modCore c fun x => { x with tvq := x.tvq.drop 1 }) c o o.hd o.ha o.hb rfl rfl
    subst hk
    refine ⟨_, r, exec_tvStart_oldest hidle hq hserves hafter hacc hd ha hb, ?_⟩
    rw [if_neg (by rw [hgood]; decide), heq]
    simp only [State.dropUnkept, State.core_modCore_eq, State.core_setCore_eq, State.core_modCl, and_true, true_and] at hapart hshared ⊢
    exact ⟨by rw [hq]; rfl, hop, rfl, rfl, hapart, hshared⟩
  case scale =>
    intro s c o rest hidle hq hserves hafter hacc hkey hd ha hb hbad
    have hexec := exec_tvStart_oldest hidle hq hserves hafter hacc hd ha hb
    rw [if_pos hbad, State.tvFault, answerFault_of_context hkey] at hexec
    refine ⟨_, _, _, hexec, ?queue, ?run, ?scratch, rfl, rfl, rfl, rfl⟩
    all_goals rw [State.core_send, State.core_modCore_eq]
    case queue => exact congrArg (List.drop 1) hq
    case run => exact hidle
    case scratch => rfl
  case complete =>
    intro s c r hrun hd
    obtain ⟨cores, hs, hc⟩ := writeTv_of_scratch (s.modCore c fun x => { x with tvRun := none }) c hd
    rw [State.core_modCore_eq] at hc
    have hexec := exec_tvComplete_scratch hrun hd
    rw [hs] at hexec
    have hcore : ∀ t : State, t.cores = cores → t.core c = { s.core c with
        tvRun := none, scratch := r.writes.foldl (fun m x => memWrite m x.1 x.2) (s.core c).scratch } :=
      fun t ht => by rw [State.core, ht, hc]
    refine ⟨_, _, hexec, ?_, ?_, ?_, rfl, rfl, rfl, rfl, rfl, rfl⟩
    · rw [hcore _ rfl]
    · rw [hcore _ rfl]
    · intro a ha
      rw [hcore _ rfl]
      exact memGet_foldl_memWrite_out _ _ ha
  case mismatch =>
    intro s c beat r hrun
    refine ⟨s.tvMismatch c beat r, ?_, ?_⟩
    · change execTvComplete ⟨c, true, beat⟩ s = _
      simp only [execTvComplete, hrun, if_true]
    · obtain ⟨reg, mism, hnote⟩ := noteMismatch_frame s c { slot := some r.op.who.slot, unit_ := 2, at_ := r.op.who.pc.toNat }
      cases hag : r.again.contains beat with
      | true =>
        simp only [State.tvMismatch, hag, hnote, if_true, State.stopCore, State.core_modCore_eq, State.core_setCore_eq]
        exact ⟨trivial, rfl, rfl, nofun, fun _ hlife => if_pos (Or.inl hlife)⟩
      | false =>
        simp only [State.tvMismatch, hag, hnote, Bool.false_eq_true, if_false, State.core_modCore_eq, State.core_setCore_eq]
        exact ⟨trivial, rfl, rfl, fun _ => ⟨trivial, trivial⟩, nofun⟩

end Sys2Proof
end

section
/-! O30: typed loads and stores (R93, R135, R148, R149). -/

namespace Sys2Proof

open Machine

variable {s : State} {e : Env}

/-- A good address passes the checks of R135. -/
theorem eaFault_of_goodAddr {a : Word} {n : Nat} (kind : Nat) (h : goodAddr a n) : eaFault kind n a = none := by
  obtain ⟨hcanon, halign⟩ := h
  have hc : canonical a = true := by
    rw [canonical, wfld, Nat.div_eq_of_lt hcanon]
    rfl
  rw [eaFault, hc, halign]
  rfl

/-- What a context leaves in its line when it waits for an answer (R139). -/
theorem line?_leave (s : State) (e : Env) (kind : Nat) : ∃ l, (s.leave e kind).line? e.key = some l ∧ l.pc = e.line.pc + W s.flen ∧
    l.wt = mkWt kind (if kind = 1 ∨ kind = 9 then 1 else 0) ∧ l.v = e.line.v ∧ l.pw = e.line.pw ∧ l.pwc = e.line.pwc ∧
    l.tsw = e.line.tsw :=
  ⟨_, State.line?_put_eq s (((e.note s).adv s.flen).wait s.gtime kind _), rfl, rfl, rfl, rfl, rfl, rfl⟩

/-- The core of a context that waits is as it was. -/
theorem core_leave (s : State) (e : Env) (kind : Nat) : (s.leave e kind).core e.site = e.core :=
  State.core_put_eq s (((e.note s).adv s.flen).wait s.gtime kind _)

/-- An access that is no atomic and meets no STASH handle leaves for its translation slice (R136, R179). -/
theorem access_of_no_handle {w : Who} {va : Nat} {k : ReqKind} (hk : ∀ op y src cmp dst ord sc b, k ≠ .amo op y src cmp dst ord sc b)
    (h : (s.core w.site).stashHandle w.asid va = none) : s.access w va k = s.sendReq w va k := by
  unfold State.access
  split
  · exact (hk _ _ _ _ _ _ _ _ rfl).elim
  · simp only [h, Option.isSome_none, Bool.and_false, Bool.false_eq_true, if_false]

/-- An access of a plain context leaves the core at once (R136, R139, R141). -/
theorem issueAccess_of_plain {va : Nat} {k : ReqKind} (hplain : e.Plain) (hheld : s.isHeld e.key = false)
    (hk : ∀ op y src cmp dst ord sc b, k ≠ .amo op y src cmp dst ord sc b) :
    s.issueAccess e va k [] = (s.leave (e.at va k) 1).sendReq (s.who e) va k := by
  obtain ⟨hline, -, hstash⟩ := hplain
  have hmeets : e.meetsHeld k va = false := by
    unfold Env.meetsHeld
    split
    · rw [hline, Bool.false_and]
    · rw [hline, Bool.false_and]
    · rfl
  have hfull : s.holdFull e.site e.key va k = false := by
    rw [State.holdFull, hheld, Bool.and_false, Bool.false_and]
  have hleft : (s.leave (e.at va k) 1).isHeld (s.who e).key = false := by
    obtain ⟨l, hl, -, -, -, -, -, htsw⟩ := line?_leave s (e.at va k) 1
    have hl : (s.leave (e.at va k) 1).line? (s.who e).key = some l := hl
    rw [State.isHeld, hl, Option.map_some, Option.getD_some, Line.held, htsw]
    exact hline
  rw [State.issueAccess_plain hmeets hfull, List.isEmpty_nil, if_pos rfl, State.accessOrHold, hleft, Bool.and_false,
    if_neg Bool.false_ne_true]
  exact access_of_no_handle hk ((congrArg (Core.stashHandle · _ va) (core_leave s (e.at va k) 1)).trans (hstash va))

/-- An access of a plain context to a good address leaves the core at once. -/
theorem checkedAccess_of_plain {kind n : Nat} {ea : Word} {k : ReqKind} (he : s.env? = some e) (hplain : e.Plain) (hgood : goodAddr ea n)
    (hk : ∀ op y src cmp dst ord sc b, k ≠ .amo op y src cmp dst ord sc b) :
    s.checkedAccess e kind n ea k [] =
      (s.leave ((e.trace s.gtime 3 ea.toNat).at ea.toNat k) 1).sendReq (s.who e) ea.toNat k := by
  obtain ⟨-, -, -, -, hline, -⟩ := State.env?_some he
  rw [State.checkedAccess_ok _ _ (eaFault_of_goodAddr kind hgood)]
  refine issueAccess_of_plain (e := e.trace s.gtime 3 ea.toNat) hplain ?_ hk
  rw [State.isHeld, Env.trace_key, hline]
  exact hplain.1

/-- A reserved bit in the scale record of a four-bit access faults (R149). -/
theorem typedAccess_reserved {f : MemFmt} {t : LaneType} {a b : Reg} {kind : Nat} {go : Env → State} (hf : f = .fp4)
    (hrsv : (scaleRec (wfld (e.reg b) 0 16)).rsv ≠ 0) :
    s.typedAccess e f t a b kind go =
      s.raise e { cls := 0x07, sub := 0x01, kind := kind, size := Nat.log2 (typedBytes f t), faddr := e.reg a } :=
  if_pos ⟨hf, hrsv⟩

/-- A typed access whose scale record is good, and whose table has no swap pending, goes on (R149). -/
theorem typedAccess_goes {f : MemFmt} {t : LaneType} {a b : Reg} {kind : Nat} {go : Env → State}
    (hrsv : f = .fp4 → (scaleRec (wfld (e.reg b) 0 16)).rsv = 0)
    (hswap : ∀ n, captureNo f (e.reg b) = some n → (s.cl (clusterOf e.site)).t3swap.contains n = false) :
    s.typedAccess e f t a b kind go = go e := by
  rw [State.typedAccess, if_neg fun h => h.2 (hrsv h.1)]
  split
  next n hn => rw [if_neg (by rw [hswap n hn]; exact Bool.false_ne_true)]
  next => rfl

/-- A load's request is one message and counts nowhere (R136). -/
theorem sendReq_load (w : Who) (va : Nat) (d : LdDst) (n : Nat) (o : Order) (sc : Scope) :
    s.sendReq w va (.load d n o sc) =
      s.send (.core w.site) (.slice ((s.part w.part).tslice w.asid va)) regVn (.req w va (.load d n o sc) 0 false) := rfl

/-- A counted write's request is one message, and PWC is one higher (R136, R138, R164). -/
theorem sendReq_counted {w : Who} {va : Nat} {k : ReqKind} {l : Line} (hk : k.counts = true) (hl : s.line? w.key = some l) :
    s.sendReq w va k = ((s.gmOp w).2.setLine w.key { l with pwc := l.pwc + 1 }).send (.core w.site)
      (.slice ((s.part w.part).tslice w.asid va)) regVn (.req w va k (s.gmOp w).1 false) := by
  have hdrained : k.drained = true := by
    unfold ReqKind.drained
    split
    · rfl
    · exact hk
  have hl' : (s.gmOp w false).2.line? w.key = some l := hl
  simp only [State.sendReq, hdrained, hk, if_true, Option.isNone_none, Bool.and_self, Bool.not_true, Bool.and_false,
    State.modLine_some _ _ hl']
  rfl

/-- `ldt` of a plain context (R148). -/
theorem exec_ldt_of_plain {f : MemFmt} {t : LaneType} {r : Round} {d a b : Reg} (he : s.env? = some e) (hlen : s.flen = 4)
    (hplain : e.Plain) (hgood : goodAddr (e.reg a) (typedBytes f t)) (hrsv : f = .fp4 → (scaleRec (wfld (e.reg b) 0 16)).rsv = 0)
    (hswap : ∀ n, captureNo f (e.reg b) = some n → (s.cl (clusterOf e.site)).t3swap.contains n = false) :
    ∃ (u : State) (l : Line) (m : Msg), exec (.ldt f t r d a b) s = .next u ∧ u.net = s.net ++ [m] ∧
      m.body = .req (s.who e) (e.reg a).toNat (.load (.typed d f t r (wfld (e.reg b) 0 16)
        ((s.cl (clusterOf e.site)).table ((captureNo f (e.reg b)).getD 0)) (captureNo f (e.reg b))) (typedBytes f t) .rlx .core) 0 false ∧
      u.line? e.key = some l ∧ l.pc = e.line.pc + 4#64 ∧ l.wt = 0x10000001#32 ∧ l.v = e.line.v ∧ l.pw = e.line.pw := by
  have hexec : exec (.ldt f t r d a b) s = .next _ := withEnv_some _ he
  rw [typedAccess_goes hrsv hswap, checkedAccess_of_plain he hplain hgood, sendReq_load] at hexec
  on_goal 2 => exact fun _ _ _ _ _ _ _ _ => nofun
  obtain ⟨l, hl, hpc, hwt, hv, hpw, -, -⟩ := line?_leave s ((e.trace s.gtime 3 (e.reg a).toNat).at (e.reg a).toNat _) 1
  exact ⟨_, l, _, hexec, rfl, rfl, hl, by rw [hpc, hlen]; rfl, hwt, hv, hpw⟩

/-- `stt` of a plain context (R138, R148, R149). -/
theorem exec_stt_of_plain {f : MemFmt} {t : LaneType} {r : Round} {sr : Bool} {d a b : Reg} (he : s.env? = some e) (hlen : s.flen = 4)
    (hplain : e.Plain) (hgood : goodAddr (e.reg a) (typedBytes f t)) (hrsv : f = .fp4 → (scaleRec (wfld (e.reg b) 0 16)).rsv = 0)
    (hswap : ∀ n, captureNo f (e.reg b) = some n → (s.cl (clusterOf e.site)).t3swap.contains n = false) :
    ∃ (u : State) (l : Line) (m : Msg) (tok : Nat), exec (.stt f t r sr d a b) s = .next u ∧
      u.net = s.net ++ [m] ∧ m.body = .req (s.who e) (e.reg a).toNat (.stt f t r sr (wfld (e.reg b) 0 16)
        ((s.cl (clusterOf e.site)).table ((captureNo f (e.reg b)).getD 0)) (captureNo f (e.reg b)) (e.reg d)) tok false ∧
      u.line? e.key = some l ∧ l.pc = e.line.pc + 4#64 ∧ l.wt = 0x10000001#32 ∧ l.pwc = e.line.pwc + 1 ∧ l.v = e.line.v ∧
      l.pw = e.line.pw ∧ (u.core e.site).lfsr = e.core.lfsr := by
  have hexec : exec (.stt f t r sr d a b) s = .next _ := withEnv_some _ he
  rw [typedAccess_goes hrsv hswap, checkedAccess_of_plain he hplain hgood] at hexec
  on_goal 2 => exact fun _ _ _ _ _ _ _ _ => nofun
  obtain ⟨l, hl, hpc, hwt, hv, hpw, hpwc, -⟩ := line?_leave s ((e.trace s.gtime 3 (e.reg a).toNat).at (e.reg a).toNat _) 1
  rw [sendReq_counted (w := s.who e) rfl hl] at hexec
  refine ⟨_, _, _, _, hexec, rfl, rfl, State.line?_setLine_eq .., ?_, hwt, congrArg (· + 1) hpwc, hv, hpw, ?_⟩
  · rw [hpc, hlen]
    rfl
  · have hcore (k : ReqKind) : (s.leave ((e.trace s.gtime 3 (e.reg a).toNat).at (e.reg a).toNat k) 1).core e.site =
        (e.trace s.gtime 3 (e.reg a).toNat).core := core_leave ..
    rw [State.core_send, State.core_setLine, State.gmOp, State.core_newOp, hcore]
    rfl

variable {l : Line}

/-- A wait that ends without a fault in store makes its context READY (R63, R68). -/
theorem makeReady_eq {key : Nat} (hl : s.line? key = some l) (hheld : l.heldFaults = []) :
    s.makeReady key = s.setLine key (l.ready s.gtime) := by
  have hready : (l.ready s.gtime).heldFaults = [] := hheld
  rw [State.makeReady, State.modLine_some _ _ hl, Line.takeHeld, hready]

/-- The last answer that a context waits for makes it READY (R68). -/
theorem decWait_last {key : Nat} (hl : s.line? key = some l) (hlive : l.life = .live)
    (hwt : l.wt = 0x10000001#32 ∨ l.wt = 0x90000001#32) (hheld : l.heldFaults = []) :
    s.decWait key = s.setLine key (l.ready s.gtime) := by
  have hkind : (l.life == .live && (l.wtKind == 1 || l.wtKind == 9)) = true := by
    rw [hlive, Line.wtKind]
    rcases hwt with h | h <;> rw [h] <;> rfl
  have hdetail : l.wtDetail ≤ 1 := by
    rw [Line.wtDetail]
    rcases hwt with h | h <;> rw [h] <;> decide
  simp only [State.decWait, hl, hkind, if_pos hdetail, if_true, makeReady_eq hl hheld]

/-- A request whose translation the slice holds is accepted (R250, R252). -/
theorem exec_translate_of_cached {m sl va tok : Nat} {w : Who} {k : ReqKind} {g : Leaf} (hreach : s.Reaches m sl w va k tok)
    (hown : k.ownStep = false) (hcheck : s.tcheck w.part w.asid w.priv va k.cat = some (.ok g)) :
    exec (.translate m) s = .next (s.acceptReq sl m w va k tok g) := by
  obtain ⟨⟨x, hx, hdst, hbody⟩, hpath, hroute⟩ := hreach
  change execTranslate m s = _
  simp only [execTranslate, hx, hdst, hbody, hown, hpath, hroute, hcheck, Bool.false_eq_true, if_false]

/-- The line of a context whose write to a durable page is accepted (R138). -/
def pdcCounted (l : Line) (g : Leaf) : Line := if g.durable then { l with pdc := l.pdc + 1, touched := true } else l

/-- An accepted write to a durable page counts in PDC (R138). -/
theorem modLine_pdc {key : Nat} {g : Leaf} (hl : s.line? key = some l) :
    ∃ ls, (if g.durable then s.modLine key fun x => { x with pdc := x.pdc + 1 } else s) = { s with lines := ls } ∧
      tget ls key = some (pdcCounted l g) := by
  unfold pdcCounted
  split
  · exact ⟨_, State.modLine_some _ _ hl, State.line?_setLine_eq ..⟩
  · exact ⟨s.lines, rfl, hl⟩

variable {m sl va tok scale : Nat} {w : Who} {f : MemFmt} {t : LaneType} {r : Round} {sr : Bool} {tab : List T3Entry} {no : Option Nat}
  {v : Word} {g : Leaf} {q : List Byte × Flags × BitVec 32}

/-- The commit of an `stt` steps the LFSR and raises the flags of its context (R148, R149). -/
theorem commitStt_eq (hl : s.line? w.key = some l) (hq : q = typedStore f t r sr scale tab (s.core w.site).lfsr v) :
    s.commitStt w (.stt f t r sr scale tab no v) =
      ((s.modCore w.site fun c => { c with lfsr := q.2.2 }).setLine w.key (l.orFlags q.2.1), .store q.1 .rlx .core) := by
  subst hq
  exact congrArg (·, _) (State.modLine_some _ _ hl)

/-- An accepted `stt` counts where its page is durable, steps the LFSR and raises its flags, ends its context's wait, and goes on as a
store of the converted bytes (R138, R139, R148, R149). -/
theorem acceptReq_stt {k : ReqKind} (hk : k = .stt f t r sr scale tab no v)
    (hplace : s.placeVerdict w k g (g.ga va) = none) (hl : s.line? w.key = some l) (hlive : l.life = .live)
    (hwt : l.wt = 0x10000001#32) (hheld : l.heldFaults = []) (hq : q = typedStore f t r sr scale tab (s.core w.site).lfsr v) :
    ∃ ls x, s.acceptReq sl m w va k tok g = (({ s.drop m with lines := ls }).modCore w.site fun c => { c with lfsr := q.2.2 }).send
        (.slice sl) (.slice (s.homeOfAcc w va (.store q.1 .rlx .core) g (g.ga va))) regVn
        (.acc { w := w, va := va, ga := g.ga va, leaf := g, k := .store q.1 .rlx .core, tok := tok, snooped := false }) ∧
      tget ls w.key = some x ∧ x = { ((pdcCounted l g).orFlags q.2.1).ready s.gtime with touched := true } := by
  subst hk
  obtain ⟨ls, hcount, hls⟩ := modLine_pdc (g := g) (s := s.drop m) hl
  have hcommit := commitStt_eq (s := { s.drop m with lines := ls }) (no := no) hls hq
  have hline := State.line?_setLine_eq (({ s.drop m with lines := ls }).modCore w.site fun c => { c with lfsr := q.2.2 }) w.key
    ((pdcCounted l g).orFlags q.2.1)
  have hready := decWait_last hline
    (by unfold pdcCounted; split <;> exact hlive) (.inl (by unfold pdcCounted; split <;> exact hwt))
    (by unfold pdcCounted; split <;> exact hheld)
  refine ⟨tset (tset ls w.key { (pdcCounted l g).orFlags q.2.1 with touched := true }) w.key _, _, ?_, tget_tset_eq .., rfl⟩
  simp only [State.acceptReq, fillVerdict, hplace, Option.or_none, ReqKind.counts, Bool.true_and, hcount, hcommit,
    State.acceptEnds, true_or, if_true, hready]
  rfl

/-- Settles O30. -/
theorem typedAccesses : Obligations.TypedAccesses := by
  refine ⟨?accepted, ?issued⟩
  case issued =>
    intro s e f t r sr d a b no he hlen hplain hno
    subst hno
    refine ⟨fun hf hrsv i hi => ?_, fun hgood hrsv hswap =>
      ⟨exec_ldt_of_plain he hlen hplain hgood hrsv hswap, exec_stt_of_plain he hlen hplain hgood hrsv hswap⟩⟩
    rcases hi with rfl | rfl
    · exact ⟨kLoad, (withEnv_some _ he).trans (congrArg Host.Outcome.next (typedAccess_reserved hf hrsv))⟩
    · exact ⟨kStore, (withEnv_some _ he).trans (congrArg Host.Outcome.next (typedAccess_reserved hf hrsv))⟩
  case accepted =>
    intro s m sl va tok scale w f t r sr tab no v g y k hk hreach hcheck hplace hy hlive hwt hheld
    have hown : k.ownStep = false := by subst hk; rfl
    have hexec := exec_translate_of_cached hreach hown hcheck
    obtain ⟨ls, x, haccept, hx, hxy⟩ := acceptReq_stt (m := m) (sl := sl) (tok := tok) hk hplace hy hlive hwt hheld rfl
    rw [haccept] at hexec
    refine ⟨_, x, _, _, rfl, hexec, rfl, rfl, rfl, hx, ?_⟩
    have hline : x.wt = 0#32 ∧ x.pc = y.pc ∧ x.v = y.v ∧
        x.pw = y.pw ||| (typedStore f t r sr scale tab (s.core w.site).lfsr v).2.1.bits ∧ x.pdc = y.pdc + b2n g.durable := by
      subst hxy
      unfold pdcCounted
      cases g.durable <;> exact ⟨rfl, rfl, rfl, rfl, rfl⟩
    obtain ⟨hwt', hpc, hv, hpw, hpdc⟩ := hline
    exact ⟨hwt', hpc, hv, hpw, hpdc, by rw [State.core_send, State.core_modCore_eq]⟩

end Sys2Proof
end

section
/-! O56: operations of the matrix unit are accepted, start and load B (R205–R211, R214). -/

namespace Sys2Proof

open Machine

variable {s : State} {cl : Nat} {o : MatOp} {l : Line}

/-- A context that still answers is live (R68). -/
theorem live_of_answers {w : Who} (hl : s.line? w.key = some l) (h : s.answers w = true) : l.life = .live := by
  rw [State.answers, hl] at h
  simp only [Bool.and_eq_true, beq_iff_eq] at h
  exact h.1.1

/-- The table that an accepted operation marks (R214). -/
def MatKind.marks (k : MatKind) : List Nat :=
  match k with
  | .ctswap t => [t]
  | _ => []

/-- A `ctswap` marks its table. -/
theorem contains_marks (ts : List Nat) (t : Nat) : (ts ++ MatKind.marks (.ctswap t)).contains t = true := by
  simp [MatKind.marks]

section accept

variable {m : Nat} {x : Msg}

/-- An operation that arrives while the queue has room, and whose table has no swap pending, is accepted, or goes back where its slot or
B has changed (R205, R214). -/
theorem exec_matrixAccept (hx : s.engineMsg? m = some x) (hdst : x.dst = .engine cl) (hbody : x.body = .matReq o)
    (hfree : ∀ t, o.k = .ctswap t → (s.cl cl).t3swap.contains t = false)
    (hroom : (s.cl cl).mops.length + b2n (s.cl cl).mrun.isSome + b2n (s.cl cl).erun.isSome < 16) (hans : s.answers o.who = true) :
    exec (.matrixAccept m) s = .next (if o.seen ≠ (s.cl cl).judged o.k then (s.drop m).reissue o else
      ((s.drop m).setCl cl { s.cl cl with
        mops := (s.cl cl).mops ++ [{ o with prev := (s.cl cl).lastMat }], lastMat := some o.id
        t3swap := (s.cl cl).t3swap ++ MatKind.marks o.k }).decWait o.who.key) := by
  obtain ⟨id, src, dst, vn, body⟩ := x
  subst hdst hbody
  have hroom' : ¬ matQueue ≤ (s.cl cl).mops.length + b2n (s.cl cl).mrun.isSome + b2n (s.cl cl).erun.isSome := Nat.not_le.mpr hroom
  have hans' (c : Cluster) : ((s.drop m).setCl cl c).answers o.who = true := hans
  change execMatrixAccept m s = _
  cases hk : o.k with
  | ctswap t =>
    simp only [execMatrixAccept, hx, hk, hfree t hk, Bool.false_eq_true, if_false, if_neg hroom', hans', if_true, MatKind.marks]
    split <;> rfl
  | _ =>
    simp only [execMatrixAccept, hx, hk, Bool.false_eq_true, if_false, if_neg hroom', hans', if_true, MatKind.marks]
    split <;> rfl

/-- An operation that arrives is accepted in order, or issued again, and its context goes on (R205). -/
theorem matrixAccept_cases (hx : s.engineMsg? m = some x) (hdst : x.dst = .engine cl) (hbody : x.body = .matReq o)
    (hfree : ∀ t, o.k = .ctswap t → (s.cl cl).t3swap.contains t = false)
    (hroom : (s.cl cl).mops.length + b2n (s.cl cl).mrun.isSome + b2n (s.cl cl).erun.isSome < 16) (hans : s.answers o.who = true)
    (hl : s.line? o.who.key = some l) (hwt : l.wt = 0x90000001#32) (hheld : l.heldFaults = []) :
    ∃ t y, exec (.matrixAccept m) s = .next t ∧ t.line? o.who.key = some y ∧ y.wt = 0#32 ∧ y.v = l.v ∧
      (o.seen = (s.cl cl).judged o.k → y.pc = l.pc ∧ (t.cl cl).mops = (s.cl cl).mops ++ [{ o with prev := (s.cl cl).lastMat }] ∧
        (t.cl cl).lastMat = some o.id ∧ ∀ n, o.k = .ctswap n → (t.cl cl).t3swap.contains n = true) ∧
      (o.seen ≠ (s.cl cl).judged o.k → y.pc = o.who.pc ∧ (t.cl cl).mops = (s.cl cl).mops ∧ tget t.ops o.id = none) := by
  have hexec := exec_matrixAccept hx hdst hbody hfree hroom hans
  by_cases hseen : o.seen = (s.cl cl).judged o.k
  · have hgo (c : Cluster) : ((s.drop m).setCl cl c).decWait o.who.key = ((s.drop m).setCl cl c).setLine o.who.key (l.ready s.gtime) :=
      decWait_last (s := (s.drop m).setCl cl c) hl (live_of_answers hl hans) (.inr hwt) hheld
    rw [if_neg (not_not_intro hseen), hgo] at hexec
    refine ⟨_, _, hexec, State.line?_setLine_eq .., rfl, rfl, fun _ => ⟨rfl, ?_, ?_, fun n hn => ?_⟩, fun h => absurd hseen h⟩
    all_goals rw [State.cl_setLine, State.cl_setCl_eq]
    rw [hn]
    exact contains_marks ..
  · have hback : (s.drop m).reissue o =
        (((s.drop m).endOp o.id).setLine o.who.key { l with pc := o.who.pc }).setLine o.who.key
          (({ l with pc := o.who.pc, touched := true } : Line).ready s.gtime) := by
      have hans' : ((s.drop m).endOp o.id).answers o.who = true := hans
      have hl' : ((s.drop m).endOp o.id).line? o.who.key = some l := hl
      simp only [State.reissue, hans', if_true, State.modLine_some _ _ hl']
      exact makeReady_eq (State.line?_setLine_eq ..) hheld
    rw [if_pos hseen, hback] at hexec
    exact ⟨_, _, hexec, State.line?_setLine_eq .., rfl, rfl, fun h => absurd h hseen, fun _ => ⟨rfl, rfl, tget_tdel_eq ..⟩⟩

end accept

/-- An operation that ends in a fault of its context tells its line (R211). -/
theorem matFault_of_context {f : Flt} (hkey : o.who.key ≠ noKey) : ∃ rec_, s.matFault cl o f =
    s.send (.engine cl) (.line o.who.key) vnReply (.fault o.who f true false o.id rec_ false) :=
  ⟨_, answerFault_of_context hkey⟩

section start

variable {rest : List MatOp} {n : Nat} (hq : (s.cl cl).mops = o :: rest) (hm : (s.cl cl).mrun = none) (he : (s.cl cl).erun = none)
  (hafter : ∀ i ∈ o.after, tget s.ops i = none)

include hm he in
/-- A unit that runs neither an operation nor an epilogue. -/
theorem unit_idle : ((s.cl cl).mrun.isNone && (s.cl cl).erun.isNone) = true := by rw [hm, he]; rfl

include hq hafter

/-- A `ctswap` leaves the queue with its swap pending (R214). -/
theorem exec_matrixOpStart_ctswap (hk : o.k = .ctswap n) : exec (.matrixOpStart cl) s =
    .next (s.setCl cl { s.cl cl with mops := rest, swapOps := tset (s.cl cl).swapOps n o.id }) := by
  change execMatrixOpStart cl s = _
  simp only [execMatrixOpStart, hq, hk, any_open_eq_false hafter, Bool.false_eq_true, if_false]

include hm he

/-- An `mcfg` sets its slot and is done (R209). -/
theorem exec_matrixOpStart_mcfg {bs : List Byte} (hk : o.k = .mcfg n bs) : exec (.matrixOpStart cl) s =
    .next ((s.setCl cl { s.cl cl with mops := rest, mslots := tset (s.cl cl).mslots n bs }).endOp o.id) := by
  change execMatrixOpStart cl s = _
  simp only [execMatrixOpStart, hq, hk, any_open_eq_false hafter, unit_idle hm he, Bool.false_eq_true, if_false, if_true]

/-- An `mloadb` runs with the record of its slot (R207, R210). -/
theorem exec_matrixOpStart_mloadb {h : Handle} (hk : o.k = .mloadb n h) : exec (.matrixOpStart cl) s =
    .next (s.setCl cl { s.cl cl with mops := rest, mrun := some (startRun (s.cl cl) o n) }) := by
  change execMatrixOpStart cl s = _
  simp only [execMatrixOpStart, hq, hk, any_open_eq_false hafter, unit_idle hm he, Bool.false_eq_true, if_false, if_true]

/-- An `mepi` runs with the record of its slot (R207, R213). -/
theorem exec_matrixOpStart_mepi {a d : Nat} {hA hD : Handle} {sc bi : Option Handle} {w : Word} {v : Nat}
    (hk : o.k = .mepi n a d hA hD sc bi w v) : exec (.matrixOpStart cl) s =
    .next (s.setCl cl { s.cl cl with mops := rest, erun := some (startRun (s.cl cl) o n) }) := by
  change execMatrixOpStart cl s = _
  simp only [execMatrixOpStart, hq, hk, any_open_eq_false hafter, unit_idle hm he, Bool.true_or, Bool.false_eq_true, if_false, if_true]

/-- An `mmac` runs when the resident B has the tag of its slot, and else ends in a fault (R207, R211). -/
theorem exec_matrixOpStart_mmac {sp : Bool} {d : Nat} {hA hD : Handle} {w : Word} (hk : o.k = .mmac sp n d hA hD w) :
    exec (.matrixOpStart cl) s =
      if (s.cl cl).resB.map (·.tag) = some (tagOf n (mcfgOf ((tget (s.cl cl).mslots n).getD []))) then
        .next (s.setCl cl { s.cl cl with mops := rest, mrun := some (startRun (s.cl cl) o n) })
      else .next ((s.setCl cl { s.cl cl with mops := rest }).matFault cl o
        { cls := 0x0B, sub := 0x05, kind := kEngine, size := 0xF, faddr := 0#64 }) := by
  change execMatrixOpStart cl s = _
  simp only [execMatrixOpStart, hq, hk, any_open_eq_false hafter, unit_idle hm he, Bool.false_eq_true, if_false, if_true]
  rfl

/-- An `mmac` whose slot has the tag of the resident B runs, and sends nothing. -/
theorem matrixOpStart_mmac_runs {sp : Bool} {d : Nat} {hA hD : Handle} {w : Word} (hk : o.k = .mmac sp n d hA hD w)
    (htag : (s.cl cl).resB.map (·.tag) = some (tagOf n (mcfgOf ((tget (s.cl cl).mslots n).getD [])))) :
    ∃ t, exec (.matrixOpStart cl) s = .next t ∧ (t.cl cl).mops = rest ∧ (t.cl cl).mrun = some (startRun (s.cl cl) o n) ∧ t.net = s.net := by
  have hexec := exec_matrixOpStart_mmac hq hm he hafter hk
  rw [if_pos htag] at hexec
  refine ⟨_, hexec, ?_, ?_, rfl⟩ <;> rw [State.cl_setCl_eq]

/-- An `mmac` whose slot has another tag ends with MX 0x05. -/
theorem matrixOpStart_mmac_refused {sp : Bool} {d : Nat} {hA hD : Handle} {w : Word} (hk : o.k = .mmac sp n d hA hD w)
    (hkey : o.who.key ≠ noKey) (htag : (s.cl cl).resB.map (·.tag) ≠ some (tagOf n (mcfgOf ((tget (s.cl cl).mslots n).getD [])))) :
    ∃ t z f, exec (.matrixOpStart cl) s = .next t ∧ (t.cl cl).mops = rest ∧ (t.cl cl).mrun = none ∧ t.net = s.net ++ [z] ∧
      z.dst = .line o.who.key ∧ ∃ rec_, z.body = .fault o.who f true false o.id rec_ false ∧ f.cls = 0x0B ∧ f.sub = 0x05 := by
  have hexec := exec_matrixOpStart_mmac hq hm he hafter hk
  obtain ⟨rec_, hfault⟩ := matFault_of_context (s := s.setCl cl { s.cl cl with mops := rest }) (cl := cl)
    (f := { cls := 0x0B, sub := 0x05, kind := kEngine, size := 0xF, faddr := 0#64 }) hkey
  rw [if_neg htag, hfault] at hexec
  refine ⟨_, _, _, hexec, ?_, ?_, rfl, rfl, rec_, rfl, rfl, rfl⟩ <;> rw [State.cl_send, State.cl_setCl_eq]
  exact hm

end start

section mloadb

/-- An integer counted in units of 1 is itself. -/
theorem units_ofInt (z : Int) : (Dyad.ofInt z).units 0 = z := by
  have hunit : ((Dyad.ofInt z).man * 2 ^ ((Dyad.ofInt z).exp - 0).toNat : Nat) = z.natAbs := by
    change z.natAbs * 2 ^ 0 = z.natAbs
    rw [pow_zero, mul_one]
  rw [Dyad.units, hunit]
  change (if decide (z < 0) = true then -(z.natAbs : Int) else z.natAbs) = z
  simp only [decide_eq_true_eq]
  split <;> omega

/-- INT8 elements keep their values when they are aligned (R98, R210). -/
theorem alignSeg_int8 (p : Nat) (tab : List T3Entry) (xs : List Nat) :
    (alignSeg p true (xs.map (matValue 4 tab))).1 = xs.map (signed 8) := by
  simp only [alignSeg, if_true, List.map_map]
  exact List.map_congr_left fun x _ => units_ofInt (signed 8 x)

/-- The parts of a list that is cut make up the list. -/
theorem flatten_cut {α : Type} {n : Nat} (hn : 0 < n) (fuel : Nat) (l : List α) (h : l.length ≤ fuel) : (cut n fuel l).flatten = l := by
  induction fuel generalizing l with
  | zero => rw [List.length_eq_zero_iff.mp (Nat.le_zero.mp h)]; rfl
  | succ fuel ih =>
    cases l with
    | nil => rfl
    | cons x l =>
      have hshort : ((x :: l).drop n).length ≤ fuel := by
        rw [List.length_drop, List.length_cons]
        rw [List.length_cons] at h
        omega
      rw [cut, List.flatten_cons, ih _ hshort, List.take_append_drop]
      nofun

/-- A B of INT8 elements holds them as signed numbers (R210). -/
theorem cells_loadB_int8 (tag : BTag) (tab : List T3Entry) (cols scales : List (List Nat)) (h : tag.bfmt = 4) :
    (loadB tag tab cols scales).cells = cols.map fun col => col.map (signed 8) := by
  simp only [loadB, h, List.map_map]
  refine List.map_congr_left fun col _ => ?_
  calc _ = (cut 32 col.length col).flatMap fun blk => blk.map (signed 8) := by
        simp only [Function.comp_def, List.flatMap_map, List.map_map]
        exact List.flatMap_congr fun blk _ => alignSeg_int8 ..
    _ = col.map (signed 8) := by
        rw [← List.map_flatMap, List.flatMap_id', flatten_cut (by decide) _ _ le_rfl]

variable {n : Nat} {r : MatRun} {h : Handle} {k : KSlot}

/-- An `mloadb` of a format without scales loads the columns of its handle (R210). -/
theorem exec_mloadbExecute (hr : (s.cl cl).mrun = some r) (hk : r.op.k = .mloadb n h) (hfmt : 4 ≤ (mcfgOf r.cfg).bfmt)
    (hslot : k = (s.core r.op.who.site).ks.getD r.op.who.ks KSlot.reset) :
    exec (.mloadbExecute cl) s = .next (((s.setCl cl { s.cl cl with mrun := none }).modCl cl fun x => { x.mapRows with
      resB := some (loadB (tagOf n (mcfgOf r.cfg)) r.op.tab ((List.range h.rows).map (rowElems (s.core r.op.who.site).scratch k h))
        ((List.range h.rows).map fun _ => [])) }).endOp r.op.id) := by
  subst hslot
  have hblock : isBlock (mcfgOf r.cfg).bfmt = false := decide_eq_false (Nat.not_lt.mpr hfmt)
  have hscales : ((List.range h.rows).map fun _ => ([] : List Nat)).flatten = [] := by
    simp
  change execMloadbExecute cl s = _
  simp only [execMloadbExecute, hr, hk, hblock, Bool.false_eq_true, if_false, hscales, List.findSome?_nil]

end mloadb

end Sys2Proof
end

section
/-! O56: masks, passes, epilogues and checks of the matrix unit (R206, R211–R217). -/

namespace Sys2Proof

open Machine

variable {s : State} {cl n d row : Nat} {r : MatRun} {hA hD : Handle} {o : Word} {k : KSlot}

/-- What `mmacs` makes of the entries that its queue holds: with too few it takes them all, and with enough it checks those it takes
(R212, R322). -/
theorem exec_maskPop {need : Nat} {q : List (List Byte)} (hr : (s.cl cl).mrun = some r) (hk : r.op.k = .mmac true n d hA hD o)
    (hmasked : r.masked = false) (herr : r.err = none) (hmasks : r.masks = []) (hneed : need = (mcfgOf r.cfg).kk / 48)
    (hq : q = tgetD (s.cl cl).mqueues ((mcfgOf r.cfg).qt % 4) [])
    (hgood : need ≤ q.length → ∀ e ∈ q.take need, maskFault (mcfgOf r.cfg).spn (leNat e) = none) :
    exec (.maskPop cl) s = .next (s.setCl cl { s.cl cl with
      mqueues := tset (s.cl cl).mqueues ((mcfgOf r.cfg).qt % 4) (q.drop need)
      mrun := some { r with masks := (q.take need).map leNat, masked := decide (need ≤ q.length) } }) := by
  change execMaskPop cl s = _
  simp only [execMaskPop, hr, hk, hmasked, herr, hmasks, ← hneed, ← hq, Option.isSome_none, Bool.or_self, Bool.false_eq_true, if_false,
    List.length_nil, Nat.sub_zero, List.nil_append, List.length_map, List.length_take]
  rcases Nat.lt_or_ge q.length need with hfew | henough
  · simp only [Nat.min_eq_right hfew.le, hfew, if_true, decide_eq_false (Nat.not_le.mpr hfew)]
  · have hnone : List.findSome? (maskFault (mcfgOf r.cfg).spn) ((q.take need).map leNat) = none := by
      simpa only [List.findSome?_map, List.findSome?_eq_none_iff, Function.comp_apply] using hgood henough
    simp only [Nat.min_eq_left henough, Nat.lt_irrefl, if_false, hnone, decide_eq_true henough]

/-- With too few entries `mmacs` takes those that the queue holds. -/
theorem maskPop_takes_all {need : Nat} {q : List (List Byte)} (hr : (s.cl cl).mrun = some r) (hk : r.op.k = .mmac true n d hA hD o)
    (hmasked : r.masked = false) (herr : r.err = none) (hmasks : r.masks = []) (hneed : need = (mcfgOf r.cfg).kk / 48)
    (hq : q = tgetD (s.cl cl).mqueues ((mcfgOf r.cfg).qt % 4) []) (hfew : q.length < need) :
    ∃ t y, exec (.maskPop cl) s = .next t ∧ (t.cl cl).mrun = some y ∧ y.masks = q.map leNat ∧ y.masked = false ∧
      tgetD (t.cl cl).mqueues ((mcfgOf r.cfg).qt % 4) [] = [] := by
  refine ⟨_, _, exec_maskPop hr hk hmasked herr hmasks hneed hq fun h => absurd h (Nat.not_le.mpr hfew),
    congrArg Cluster.mrun (State.cl_setCl_eq ..), ?_, ?_, ?_⟩
  · rw [List.take_of_length_le hfew.le]
  · exact decide_eq_false (Nat.not_le.mpr hfew)
  · rw [State.cl_setCl_eq, tgetD_tset_eq, List.drop_of_length_le hfew.le]

/-- With enough good entries `mmacs` takes what it needs. -/
theorem maskPop_takes_needed {need : Nat} {q : List (List Byte)} (hr : (s.cl cl).mrun = some r)
    (hk : r.op.k = .mmac true n d hA hD o) (hmasked : r.masked = false) (herr : r.err = none) (hmasks : r.masks = [])
    (hneed : need = (mcfgOf r.cfg).kk / 48) (hq : q = tgetD (s.cl cl).mqueues ((mcfgOf r.cfg).qt % 4) []) (henough : need ≤ q.length)
    (hgood : ∀ e ∈ q.take need, maskFault (mcfgOf r.cfg).spn (leNat e) = none) :
    ∃ t y, exec (.maskPop cl) s = .next t ∧ (t.cl cl).mrun = some y ∧ y.masks = (q.take need).map leNat ∧ y.masked = true ∧
      y.err = none ∧ tgetD (t.cl cl).mqueues ((mcfgOf r.cfg).qt % 4) [] = q.drop need := by
  refine ⟨_, _, exec_maskPop hr hk hmasked herr hmasks hneed hq fun _ => hgood, congrArg Cluster.mrun (State.cl_setCl_eq ..), rfl,
    decide_eq_true henough, herr, ?_⟩
  rw [State.cl_setCl_eq, tgetD_tset_eq]

/-- The next row of a running `mmac` is passed while the replay store has room and the cluster has energy left (R211, R215–R217). -/
theorem exec_matrixPass {b : ResB} {sp : Bool} {bs : List Byte} {f : Flags} {p q : Nat} (hr : (s.cl cl).mrun = some r)
    (hb : (s.cl cl).resB = some b) (hk : r.op.k = .mmac sp n d hA hD o) (hpend : ∀ u ∈ (s.cl cl).unchecked, u.pending = false)
    (hmasked : sp = true → r.masked = true) (herr : r.err = none) (hrows : r.row < matRows o) (hroom : (s.cl cl).unchecked.length < 16)
    (hacc : (s.cl cl).account ≠ 0) (hslot : k = (s.core r.op.who.site).ks.getD r.op.who.ks KSlot.reset) (hrow : row = matRow0 o + r.row)
    (hpass : passRow (s.core r.op.who.site) k (mcfgOf r.cfg) b r.op r.masks hA hD (matZ o) row = .ok (bs, f, p, q)) :
    exec (.matrixPass cl) s = .next ((s.setCl cl { (s.cl cl).debit r.op.id with
      unchecked := (s.cl cl).unchecked ++ [
        { opId := r.op.id, site := r.op.who.site, ks := r.op.who.ks, h := d, row := row, at_ := k.rowAt hD row, prior := memRead (s.core r.op.who.site).scratch (k.rowAt hD row) hD.rowBytes, epiH := none,
          failed := false, pending := false, redo := false, lost := false, p := p, q := q, slot := r.op.who.slot, pc := r.op.who.pc }],
      mrun := some { r with row := r.row + 1, flags := r.flags.or f } }).modCore r.op.who.site fun x =>
        { x with scratch := memWrite x.scratch (k.rowAt hD row) bs }) := by
  subst hslot hrow
  have hfresh : (s.cl cl).unchecked.find? (fun u => u.opId == r.op.id && u.pending) = none :=
    List.find?_eq_none.mpr fun u hu => by rw [hpend u hu, Bool.and_false]; exact Bool.false_ne_true
  have hgo : (sp && !r.masked || r.err.isSome || decide (matRows o ≤ r.row) || decide (replayRows ≤ (s.cl cl).unchecked.length)) = false := by
    have hsp : (sp && !r.masked) = false := by
      cases sp with
      | false => rfl
      | true => rw [hmasked rfl]; rfl
    have hroom : decide (replayRows ≤ (s.cl cl).unchecked.length) = false := decide_eq_false (Nat.not_le.mpr hroom)
    rw [hsp, herr, decide_eq_false (Nat.not_le.mpr hrows), hroom]
    rfl
  change execMatrixPass cl s = _
  simp only [execMatrixPass, hr, hb, hk, if_neg hacc, Cluster.debit, hfresh, hgo, Bool.false_eq_true, if_false, hpass]

/-- A core without held writes has none to release (R213, R216). -/
theorem releaseEpi_of_empty {site : Nat} (h : (s.core site).hold = []) :
    s.releaseEpi cl site = s.modCore site fun c => { c with hold := [] } := by
  simp only [State.releaseEpi, State.modCore, h, List.filter_nil, List.foldl_nil]

/-- A row that an epilogue converts into its handle is written there, and steps the LFSR (R88, R213). -/
theorem epiStep_of_local {sc bi : Option Handle} {addr : Nat} {x : List Nat × Flags × BitVec 32} (hg : matG o = false)
    (hhold : (s.core r.op.who.site).hold = []) (hslot : k = (s.core r.op.who.site).ks.getD r.op.who.ks KSlot.reset)
    (hx : x = epiRow (s.core r.op.who.site) k (mcfgOf r.cfg) r.op hA hD sc bi row) :
    ∃ turn, s.epiStep cl r hA hD d sc bi o addr row false =
      (((s.setCore r.op.who.site { s.core r.op.who.site with
          scratch := memWrite (s.core r.op.who.site).scratch (k.rowAt hD row) (rowOf hD.fmt x.1), lfsr := x.2.2, hold := [] }).modCl cl
        fun c => { c with unchecked := c.unchecked.map turn, erun := some { r with row := r.row + 1, flags := r.flags.or x.2.1 } }).modCore
          r.op.who.site fun c => { c with hold := [] }) := by
  subst hslot hx
  have hlines : (s.core r.op.who.site).heldLines = 0 := by
    rw [Core.heldLines, hhold]
    rfl
  have hroom : ¬ holdSize < 0 + ([] : List HeldWrite).length := Nat.not_lt_zero _
  simp only [State.epiStep, hg, hlines, hhold, Bool.false_eq_true, if_false, if_neg hroom, List.append_nil]
  exact ⟨_, releaseEpi_of_empty (by rw [State.core_modCl, State.core_setCore_eq])⟩

/-- The next row of an epilogue into a handle is converted once its pass is checked (R206, R213). -/
theorem exec_epilogueRow {a addr : Nat} {sc bi : Option Handle} (he : (s.cl cl).erun = some r)
    (hk : r.op.k = .mepi n a d hA hD sc bi o addr) (herr : r.err = none) (hchecked : (s.cl cl).unchecked = [])
    (hrows : r.row < matRows o) (hm : (s.cl cl).mrun = none) (hfmt : hD.fmt ≠ 10) (hrow : row = matRow0 o + r.row) :
    exec (.epilogueRow cl) s = .next (s.epiStep cl r hA hD d sc bi o addr row false) := by
  subst hrow
  have hwritten : rowAwaited (s.cl cl) r (matRow0 o + r.row) = false := by rw [rowAwaited, hm]
  have hscales (m : Mem) (k : KSlot) : epiScaleBad m k hD (matRow0 o) (matRows o) = false := by
    rw [epiScaleBad, beq_false_of_ne hfmt, Bool.false_and]
  change execEpilogueRow cl s = _
  simp only [execEpilogueRow, he, hk, herr, hchecked, hwritten, hscales, Option.isSome_none, List.find?_nil, List.any_nil,
    Nat.not_le.mpr hrows, decide_false, Bool.or_false, Bool.false_eq_true, and_false, if_false]

/-- An epilogue's row, of a core without held writes, is converted into its handle (R213). -/
theorem epilogueRow_converts {a addr : Nat} {sc bi : Option Handle} (he : (s.cl cl).erun = some r)
    (hk : r.op.k = .mepi n a d hA hD sc bi o addr) (herr : r.err = none) (hchecked : (s.cl cl).unchecked = [])
    (hrows : r.row < matRows o) (hm : (s.cl cl).mrun = none) (hfmt : hD.fmt ≠ 10) (hg : matG o = false)
    (hhold : (s.core r.op.who.site).hold = []) (hrow : row = matRow0 o + r.row)
    (hslot : k = (s.core r.op.who.site).ks.getD r.op.who.ks KSlot.reset) :
    ∃ t y, exec (.epilogueRow cl) s = .next t ∧
      (t.core r.op.who.site).scratch = memWrite (s.core r.op.who.site).scratch (k.rowAt hD row)
        (rowOf hD.fmt (epiRow (s.core r.op.who.site) k (mcfgOf r.cfg) r.op hA hD sc bi row).1) ∧
      (t.core r.op.who.site).lfsr = (epiRow (s.core r.op.who.site) k (mcfgOf r.cfg) r.op hA hD sc bi row).2.2 ∧
      (t.cl cl).erun = some y ∧ y.row = r.row + 1 ∧ t.mem = s.mem ∧ t.lines = s.lines := by
  have hexec := exec_epilogueRow he hk herr hchecked hrows hm hfmt hrow
  obtain ⟨turn, hstep⟩ := epiStep_of_local (cl := cl) (d := d) (row := row) (hA := hA) (hD := hD) (sc := sc) (bi := bi) (addr := addr)
    hg hhold hslot rfl
  rw [hstep] at hexec
  refine ⟨_, _, hexec, ?_, ?_, congrArg Cluster.erun (State.cl_setCl_eq ..), rfl, rfl, rfl⟩
  · rw [State.core_modCore_eq, State.core_modCl, State.core_setCore_eq]
  · rw [State.core_modCore_eq, State.core_modCl, State.core_setCore_eq]

section check

/-- An entry of the Regulator log is no change of a core. -/
theorem core_logEvent (s : State) (src : LogSrc) (cls sub detail j : Nat) : (s.logEvent src cls sub detail).core j = s.core j := by
  simp only [State.logEvent, State.core]

/-- An entry of the Regulator log is no change of a cluster. -/
theorem cl_logEvent (s : State) (src : LogSrc) (cls sub detail j : Nat) : (s.logEvent src cls sub detail).cl j = s.cl j := by
  simp only [State.logEvent, State.cl]

variable {u : Unchecked} {rest : List Unchecked} {x : PassUpset}

/-- A failed row of a core without held writes and holders discards nothing (R216, R217). -/
theorem taint_of_empty {site : Nat} {dep : Nat × Nat} (hhold : (s.core site).hold = []) (hholders : (s.core site).holders = []) :
    s.taint site dep = s.modCore site fun c => { c with hold := [], holders := [] } := by
  simp only [State.taint, State.modCore, hhold, hholders, List.filter_nil, List.map_nil, List.eraseDups_nil, List.foldl_nil]

/-- The row that a check looks at, and what its two sums decide (R215–R217). -/
theorem exec_passCheck (hu : (s.cl cl).unchecked = u :: rest) (hlost : u.lost = false) (hpend : u.pending = false) (hredo : u.redo = false) :
    exec (.passCheck cl x) s = .next
      (if (u.p + x.sum) % 2 ^ 20 = u.q % 2 ^ 20 ∧ x.align = false then
        ((s.setCl cl { s.cl cl with unchecked := (s.cl cl).unchecked.filter fun v => v != u }).modCore u.site
          (clearDep (u.opId, u.row))).releaseEpi cl u.site
      else
        let t := ((s.noteMismatch u.site { slot := some u.slot, unit_ := 1, at_ := u.pc.toNat }).taint u.site (u.opId, u.row)).modCore u.site
          fun y => { y with scratch := memWrite y.scratch u.at_ u.prior }
        if u.failed then
          ((t.modCl cl fun y => { y.failRow x.macro_ x.row with
            unchecked := y.unchecked.map fun v => if v = u then { v with lost := true } else v }).logEvent (.core u.site) 0x0C 2
              (passMacros cl (((s.cl cl).mrun.map fun r => mcfgOf r.cfg).getD (mcfgOf [])))).stopCore u.site
        else t.modCl cl fun y => { y with
          unchecked := y.unchecked.map fun v =>
            if v = u then { v with failed := true, pending := true, redo := v.epiH.isSome } else v }) := by
  have hfind (b : Bool) : (s.cl cl).unchecked.find? (fun v => !v.lost && !v.pending && !(v.redo && b)) = some u := by
    rw [hu, List.find?_cons_of_pos]
    rw [hlost, hpend, hredo]
    rfl
  change execPassCheck cl x s = _
  simp only [execPassCheck, hfind]
  split
  · rfl
  · split <;> rfl

/-- What a failed check has restored: the row's prior bytes, and nothing of memory, of the lines and of the clusters (R216). -/
theorem restored_frame (hhold : (s.core u.site).hold = []) (hholders : (s.core u.site).holders = []) (y : Mismatch) :
    ∃ t, ((s.noteMismatch u.site y).taint u.site (u.opId, u.row)).modCore u.site
        (fun y => { y with scratch := memWrite y.scratch u.at_ u.prior }) = t ∧
      (t.core u.site).scratch = memWrite (s.core u.site).scratch u.at_ u.prior ∧ (t.core u.site).life = (s.core u.site).life ∧
      t.lines = s.lines ∧ t.clusters = s.clusters := by
  obtain ⟨reg, mism, hnote⟩ := noteMismatch_frame s u.site y
  rw [hnote, taint_of_empty (by rw [State.core_setCore_eq]; exact hhold) (by rw [State.core_setCore_eq]; exact hholders)]
  refine ⟨_, rfl, ?_, ?_, rfl, rfl⟩ <;> rw [State.core_modCore_eq, State.core_modCore_eq, State.core_setCore_eq]

/-- A row whose sums agree leaves the replay store (R215, R216). -/
theorem passCheck_agrees (hu : (s.cl cl).unchecked = u :: rest) (hlost : u.lost = false) (hpend : u.pending = false)
    (hredo : u.redo = false) (hhold : (s.core u.site).hold = []) (hsum : (u.p + x.sum) % 2 ^ 20 = u.q % 2 ^ 20) (halign : x.align = false) :
    ∃ t, exec (.passCheck cl x) s = .next t ∧ (t.cl cl).unchecked = (s.cl cl).unchecked.filter (fun v => v != u) ∧
      (t.core u.site).scratch = (s.core u.site).scratch ∧ t.lines = s.lines := by
  have hexec := exec_passCheck (x := x) hu hlost hpend hredo
  rw [if_pos ⟨hsum, halign⟩, releaseEpi_of_empty] at hexec
  on_goal 2 =>
    rw [State.core_modCore_eq, State.core_setCl, clearDep, hhold]
    rfl
  refine ⟨_, hexec, ?_, ?_, rfl⟩
  · rw [State.cl_modCore, State.cl_modCore, State.cl_setCl_eq]
  · rw [State.core_modCore_eq, State.core_modCore_eq, State.core_setCl]
    rfl

/-- A row whose check fails for the first time is restored and waits for its pass again (R217). -/
theorem passCheck_fails (hu : (s.cl cl).unchecked = u :: rest) (hlost : u.lost = false) (hpend : u.pending = false)
    (hredo : u.redo = false) (hhold : (s.core u.site).hold = []) (hholders : (s.core u.site).holders = [])
    (hbad : (u.p + x.sum) % 2 ^ 20 ≠ u.q % 2 ^ 20 ∨ x.align = true) (hfirst : u.failed = false) :
    ∃ t y, exec (.passCheck cl x) s = .next t ∧ y ∈ (t.cl cl).unchecked ∧ y.row = u.row ∧ y.failed = true ∧ y.pending = true ∧
      (t.core u.site).scratch = memWrite (s.core u.site).scratch u.at_ u.prior ∧ t.lines = s.lines := by
  have hexec := exec_passCheck (x := x) hu hlost hpend hredo
  obtain ⟨t, ht, hscratch, -, hlines, hclusters⟩ := restored_frame hhold hholders { slot := some u.slot, unit_ := 1, at_ := u.pc.toNat }
  have hcl : t.cl cl = s.cl cl := congrArg (tgetD · cl Cluster.reset) hclusters
  rw [if_neg fun h => hbad.elim (· h.1) fun ha => Bool.false_ne_true (h.2.symm.trans ha), ht] at hexec
  simp only [hfirst, Bool.false_eq_true, if_false] at hexec
  refine ⟨_, { u with failed := true, pending := true, redo := u.epiH.isSome }, hexec, ?_, rfl, rfl, rfl, hscratch, hlines⟩
  rw [State.cl_modCl_eq, hcl, hu, List.map_cons, if_pos rfl]
  exact List.mem_cons_self

/-- A row whose check fails again is restored and stays for the containment of its core (R217). -/
theorem passCheck_fails_again (hu : (s.cl cl).unchecked = u :: rest) (hlost : u.lost = false) (hpend : u.pending = false)
    (hredo : u.redo = false) (hhold : (s.core u.site).hold = []) (hholders : (s.core u.site).holders = [])
    (hbad : (u.p + x.sum) % 2 ^ 20 ≠ u.q % 2 ^ 20 ∨ x.align = true) (hsecond : u.failed = true)
    (hlife : (s.core u.site).life = .active) :
    ∃ t y, exec (.passCheck cl x) s = .next t ∧ (t.core u.site).life = .containing ∧ y ∈ (t.cl cl).unchecked ∧ y.row = u.row ∧
      y.lost = true ∧ (t.core u.site).scratch = memWrite (s.core u.site).scratch u.at_ u.prior := by
  have hexec := exec_passCheck (x := x) hu hlost hpend hredo
  obtain ⟨t, ht, hscratch, hlife', -, hclusters⟩ := restored_frame hhold hholders { slot := some u.slot, unit_ := 1, at_ := u.pc.toNat }
  have hcl : t.cl cl = s.cl cl := congrArg (tgetD · cl Cluster.reset) hclusters
  rw [if_neg fun h => hbad.elim (· h.1) fun ha => Bool.false_ne_true (h.2.symm.trans ha), ht] at hexec
  simp only [hsecond, if_true, State.stopCore] at hexec
  refine ⟨_, { u with lost := true }, hexec, ?_, ?_, rfl, rfl, ?_⟩
  · rw [State.core_modCore_eq, core_logEvent, State.core_modCl]
    exact if_pos (.inl (hlife'.trans hlife))
  · rw [State.cl_modCore, cl_logEvent, State.cl_modCl_eq, hcl, hu, List.map_cons, if_pos rfl]
    exact List.mem_cons_self
  · rw [State.core_modCore_eq, core_logEvent, State.core_modCl]
    exact hscratch

end check

end Sys2Proof
end

section
/-! O56: the hold, completions, table swaps and semaphores of the matrix unit (R94, R95, R100, R207, R214–R219). -/

namespace Sys2Proof

open Machine

variable {s : State} {cl n d key : Nat} {r : MatRun} {hA hD : Handle} {o : Word} {l : Line}

/-- A context whose rows are all checked, and without held writes, is not HELD any more (R216). -/
theorem exec_heldRelease {c : Nat} (hholders : tget (s.core c).holders key = some []) (hhold : (s.core c).hold = [])
    (hl : s.line? key = some l) : exec (.heldRelease c key) s = .next
      ((s.setCore c { s.core c with holders := tdel (s.core c).holders key, hold := [] }).setLine key (l.setTsw 5 1 0)) := by
  have hl' (x : Core) : (s.setCore c x).line? key = some l := hl
  change execHeldRelease c key s = _
  simp only [execHeldRelease, hholders, hhold, List.filter_nil, List.foldl_nil, State.modLine_some _ _ (hl' _)]

/-- A line whose HELD is cleared is not HELD. -/
theorem held_setTsw_zero (l : Line) : (l.setTsw 5 1 0).held = false := by
  rw [Line.held, Line.setTsw, getLsbD_wput _ _ _ _ (by decide)]
  rfl

section complete

/-- How an operation that ran ends: with its error, or done (R100, R207, R211). -/
def matEnd (s : State) (cl : Nat) (r : MatRun) (o : Word) : State :=
  match r.err with
  | some f => s.matFault cl r.op f
  | none => s.matDone cl r o

/-- An error ends an operation in a fault. -/
theorem matEnd_of_error {f : Flt} (h : r.err = some f) : matEnd s cl r o = s.matFault cl r.op f := by rw [matEnd, h]

/-- Without an error an operation is done. -/
theorem matEnd_of_done (h : r.err = none) : matEnd s cl r o = s.matDone cl r o := by rw [matEnd, h]

/-- A settled `mmac` with an error, or with every row written, ends (R207). -/
theorem exec_matrixComplete_mmac {sp : Bool} (hr : (s.cl cl).mrun = some r) (hk : r.op.k = .mmac sp n d hA hD o)
    (hsettled : s.settled cl r = true) (hdone : (r.err.isSome || decide (matRows o ≤ r.row)) = true) :
    exec (.matrixComplete cl) s = .next (matEnd (s.setCl cl { s.cl cl with mrun := none }) cl r o) := by
  change execMatrixComplete cl s = _
  simp only [execMatrixComplete, hr, hk, hsettled, hdone, Bool.and_self, if_true, Option.some_or, matEnd]
  cases r.err <;> rfl

/-- A settled epilogue with every row written ends, where the unit runs nothing else (R207). -/
theorem exec_matrixComplete_mepi {a addr : Nat} {sc bi : Option Handle} (hm : (s.cl cl).mrun = none) (hr : (s.cl cl).erun = some r)
    (hk : r.op.k = .mepi n a d hA hD sc bi o addr) (hsettled : s.settled cl r = true)
    (hdone : (r.err.isSome || decide (matRows o ≤ r.row)) = true) :
    exec (.matrixComplete cl) s = .next (matEnd (s.setCl cl { s.cl cl with erun := none }) cl r o) := by
  change execMatrixComplete cl s = _
  simp only [execMatrixComplete, hm, hr, hk, hsettled, hdone, Bool.and_self, if_true, Option.none_or, matEnd]
  cases r.err <;> rfl

/-- The end of an operation without flags and without SE (R100). -/
theorem matDone_of_quiet (hf : r.flags = Flags.none) (hse : matSe o = false) : s.matDone cl r o = s.endOp r.op.id := by
  rw [State.matDone, if_neg (not_not_intro hf), if_neg (by rw [hse]; exact Bool.false_ne_true)]

/-- The end of an operation without flags and with SE posts its semaphore (R219). -/
theorem matDone_of_se (hf : r.flags = Flags.none) (hse : matSe o = true) : s.matDone cl r o =
    s.send (.engine cl) (.engine cl) vnControl (.semPost cl (matSem o) r.op.id) := by
  rw [State.matDone, if_neg (not_not_intro hf), if_pos hse]

/-- The flags of an operation go to its context (R100). -/
theorem matDone_of_flags (hf : r.flags ≠ Flags.none) : s.matDone cl r o = s.send (.engine cl) (.line r.op.who.key) vnReply
    (.opFlags r.op.who r.flags r.op.id (if matSe o then some (cl, matSem o) else none)) :=
  if_pos hf

/-- The end of an operation changes no cluster and no core. -/
theorem matDone_frame : ∃ net nextId ops, s.matDone cl r o = { s with net := net, nextId := nextId, ops := ops } := by
  unfold State.matDone
  split
  · exact ⟨_, _, _, rfl⟩
  · split
    · exact ⟨_, _, _, rfl⟩
    · exact ⟨_, _, _, rfl⟩

/-- An `mmac` with every row written and checked leaves the unit, and signals its end (R100, R207, R219). -/
theorem matrixComplete_mmac_done {sp : Bool} (hr : (s.cl cl).mrun = some r) (hk : r.op.k = .mmac sp n d hA hD o)
    (hsettled : s.settled cl r = true) (herr : r.err = none) (hrows : matRows o ≤ r.row) :
    ∃ t, exec (.matrixComplete cl) s = .next t ∧ (t.cl cl).mrun = none ∧ t.cores = s.cores ∧
      (r.flags = Flags.none → matSe o = false → t.ops = tdel s.ops r.op.id) ∧
      (r.flags = Flags.none → matSe o = true → ∃ z ∈ t.net, z.body = .semPost cl (matSem o) r.op.id) ∧
      (r.flags ≠ Flags.none → ∃ z ∈ t.net, z.dst = .line r.op.who.key ∧
        z.body = .opFlags r.op.who r.flags r.op.id (if matSe o = true then some (cl, matSem o) else none)) := by
  have hexec := exec_matrixComplete_mmac hr hk hsettled (by rw [decide_eq_true hrows, Bool.or_true])
  rw [matEnd_of_done herr] at hexec
  obtain ⟨net, nextId, ops, hframe⟩ := matDone_frame (s := s.setCl cl { s.cl cl with mrun := none }) (cl := cl) (r := r) (o := o)
  refine ⟨_, hexec, ?_, ?_, fun hf hse => ?_, fun hf hse => ?_, fun hf => ?_⟩
  · rw [hframe]
    exact congrArg Cluster.mrun (State.cl_setCl_eq ..)
  · rw [hframe]
    rfl
  · rw [matDone_of_quiet hf hse]
    rfl
  · rw [matDone_of_se hf hse]
    exact ⟨_, List.mem_append_right _ (List.mem_singleton_self _), rfl⟩
  · rw [matDone_of_flags hf]
    exact ⟨_, List.mem_append_right _ (List.mem_singleton_self _), rfl, rfl⟩

/-- An `mmac` that met an error ends in its fault (R211). -/
theorem matrixComplete_mmac_error {sp : Bool} {f : Flt} (hr : (s.cl cl).mrun = some r) (hk : r.op.k = .mmac sp n d hA hD o)
    (hsettled : s.settled cl r = true) (hkey : r.op.who.key ≠ noKey) (herr : r.err = some f) :
    ∃ t z rec_, exec (.matrixComplete cl) s = .next t ∧ (t.cl cl).mrun = none ∧ t.net = s.net ++ [z] ∧
      z.dst = .line r.op.who.key ∧ z.body = .fault r.op.who f true false r.op.id rec_ false := by
  have hexec := exec_matrixComplete_mmac hr hk hsettled (by rw [herr]; rfl)
  obtain ⟨rec_, hfault⟩ := matFault_of_context (s := s.setCl cl { s.cl cl with mrun := none }) (cl := cl) (f := f) hkey
  rw [matEnd_of_error herr, hfault] at hexec
  exact ⟨_, _, rec_, hexec, congrArg Cluster.mrun (State.cl_setCl_eq ..), rfl, rfl, rfl⟩

/-- An epilogue with every row written and settled leaves the unit, and signals its end (R100, R207, R219). -/
theorem matrixComplete_mepi_done {a addr : Nat} {sc bi : Option Handle} (hm : (s.cl cl).mrun = none) (hr : (s.cl cl).erun = some r)
    (hk : r.op.k = .mepi n a d hA hD sc bi o addr) (hsettled : s.settled cl r = true) (herr : r.err = none)
    (hrows : matRows o ≤ r.row) :
    ∃ t, exec (.matrixComplete cl) s = .next t ∧ (t.cl cl).erun = none ∧ t.cores = s.cores ∧
      (r.flags = Flags.none → matSe o = false → t.ops = tdel s.ops r.op.id) ∧
      (r.flags = Flags.none → matSe o = true → ∃ z ∈ t.net, z.body = .semPost cl (matSem o) r.op.id) := by
  have hexec := exec_matrixComplete_mepi hm hr hk hsettled (by rw [decide_eq_true hrows, Bool.or_true])
  rw [matEnd_of_done herr] at hexec
  obtain ⟨net, nextId, ops, hframe⟩ := matDone_frame (s := s.setCl cl { s.cl cl with erun := none }) (cl := cl) (r := r) (o := o)
  refine ⟨_, hexec, ?_, ?_, fun hf hse => ?_, fun hf hse => ?_⟩
  · rw [hframe]
    exact congrArg Cluster.erun (State.cl_setCl_eq ..)
  · rw [hframe]
    rfl
  · rw [matDone_of_quiet hf hse]
    rfl
  · rw [matDone_of_se hf hse]
    exact ⟨_, List.mem_append_right _ (List.mem_singleton_self _), rfl⟩

end complete

/-- A swap that nothing holds up exchanges the copies of its table (R94, R214). -/
theorem tableSwap_exchanges {t : Nat} (hswap : (s.cl cl).t3swap.contains t = true) (hfree : s.captured cl t = false) :
    ∃ u, exec (.tableSwap cl t) s = .next u ∧ (u.cl cl).table t = (s.cl cl).shadow t ∧
      (u.cl cl).shadow t = (s.cl cl).table t ∧ (u.cl cl).t3swap.contains t = false ∧
      ∀ id, tget (s.cl cl).swapOps t = some id → tget u.ops id = none := by
  have hexec : exec (.tableSwap cl t) s = execTableSwap cl t s := rfl
  simp only [execTableSwap, hswap, hfree, Bool.not_true, Bool.or_self, Bool.false_eq_true, if_false] at hexec
  refine ⟨_, hexec, ?_, ?_, ?_, fun id hid => ?_⟩
  · rw [State.cl_setCl_eq]
    exact tgetD_tset_eq ..
  · rw [State.cl_setCl_eq]
    exact tgetD_tset_eq ..
  · rw [State.cl_setCl_eq]
    simp
  · rw [hid, Option.toList_some, List.foldl_append]
    exact tget_tdel_eq ..

/-- A grant ends the wait for its semaphore (R219). -/
theorem exec_semaphoreGrant {m : Nat} (hm : s.find? m = some (.semGrant key n)) (hl : s.line? key = some l) (hlive : l.life = .live)
    (hkind : l.wtKind = 8) (hdetail : l.wtDetail % 16 = n) (hheld : l.heldFaults = []) :
    exec (.semaphoreGrant m) s = .next ((s.drop m).setLine key (l.ready s.gtime)) := by
  have hl' : (s.drop m).line? key = some l := hl
  change execSemaphoreGrant m s = _
  simp only [execSemaphoreGrant, hm, hl', hlive, hkind, hdetail, beq_self_eq_true, Bool.and_self, if_true, makeReady_eq hl' hheld,
    State.gtime_drop]

section post

/-- A message on its way that an operation's completion waits for (R164, R188, R190). -/
def signalOf (tok : Nat) (y : Msg) : Bool :=
  match y.body with
  | .semPost _ _ op => op == tok
  | .req _ _ (.engAdd _ _) t _ => t == tok
  | .acc b => b.tok == tok && match b.k with
      | .engAdd _ _ => true
      | _ => false
  | .eack _ t _ _ _ ends => ends && t == tok
  | .fault _ _ _ _ t _ _ => t == tok
  | _ => false

/-- The operations once those of one that may be complete are looked at: `waits` says that a signal is on its way, `late` that an
invalidation of a group is. -/
def doneOps (ops : Table OpInfo) (tok : Nat) (waits : Bool) (late : Nat → Bool) : Table OpInfo :=
  if waits then ops
  else match tget ops tok with
    | some o => if o.late.any late then tset ops tok { o with done := true } else tdel ops tok
    | none => ops

/-- The completion of an operation changes the operations alone, and looks at the messages on their way (R164, R188, R190). -/
theorem doneOp_eq (s : State) (tok : Nat) :
    s.doneOp tok = { s with ops := doneOps s.ops tok (s.inFlight.any (signalOf tok)) s.openGroup } := by
  have hdone : s.doneOp tok = if s.inFlight.any (signalOf tok) then s else match tget s.ops tok with
      | some o => if o.late.any s.openGroup then { s with ops := tset s.ops tok { o with done := true } } else s.endOp tok
      | none => s := rfl
  rw [hdone, doneOps]
  cases s.inFlight.any (signalOf tok) with
  | true => rfl
  | false =>
    cases tget s.ops tok with
    | none => rfl
    | some o =>
      simp only [Bool.false_eq_true, if_false]
      split <;> rfl

/-- The completion of an operation changes no cluster. -/
theorem cl_doneOp (s : State) (tok j : Nat) : (s.doneOp tok).cl j = s.cl j := by rw [doneOp_eq]; rfl

/-- The completion of an operation changes no message. -/
theorem net_doneOp (s : State) (tok : Nat) : (s.doneOp tok).net = s.net := by rw [doneOp_eq]

/-- Whether an operation's signals are made does not depend on the clusters. -/
theorem ops_doneOp_setCl (s : State) (c : Cluster) (tok : Nat) : ((s.setCl cl c).doneOp tok).ops = (s.doneOp tok).ops := by
  rw [doneOp_eq, doneOp_eq s]
  rfl

/-- A grant on its way is no signal of an operation, nor an invalidation. -/
theorem ops_doneOp_send_semGrant (s : State) (a b : Node) (vn tok : Nat) :
    ((s.send a b vn (.semGrant key n)).doneOp tok).ops = (s.doneOp tok).ops := by
  have hsignal : (s.send a b vn (.semGrant key n)).inFlight.any (signalOf tok) = s.inFlight.any (signalOf tok) := by
    simp [State.inFlight, List.any_append, signalOf]
  have hgroup : (s.send a b vn (.semGrant key n)).openGroup = s.openGroup := by
    funext g
    simp [State.openGroup, List.any_append]
  rw [doneOp_eq, doneOp_eq s, hsignal, hgroup]
  rfl

variable {m op : Nat}

/-- The post of an engine's operation: a waiter is granted, or the semaphore counts, and then the operation's signals are made
(R188, R219). -/
theorem exec_engineSemaphorePost (hm : s.find? m = some (.semPost cl n op)) : exec (.engineSemaphorePost m) s =
    ((s.drop m).post cl n).elim (.next s) fun t => .next (t.doneOp op) := by
  change execEngineSemaphorePost m s = _
  simp only [execEngineSemaphorePost, hm]
  cases (s.drop m).post cl n <;> rfl

/-- A post without a waiter counts up to 255 (R219). -/
theorem post_counts (hw : (s.cl cl).semHead n = none) (hlow : tgetD (s.cl cl).sems n 0 < 255) :
    s.post cl n = some (s.setCl cl { s.cl cl with sems := tset (s.cl cl).sems n (tgetD (s.cl cl).sems n 0 + 1) }) := by
  simp only [State.post, hw, if_neg (Nat.not_le.mpr hlow)]

/-- A post without a waiter waits at 255 (R219). -/
theorem post_waits (hw : (s.cl cl).semHead n = none) (hfull : 255 ≤ tgetD (s.cl cl).sems n 0) : s.post cl n = none := by
  simp only [State.post, hw, if_pos hfull]

/-- A post gives the oldest waiter its grant (R219). -/
theorem post_grants {w : SemWait} (hw : (s.cl cl).semHead n = some w) : s.post cl n = some
    ((s.setCl cl { s.cl cl with semWait := (s.cl cl).semWait.filter fun x => x != w }).send (.engine cl) (.line w.key) vnReply
      (.semGrant w.key n)) := by
  simp only [State.post, hw]

/-- An operation whose end deletes it is gone. -/
theorem tget_ops_doneOp (hdone : s.doneOp op = s.endOp op) : tget (s.doneOp op).ops op = none := by
  rw [hdone]
  exact tget_tdel_eq ..

/-- A post of an engine that nobody waits for counts below 255, and its operation ends. -/
theorem engineSemaphorePost_counts (hm : s.find? m = some (.semPost cl n op)) (hdone : (s.drop m).doneOp op = (s.drop m).endOp op)
    (hw : (s.cl cl).semHead n = none) (hlow : tgetD (s.cl cl).sems n 0 < 255) :
    ∃ t, exec (.engineSemaphorePost m) s = .next t ∧ tget (t.cl cl).sems n = some (tgetD (s.cl cl).sems n 0 + 1) ∧
      tget t.ops op = none ∧ t.net = (s.drop m).net := by
  have hexec := exec_engineSemaphorePost hm
  rw [post_counts (s := s.drop m) hw hlow] at hexec
  refine ⟨_, hexec, ?_, ?_, net_doneOp ..⟩
  · rw [cl_doneOp, State.cl_setCl_eq]
    exact tget_tset_eq ..
  · rw [ops_doneOp_setCl, tget_ops_doneOp hdone]

/-- A post of an engine that nobody waits for stays on its way at 255. -/
theorem engineSemaphorePost_waits (hm : s.find? m = some (.semPost cl n op)) (hw : (s.cl cl).semHead n = none)
    (hfull : 255 ≤ tgetD (s.cl cl).sems n 0) : exec (.engineSemaphorePost m) s = .next s := by
  have hexec := exec_engineSemaphorePost hm
  rwa [post_waits (s := s.drop m) hw hfull] at hexec

/-- A post of an engine gives the oldest waiter its grant, and its operation ends. -/
theorem engineSemaphorePost_grants {w : SemWait} (hm : s.find? m = some (.semPost cl n op))
    (hdone : (s.drop m).doneOp op = (s.drop m).endOp op) (hw : (s.cl cl).semHead n = some w) :
    ∃ t z, exec (.engineSemaphorePost m) s = .next t ∧ (t.cl cl).sems = (s.cl cl).sems ∧ tget t.ops op = none ∧
      t.net = (s.drop m).net ++ [z] ∧ z.dst = .line w.key ∧ z.body = .semGrant w.key n := by
  have hexec := exec_engineSemaphorePost hm
  rw [post_grants (s := s.drop m) hw] at hexec
  refine ⟨_, _, hexec, ?_, ?_, net_doneOp .., rfl, rfl⟩
  · rw [cl_doneOp, State.cl_send, State.cl_setCl_eq]
    rfl
  · rw [ops_doneOp_send_semGrant, ops_doneOp_setCl, tget_ops_doneOp hdone]

end post

/-- Settles O56, step by step. -/
theorem matrixSteps : Obligations.MatrixSteps := by
  refine ⟨?accept, ?start, ?mloadb, ?masks, ?pass, ?epilogue, ?check, ?hold, ?mmac, ?mepi, ?swap, ?grant, ?post⟩
  case accept =>
    intro s m cl x o l hx hdst hbody hfree hroom hans hl hwt hheld
    exact matrixAccept_cases hx hdst hbody hfree hroom hans hl hwt hheld
  case start =>
    intro s cl o rest hq hm he hkey hafter
    refine ⟨fun n hk => ?_, fun n bs hk => ?_, fun n h hk => ?_, fun n a d hA hD sc bi w v hk => ?_, fun sp n d hA hD w hk => ?_⟩
    · refine ⟨_, exec_matrixOpStart_ctswap hq hafter hk, ?_, ?_, rfl⟩ <;> rw [State.cl_setCl_eq]
      exact tget_tset_eq ..
    · refine ⟨_, exec_matrixOpStart_mcfg hq hm he hafter hk, ?_, ?_, rfl⟩ <;> rw [State.cl_endOp, State.cl_setCl_eq]
      exact tget_tset_eq ..
    · refine ⟨_, exec_matrixOpStart_mloadb hq hm he hafter hk, ?_, ?_⟩ <;> rw [State.cl_setCl_eq]
    · refine ⟨_, exec_matrixOpStart_mepi hq hm he hafter hk, ?_, ?_⟩ <;> rw [State.cl_setCl_eq]
    · exact ⟨matrixOpStart_mmac_runs hq hm he hafter hk, matrixOpStart_mmac_refused hq hm he hafter hk hkey⟩
  case mloadb =>
    intro s cl n r h k hr hk hfmt hslot
    refine ⟨_, _, exec_mloadbExecute hr hk hfmt hslot, ?_, ?_, rfl, rfl, fun h8 => ?_, rfl, rfl⟩
    · rw [State.cl_endOp, State.cl_modCl_eq, State.cl_setCl_eq]
      rfl
    · rw [State.cl_endOp, State.cl_modCl_eq]
    · rw [cells_loadB_int8 _ _ _ _ h8, List.map_map]
      rfl
  case masks =>
    intro s cl n d need r hA hD o q hr hk hmasked herr hmasks hneed hq
    exact ⟨maskPop_takes_all hr hk hmasked herr hmasks hneed hq, maskPop_takes_needed hr hk hmasked herr hmasks hneed hq⟩
  case pass =>
    intro s cl n d row r b sp hA hD o k bs f p q hr hb hk hpend hmasked herr hrows hroom hacc hslot hrow hpass
    refine ⟨_, _, _, exec_matrixPass hr hb hk hpend hmasked herr hrows hroom hacc hslot hrow hpass, ?_, fun a ha => ?_, rfl, rfl,
      congrArg Cluster.unchecked (State.cl_setCl_eq ..), rfl, rfl, rfl, rfl, rfl, rfl, congrArg Cluster.mrun (State.cl_setCl_eq ..),
      rfl, rfl⟩
    · rw [State.core_modCore_eq, State.core_setCl]
    · rw [State.core_modCore_eq, State.core_setCl]
      exact memGet_memWrite_out _ _ _ ha
  case epilogue =>
    intro s cl n a d addr row r hA hD sc bi o k he hk herr hchecked hrows hm hfmt hg hhold hrow hslot
    exact epilogueRow_converts he hk herr hchecked hrows hm hfmt hg hhold hrow hslot
  case check =>
    intro s cl upset mac row align u rest hu hlost hpend hredo hhold hholders
    exact ⟨passCheck_agrees (x := ⟨upset, align, mac, row⟩) hu hlost hpend hredo hhold,
      passCheck_fails (x := ⟨upset, align, mac, row⟩) hu hlost hpend hredo hhold hholders,
      passCheck_fails_again (x := ⟨upset, align, mac, row⟩) hu hlost hpend hredo hhold hholders⟩
  case hold =>
    intro s c key l hholders hhold hl
    refine ⟨_, _, exec_heldRelease hholders hhold hl, State.line?_setLine_eq .., held_setTsw_zero l, rfl, rfl, rfl, ?_⟩
    rw [State.core_setLine, State.core_setCore_eq]
    exact tget_tdel_eq ..
  case mmac =>
    intro s cl n d r sp hA hD o hr hk hsettled hkey
    exact ⟨matrixComplete_mmac_done hr hk hsettled, fun _ => matrixComplete_mmac_error hr hk hsettled hkey⟩
  case mepi =>
    intro s cl n a d addr r hA hD sc bi o hm hr hk hsettled herr hrows
    exact matrixComplete_mepi_done hm hr hk hsettled herr hrows
  case swap =>
    intro s cl t hswap
    refine ⟨fun hcaptured => ?_, tableSwap_exchanges hswap⟩
    change execTableSwap cl t s = _
    simp only [execTableSwap, hcaptured, Bool.or_true, if_true]
  case grant =>
    intro s m key n l hm hl hlive hkind hdetail hheld
    exact ⟨_, _, exec_semaphoreGrant hm hl hlive hkind hdetail hheld, State.line?_setLine_eq .., rfl, rfl, rfl⟩
  case post =>
    intro s m cl n op hm hdone
    exact ⟨engineSemaphorePost_counts hm hdone, engineSemaphorePost_waits hm, fun _ => engineSemaphorePost_grants hm hdone⟩

end Sys2Proof
end

section
/-! O8: the integer instructions of two sources (R110, R114, R120). The operation that the model makes of one lane is the rule's; they are
written apart where the rule clamps an integer, masks a count or takes a field. -/

namespace Sys2Proof

open Machine

/-! ## One lane of two sources (R114, R120) -/

/-- `addsu`: a sum of lanes is cut at the greatest lane. -/
theorem satU_add (w x y : Nat) : satU w ((x : Int) + y) = min (x + y) (2 ^ w - 1) := by
  have hpos : 0 < 2 ^ w := by positivity
  have hcast : ((2 ^ w : Nat) : Int) = 2 ^ w := by push_cast; rfl
  have hclamp : clamp 0 (2 ^ w - 1) ((x : Int) + y) = (min (x + y) (2 ^ w - 1) : Nat) := by
    rw [clamp, ← hcast, Nat.min_def]
    split_ifs <;> omega
  rw [satU, hclamp]
  exact wrap_natCast (Nat.lt_of_le_of_lt (Nat.min_le_right ..) (by omega))

/-- `subsu`: a difference of lanes is cut at 0. -/
theorem satU_sub {w x : Nat} (hx : x < 2 ^ w) (y : Nat) : satU w ((x : Int) - y) = x - y := by
  have hcast : ((2 ^ w : Nat) : Int) = 2 ^ w := by push_cast; rfl
  have hclamp : clamp 0 (2 ^ w - 1) ((x : Int) - y) = (x - y : Nat) := by
    rw [clamp, ← hcast]
    split_ifs <;> omega
  rw [satU, hclamp]
  exact wrap_natCast (by omega)

/-- The bits of a field descriptor above the position hold the length (R114). -/
theorem fieldLen_eq (t : LaneType) (y : Nat) : fieldLen t.width y =
    if (y >>> Nat.log2 t.width) &&& (t.width - 1) = 0 then t.width else (y >>> Nat.log2 t.width) &&& (t.width - 1) := by
  obtain ⟨n, hn⟩ := width_eq_two_pow t
  rw [fieldLen, hn, Nat.log2_two_pow, Nat.shiftRight_eq_div_pow, Nat.and_two_pow_sub_one_eq_mod]

/-- The position of a field is the masked count. -/
theorem fieldPos_eq_countOf (t : LaneType) (y : Nat) : fieldPos t.width y = countOf t.width y := shiftCount_eq_countOf t y

/-- Settles O8: form by form, the operation of one lane is the rule's. -/
theorem integerLanes : Obligations.IntegerLanes := by
  intro i x h _
  cases i with
  | add | and | or | xor | mul | mulh | adds | subs => cases h; exact of2_holds (fun _ => rfl) fun _ _ _ _ => rfl
  | sub => cases h; exact of2_holds (fun _ => rfl) fun _ _ _ hy => wrap_sub_eq_subLane hy
  | shl =>
    cases h
    exact of2_holds (fun _ => rfl) fun _ _ _ _ => by rw [shlLane, shiftCount_eq_countOf, Nat.shiftLeft_eq]
  | shr =>
    cases h
    exact of2_holds (fun _ => rfl) fun _ _ _ _ => by rw [shrLane, shiftCount_eq_countOf, Nat.shiftRight_eq_div_pow]
  | sra => cases h; exact of2_holds (fun _ => rfl) fun _ _ _ _ => by rw [sraLane, shiftCount_eq_countOf]
  | mulhu => cases h; exact of2_holds (fun _ => rfl) fun _ _ _ _ => (Nat.shiftRight_eq_div_pow ..).symm
  | min => cases h; exact of2_holds (fun _ => rfl) fun _ _ _ _ => minS_eq ..
  | max => cases h; exact of2_holds (fun _ => rfl) fun _ _ hx hy => maxS_eq hx hy
  | minu => cases h; exact of2_holds (fun _ => rfl) fun _ _ _ _ => Nat.min_def.symm
  | maxu => cases h; exact of2_holds (fun _ => rfl) fun _ _ _ _ => Nat.max_def.symm
  | addsu => cases h; exact of2_holds (fun _ => rfl) fun _ _ _ _ => satU_add ..
  | subsu => cases h; exact of2_holds (fun _ => rfl) fun _ _ hx _ => satU_sub hx _
  | avgu => cases h; exact of2_holds (fun _ => rfl) fun _ _ _ _ => (Nat.shiftRight_eq_div_pow _ 1).symm
  | absd => cases h; exact of2_holds (fun _ => rfl) fun _ _ _ _ => by omega
  | bext =>
    cases h
    exact of2_holds (fun _ => rfl) fun x _ _ _ => by
      rw [bextLane, fieldPos_eq_countOf, fieldLen_eq, Nat.shiftRight_eq_div_pow x, Nat.and_two_pow_sub_one_eq_mod]
  | _ => cases h

end Sys2Proof
end

section
/-! O9: the integer instructions of one source, and the rearrangements of lanes (R112, R114, R120, R121). -/

namespace Sys2Proof

open Machine

/-! ## Bits of a lane (R114) -/

/-- `clz`: what the magnitude leaves free of the width. -/
theorem sub_bitLen (w x : Nat) : w - bitLen x = if x = 0 then w else w - 1 - Nat.log2 x := by
  rw [bitLen]
  split_ifs <;> omega

/-- `ctz` counts the bits before the lowest one. -/
theorem trailingZeros_eq (n x : Nat) : trailingZeros n x = ((List.range n).takeWhile fun j => !x.testBit j).length := by
  induction n generalizing x with
  | zero => rfl
  | succ n ih =>
    have htail : ((fun j => !x.testBit j) ∘ Nat.succ) = fun j => !(x / 2).testBit j :=
      funext fun j => congrArg (!·) (Nat.testBit_succ x j)
    rw [trailingZeros, List.range_succ_eq_map, List.takeWhile_cons, Nat.testBit_zero, List.takeWhile_map, htail, ih]
    rcases Nat.mod_two_eq_zero_or_one x with h | h
    · simp [h, Nat.add_comm]
    · simp [h]

/-- `popc` counts the bits that are one. -/
theorem popCount_eq (n x : Nat) : popCount n x = ((List.range n).filter fun j => x.testBit j).length := by
  induction n generalizing x with
  | zero => rfl
  | succ n ih =>
    have htail : ((fun j => x.testBit j) ∘ Nat.succ) = fun j => (x / 2).testBit j := funext fun j => Nat.testBit_succ x j
    rw [popCount, List.range_succ_eq_map, List.filter_cons, Nat.testBit_zero, List.filter_map, htail, ih]
    rcases Nat.mod_two_eq_zero_or_one x with h | h
    · simp [h]
    · simp [h, Nat.add_comm]

/-! ## Digits in reverse order (R114) -/

/-- The number of some digits and one more above them. -/
theorem packNat_concat (w : Nat) (l : List Nat) (a : Nat) : packNat w (l ++ [a]) = a % 2 ^ w * 2 ^ (w * l.length) + packNat w l := by
  induction l with
  | nil => simp [packNat]
  | cons b r ih =>
    rw [List.cons_append, packNat, ih, packNat, List.length_cons, Nat.mul_succ, Nat.pow_add]
    ring

/-- The lowest `n` digits of `w` bits of a number, in reverse order. -/
def reverseDigits (w n x : Nat) : Nat := packNat w ((List.range n).map fun j => x / 2 ^ (w * (n - 1 - j)) % 2 ^ w)

/-- The lowest digit becomes the highest. -/
theorem reverseDigits_succ (w n x : Nat) :
    reverseDigits w (n + 1) x = x % 2 ^ w * 2 ^ (w * n) + reverseDigits w n (x / 2 ^ w) := by
  have hlow (j : Nat) (hj : j ∈ List.range n) :
      x / 2 ^ (w * (n + 1 - 1 - j)) % 2 ^ w = x / 2 ^ w / 2 ^ (w * (n - 1 - j)) % 2 ^ w := by
    have hexp : w * (n + 1 - 1 - j) = w + w * (n - 1 - j) := by
      rw [List.mem_range] at hj
      rw [Nat.add_comm w, ← Nat.mul_succ]
      exact congrArg (w * ·) (by omega)
    rw [hexp, Nat.pow_add, Nat.div_div_eq_div_mul]
  rw [reverseDigits, List.range_succ, List.map_append, List.map_singleton, packNat_concat, List.map_congr_left hlow]
  simp [reverseDigits]

theorem byteReverse_eq (n x : Nat) : byteReverse n x = reverseDigits 8 n x := by
  induction n generalizing x with
  | zero => rfl
  | succ n ih => rw [byteReverse, ih, reverseDigits_succ, Nat.pow_mul]; rfl

theorem bitReverse_eq (n x : Nat) : bitReverse n x = reverseDigits 1 n x := by
  induction n generalizing x with
  | zero => rfl
  | succ n ih => rw [bitReverse, ih, reverseDigits_succ, Nat.one_mul, Nat.pow_one]

/-! ## Signs (R120) -/

theorem wrap_neg {w x : Nat} (hx : x < 2 ^ w) : wrap w (-(x : Int)) = (2 ^ w - x) % 2 ^ w := by
  have h := wrap_sub_eq_subLane (x := 0) hx
  rwa [Nat.cast_zero, zero_sub, subLane, Nat.add_zero] at h

theorem wrap_natCast_eq_mod (w n : Nat) : wrap w (n : Int) = n % 2 ^ w := by
  have hcast : (2 ^ w : Int) = (2 ^ w : Nat) := by push_cast; rfl
  rw [wrap, hcast, ← Int.natCast_mod, Int.toNat_natCast]

/-! ## Rearrangements (R121) -/

/-- A lane of the register packed from a list that is a function of the lane's number. -/
theorem lane_pack_map_range {w n k : Nat} (f : Nat → Nat) (hn : n ≤ 64 / w) :
    lane w (pack w ((List.range n).map f)) k = (if k < n then f k else 0) % 2 ^ w := by
  have hlen : w * ((List.range n).map f).length ≤ 64 := by
    rw [List.length_map, List.length_range]
    exact (Nat.mul_le_mul_left w hn).trans (mul_lanes_le w)
  rw [lane_pack hlen]
  split_ifs with hk <;> simp [hk]

/-- `vshuf`: the top bit of a selector gives zero. -/
theorem lane_vshufWord {w k : Nat} (hw : 0 < w) (a b : Word) (hk : k < 64 / w) : lane w (vshufWord w a b) k =
    (if (lane w b k).testBit (w - 1) then 0 else lane w a (lane w b k % (64 / w))) % 2 ^ w := by
  have htop : 2 ^ (w - 1) ≤ lane w b k ↔ (lane w b k).testBit (w - 1) = true := by
    refine ⟨fun h => ?_, Nat.ge_two_pow_of_testBit⟩
    by_contra hclear
    exact h.not_gt (lt_two_pow_of_testBit_false (Nat.sub_add_cancel hw ▸ lane_lt w b k) (Bool.eq_false_iff.mpr hclear))
  rw [vshufWord, lanes, List.map_map, lane_pack_map_range _ le_rfl, if_pos hk, Function.comp_apply]
  simp only [htop]

/-- `vpack`: the lanes of the first source, then those of the second. -/
theorem lane_vpackWord {w k : Nat} (hlanes : 64 / (w / 2) = 64 / w + 64 / w) (a b : Word) (hk : k < 64 / (w / 2)) :
    lane (w / 2) (vpackWord w a b) k =
      satS (w / 2) (signed w (if k < 64 / w then lane w a k else lane w b (k - 64 / w))) % 2 ^ (w / 2) := by
  rw [vpackWord, lane_pack (by simpa [← hlanes] using mul_lanes_le (w / 2)), List.getD_eq_getElem?_getD, List.getElem?_map,
    List.getElem?_append, lanes_length]
  split_ifs with hlow
  · simp [lanes, hlow]
  · have hhigh : k - 64 / w < 64 / w := by omega
    simp [lanes, hhigh]

/-- `vunpkl` and `vunpkh`: half of the lanes, from the lowest or from the middle on. -/
theorem lane_vunpkWord {w k : Nat} (high : Bool) (hlanes : 64 / (2 * w) = 64 / w / 2) (a : Word) (hk : k < 64 / (2 * w)) :
    lane (2 * w) (vunpkWord high w a) k = wrap (2 * w) (signed w (lane w a (if high then k + 64 / w / 2 else k))) % 2 ^ (2 * w) := by
  rw [vunpkWord, lane_pack_map_range _ hlanes.ge, if_pos (hlanes ▸ hk)]

section
variable {i : Instr} {g : Guard} {w : Nat} {d : Reg} {value : Env → Nat → Nat}

/-- An instruction under a guard that writes rd does what its rule says when the lanes of the word it writes are the rule's. -/
theorem word_holds {f : Env → Word} (hexec : ∀ s, exec i s = computeRd g s d f)
    (hlane : ∀ e k, k < 64 / w → lane w (f e) k = value e k % 2 ^ w) :
    LaneEffect.Holds { guard := some g, len := 4, width := w, d := d, lane := fun e k => (value e k, Flags.none) } i :=
  holds_of_word f (fun s _ he hg => (hexec s).trans (computeRd_runs f he (hg g rfl))) hlane fun _ _ => rfl

end

/-- Settles O9: form by form, the operation of one lane is the rule's, and so is each lane of the registers rearranged. -/
theorem integerLanesOfOne : Obligations.IntegerLanesOfOne := by
  intro i x h _
  cases i with
  | shli => cases h; exact of1_holds (fun _ => rfl) fun _ _ => by rw [shlLane, Nat.shiftLeft_eq]
  | shri => cases h; exact of1_holds (fun _ => rfl) fun _ _ => (Nat.shiftRight_eq_div_pow ..).symm
  | srai => cases h; exact of1_holds (fun _ => rfl) fun _ _ => rfl
  | rori => cases h; exact of1_holds (fun _ => rfl) fun _ _ => by rw [rorLane, Nat.shiftLeft_eq, Nat.shiftRight_eq_div_pow]
  | clz => cases h; exact of1_holds (fun _ => rfl) fun _ _ => sub_bitLen ..
  | ctz => cases h; exact of1_holds (fun _ => rfl) fun _ _ => trailingZeros_eq ..
  | popc => cases h; exact of1_holds (fun _ => rfl) fun _ _ => popCount_eq ..
  | bswap => cases h; exact of1_holds (fun _ => rfl) fun _ _ => byteReverse_eq ..
  | brev => cases h; exact of1_holds (fun _ => rfl) fun _ _ => by simp [bitReverse_eq, reverseDigits]
  | neg => cases h; exact of1_holds (fun _ => rfl) fun _ hx => wrap_neg hx
  | abs => cases h; exact of1_holds (fun _ => rfl) fun _ _ => wrap_natCast_eq_mod ..
  | vbcast => cases h; exact word_holds (fun _ => rfl) fun _ _ hk => lane_lanes1 _ _ hk
  | bins =>
    cases h
    exact word_holds (fun _ => rfl) fun _ _ hk => by
      rw [lane_lanes3 _ _ _ _ hk, binsLane, fieldPos_eq_countOf, fieldLen_eq, Nat.shiftLeft_eq, Nat.shiftLeft_eq]
  | vshuf g t => cases h; exact word_holds (fun _ => rfl) fun _ _ hk => lane_vshufWord (width_pos t) _ _ hk
  | vpack g t =>
    cases h
    have hlanes : 64 / (t.width / 2) = 64 / t.width + 64 / t.width := by cases t <;> rfl
    exact word_holds (fun _ => rfl) fun _ _ hk => lane_vpackWord hlanes _ _ hk
  | vunpkl g t =>
    cases h
    exact word_holds (fun _ => rfl) fun _ _ hk => lane_vunpkWord false (by rw [Nat.mul_comm, Nat.div_div_eq_div_mul]) _ hk
  | vunpkh g t =>
    cases h
    exact word_holds (fun _ => rfl) fun _ _ hk => lane_vunpkWord true (by rw [Nat.mul_comm, Nat.div_div_eq_div_mul]) _ hk
  | _ => cases h

end Sys2Proof
end

section
/-! O12: the conversions between lane types (R128, R129). -/

namespace Sys2Proof

open Machine

/-- Lanes that raise no flag add none. -/
theorem all_append_replicate_none (l : List Flags) (n : Nat) : Flags.all (l ++ List.replicate n Flags.none) = Flags.all l := by
  induction n with
  | zero => rw [List.replicate_zero, List.append_nil]
  | succ n ih =>
    rw [List.replicate_succ', ← List.append_assoc, Flags.all, List.foldl_concat, ← Flags.all, ih]
    simp [Flags.or, Flags.none]

section
variable {i : Instr} {g : Guard} {t y : LaneType} {d a : Reg} {f : Nat → Nat × Flags}

/-- A destination has room for the elements of a conversion. -/
theorem convElems_le (t y : LaneType) : convElems y.width t.width ≤ 64 / t.width :=
  Nat.div_le_div_left (Nat.le_max_right ..) (width_pos t)

/-- The rule of a conversion, by the number of its elements. -/
theorem conv_lane (e : Env) (k : Nat) : (LaneEffect.conv g t y d a f).lane e k =
    if k < convElems y.width t.width then f (lane y.width (e.reg a) k) else (0, Flags.none) := rfl

/-- The elements convert into the lowest lanes, and the lanes above them are zero. -/
theorem lane_conv (e : Env) (k : Nat) : lane t.width (packF t.width ((convSource t y (e.reg a)).map f)).1 k =
    ((LaneEffect.conv g t y d a f).lane e k).1 % 2 ^ t.width := by
  rw [packF, convSource, List.map_map, List.map_map, lane_pack_map_range _ (convElems_le t y), conv_lane]
  split_ifs <;> rfl

/-- The flags are those of the elements converted. -/
theorem flags_conv (e : Env) : (packF t.width ((convSource t y (e.reg a)).map f)).2 =
    Flags.all ((List.range (64 / t.width)).map fun k => ((LaneEffect.conv g t y d a f).lane e k).2) := by
  obtain ⟨m, hm⟩ := Nat.exists_eq_add_of_le (convElems_le t y)
  have hconverted : (List.range (convElems y.width t.width)).map (fun k => ((LaneEffect.conv g t y d a f).lane e k).2) =
      ((convSource t y (e.reg a)).map f).map (·.2) := by
    rw [convSource, List.map_map, List.map_map]
    refine List.map_congr_left fun k hk => ?_
    rw [conv_lane, if_pos (List.mem_range.mp hk)]
    rfl
  have habove : (List.range m).map ((fun k => ((LaneEffect.conv g t y d a f).lane e k).2) ∘ (convElems y.width t.width + ·)) =
      List.replicate m Flags.none := by
    refine (List.map_congr_left fun k _ => ?_).trans ((List.map_const' ..).trans (by rw [List.length_range]))
    rw [Function.comp_apply, conv_lane, if_neg (by omega)]
  rw [hm, List.range_add, List.map_append, List.map_map, hconverted, habove, all_append_replicate_none]
  rfl

/-- A conversion does what its rule says, with the conversion of one element that the rule names. -/
theorem conv_holds (hexec : ∀ s, exec i s = computeRdF g s d fun e => packF t.width ((convSource t y (e.reg a)).map f)) :
    (LaneEffect.conv g t y d a f).Holds i :=
  holds_of_flags _ (fun s _ he hg => (hexec s).trans (computeRdF_runs _ he (hg g rfl))) (fun e k _ => lane_conv e k) flags_conv

end

/-- Settles O12: form by form, the conversion of one element is the rule's. -/
theorem conversions : Obligations.Conversions := by
  intro i x h _
  cases i with
  | icvtf | fcvti => cases h; exact conv_holds fun _ => rfl
  | fcvt g t r sr =>
    cases sr with
    | false => cases h; exact conv_holds fun _ => rfl
    | true => cases h
  | _ => cases h

end Sys2Proof
end

section
/-! O13: the instructions that write a whole register (R80, R110 to R114, R118, R119, R121, R122, R182). -/

namespace Sys2Proof

open Machine

/-! ## Values (R80, R111, R113, R114, R119, R121) -/

theorem lane_zero (w : Nat) (x : Word) : lane w x 0 = x.toNat % 2 ^ w := by
  rw [lane, Nat.mul_zero, Nat.pow_zero, Nat.div_one]

/-- `lea`: a shift multiplies by a power of two. -/
theorem add_shiftLeft_eq_W (x y : Word) (n : Nat) : x + (y <<< n) = W (x.toNat + y.toNat * 2 ^ n) := by
  apply BitVec.eq_of_toNat_eq
  simp [W, Nat.shiftLeft_eq]

/-- `movi`: the halfword stands at its place and every other bit is zero. -/
theorem movi_word (v : BitVec 16) (n : Nat) : v.zeroExtend 64 <<< n = W (v.toNat * 2 ^ n) := by
  apply BitVec.eq_of_toNat_eq
  simp [W, Nat.shiftLeft_eq]

/-- The mask of a halfword. -/
theorem getLsbD_halfword {k : Nat} (hk : k < 64) : (0xFFFF#64).getLsbD k = decide (k < 16) := by
  rw [BitVec.getLsbD_ofNat, decide_eq_true hk, Bool.true_and]
  exact Nat.testBit_two_pow_sub_one 16 k

/-- `movk`: the halfword replaces the one at its place. -/
theorem movk_word (x : Word) (v : BitVec 16) (n : Nat) :
    (x &&& ~~~(0xFFFF#64 <<< n)) ||| (v.zeroExtend 64 <<< n) = wput x n 16 v.toNat := by
  apply BitVec.eq_of_getLsbD_eq
  intro k hk
  rw [getLsbD_wput _ _ _ _ hk, BitVec.getLsbD_or, BitVec.getLsbD_and, BitVec.getLsbD_not, BitVec.getLsbD_shiftLeft,
    BitVec.getLsbD_shiftLeft, getLsbD_halfword (Nat.lt_of_le_of_lt (Nat.sub_le ..) hk), BitVec.getLsbD_setWidth, BitVec.testBit_toNat]
  rcases Nat.lt_or_ge k n with hbelow | hlo
  · simp [hk, hbelow]
  rcases Nat.lt_or_ge k (n + 16) with hin | habove
  · have hin' : k - n < 16 := by omega
    have hin64 : k - n < 64 := by omega
    simp [hk, hlo, hlo.not_gt, hin, hin', hin64]
  · simp [hk, hlo.not_gt, habove.not_gt, BitVec.getLsbD_of_ge v (k - n) (by omega), show ¬ k - n < 16 by omega]

theorem sumInt_eq_sum (l : List Int) : sumInt l = l.sum := by
  rw [sumInt, List.sum_eq_foldl]

/-- `wid.f`: the widths after a field say where it begins. -/
theorem widField_eq (widths : List Nat) (wid : Word) (n : Nat) :
    widField widths wid n = W (wid.toNat / 2 ^ (widths.drop n).sum % 2 ^ widths.getD (n - 1) 0) := by
  have hsum := congrArg List.sum (List.take_append_drop n widths)
  rw [List.sum_append] at hsum
  rw [widField, wfld, ← List.sum_eq_foldl, ← List.sum_eq_foldl, ← hsum, Nat.add_sub_cancel_left]

/-! ## Forms (R105, R108) -/

/-- The instruction writes rd with the effect's value, and PC advances by its length. -/
def WritesValue (x : WordEffect) (i : Instr) : Prop :=
  ∀ (s : State) (e : Env), s.env? = some e → (∀ g, x.guard = some g → e.line.guard g = true) →
    exec i s = .next (s.put ((e.setReg s.cycle x.d (x.value e)).adv x.len))

section
variable {i : Instr} {d : Reg} {f value : Env → Word}

/-- One under a guard does so when the value it computes is the rule's. -/
theorem guarded_value_holds {g : Guard} (hexec : ∀ s, exec i s = computeRd g s d f) (hvalue : ∀ e, f e = value e) :
    WritesValue { guard := some g, len := 4, d := d, value := value } i :=
  fun s e he hg => ((hexec s).trans (computeRd_runs f he (hg g rfl))).trans (hvalue e ▸ rfl)

/-- So does one without. -/
theorem value_holds {len : Nat} (hexec : ∀ s, exec i s = withEnv s fun e => s.put (e.commit s.cycle len d (f e)))
    (hvalue : ∀ e, f e = value e) :
    WritesValue { guard := none, len := len, d := d, value := value } i :=
  fun s e he _ => ((hexec s).trans (withEnv_some _ he)).trans (hvalue e ▸ rfl)

end

/-- Settles O13: form by form, the value that the instruction writes is the rule's. -/
theorem wholeRegisters : Obligations.WholeRegisters := by
  suffices hholds : ∀ i x, wordEffect i = some x → WritesValue x i from fun i x s e h _ => hholds i x h s e
  intro i x h
  cases i with
  | mov | addi | andi | ori | xori | vsel => cases h; exact guarded_value_holds (fun _ => rfl) fun _ => rfl
  | sext => cases h; exact guarded_value_holds (fun _ => rfl) fun _ => by rw [lane_zero, sext64]
  | zext => cases h; exact guarded_value_holds (fun _ => rfl) fun _ => by rw [lane_zero]
  | pget => cases h; exact guarded_value_holds (fun _ => rfl) fun _ => (BitVec.ofNat_or ..).symm
  | sel => cases h; exact guarded_value_holds (fun _ => rfl) fun _ => by simp [pred_eq_or]
  | lea => cases h; exact guarded_value_holds (fun _ => rfl) fun _ => add_shiftLeft_eq_W ..
  | vdot => cases h; exact guarded_value_holds (fun _ => rfl) fun _ => by rw [vdotWord, zipWith_lanes, sumInt_eq_sum]
  | vrsum => cases h; exact guarded_value_holds (fun _ => rfl) fun _ => by rw [vrsumWord, lanes, List.map_map, sumInt_eq_sum]; rfl
  | vmsk => cases h; exact guarded_value_holds (fun _ => rfl) fun _ => by rw [vmskWord, lanes, List.map_map]; rfl
  | widF => cases h; exact guarded_value_holds (fun _ => rfl) fun _ => widField_eq ..
  | mov16 | hinfo => cases h; exact value_holds (fun _ => rfl) fun _ => rfl
  | movi => cases h; exact value_holds (fun _ => rfl) fun _ => movi_word ..
  | movk => cases h; exact value_holds (fun _ => rfl) fun _ => movk_word ..
  | _ => cases h

end Sys2Proof
end

section
/-! O15: the long instructions (R82, R106, R115, R124). -/

namespace Sys2Proof

open Machine

/-! ## One lane of a division (R82, R115) -/

/-- The quotient of two signed lanes. -/
theorem divLane_signed_fst (w x y : Nat) : (divLane true w x y).1 =
    if y = 0 then 2 ^ w - 1 else if signed w x = -(2 ^ (w - 1)) ∧ signed w y = -1 then x
    else wrap w (Int.tdiv (signed w x) (signed w y)) := by
  rw [divLane, sMin, if_pos rfl]
  split_ifs <;> rfl

/-- Their remainder. -/
theorem divLane_signed_snd (w x y : Nat) : (divLane true w x y).2 =
    if y = 0 then x else if signed w x = -(2 ^ (w - 1)) ∧ signed w y = -1 then 0
    else wrap w (Int.tmod (signed w x) (signed w y)) := by
  rw [divLane, sMin, if_pos rfl]
  simp only [sub_tdiv_mul]
  split_ifs <;> rfl

/-- The quotient of two unsigned lanes. -/
theorem divLane_unsigned_fst (w x y : Nat) : (divLane false w x y).1 = if y = 0 then 2 ^ w - 1 else x / y := apply_ite Prod.fst ..

/-- Their remainder. -/
theorem divLane_unsigned_snd (w x y : Nat) : (divLane false w x y).2 = if y = 0 then x else x % y := apply_ite Prod.snd ..

/-! ## The answer of a long instruction (R106) -/

/-- The word and the flags that an instruction computes are those of its rule's lanes. -/
def ComputesLanes (x : LaneEffect) (f : Env → Word × Flags) : Prop :=
  ∀ e, (∀ k, k < 64 / x.width → lane x.width (f e).1 k = (x.lane e k).1 % 2 ^ x.width) ∧
    (f e).2 = Flags.all ((List.range (64 / x.width)).map fun k => (x.lane e k).2)

section
variable {g : Guard} {t : LaneType} {d a b : Reg}

theorem computesLanes_of2 {f rule : Nat → Nat → Nat} (hrule : ∀ x y, f x y = rule x y) :
    ComputesLanes (.of2 g t d a b rule) fun e => (lanes2 t.width f (e.reg a) (e.reg b), Flags.none) :=
  fun _ => ⟨fun _ hk => (lane_lanes2 f _ _ hk).trans (congrArg (· % 2 ^ t.width) (hrule ..)), (all_none _).symm⟩

theorem computesLanes_fp2 (f : Nat → Nat → Nat × Flags) :
    ComputesLanes (.fp2 g t d a b f) fun e => flanes2 t.width f (e.reg a) (e.reg b) :=
  fun _ => ⟨fun _ hk => lane_flanes2 f _ _ hk, flags_flanes2 ..⟩

end

/-- Each long instruction leaves the word of its rule to a later answer. -/
theorem longOp_of_longLanes {i : Instr} {x : LaneEffect} (h : longLanes i = some x) :
    ∃ g f, x.guard = some g ∧ (∀ s, exec i s = longOp g s x.d f) ∧ ComputesLanes x f := by
  cases i with
  | div => cases h; exact ⟨_, _, rfl, fun _ => rfl, computesLanes_of2 fun _ _ => divLane_signed_fst ..⟩
  | rem => cases h; exact ⟨_, _, rfl, fun _ => rfl, computesLanes_of2 fun _ _ => divLane_signed_snd ..⟩
  | divu => cases h; exact ⟨_, _, rfl, fun _ => rfl, computesLanes_of2 fun _ _ => divLane_unsigned_fst ..⟩
  | remu => cases h; exact ⟨_, _, rfl, fun _ => rfl, computesLanes_of2 fun _ _ => divLane_unsigned_snd ..⟩
  | fdiv => cases h; exact ⟨_, _, rfl, fun _ => rfl, computesLanes_fp2 _⟩
  | fsqrt => cases h; exact ⟨_, _, rfl, fun _ => by simp only [← flanes1_eq_flanes2]; rfl, computesLanes_fp2 _⟩
  | _ => cases h

/-- The context that has issued a long instruction: it waits, with PC advanced (R106). -/
def longWait (s : State) (e : Env) : Env := ((e.note s).adv 4).wait s.gtime 9 1

theorem longWait_wt (s : State) (e : Env) : (longWait s e).line.wt = 0x90000001#32 := (by decide : mkWt 9 1 = 0x90000001#32)

section
variable {s : State} {e : Env} (src dst : Node) (vn : Nat) (x : Body)

/-- Its line, with a message on its way. -/
theorem line?_longWait : ((s.put (longWait s e)).send src dst vn x).line? e.key = some { (longWait s e).line with touched := true } :=
  s.line?_put_eq (longWait s e)

/-- It has the registers that it had. -/
theorem regOf_longWait (he : s.env? = some e) (q : Reg) : ((s.put (longWait s e)).send src dst vn x).regOf e q = s.regOf e q := by
  have hcore : ((s.put (longWait s e)).send src dst vn x).core e.site = e.core := s.core_put_eq (longWait s e)
  rw [regOf_eq_reg he, State.regOf, hcore, line?_longWait]
  rfl

end

/-- Settles O15: the context waits with its registers as they were, and the word that the answer brings is the rule's. -/
theorem longInstructions : Obligations.LongInstructions := by
  intro i x g s e h _ hguard ⟨he, hg⟩
  obtain ⟨g', f, hguard', hexec, hlanes⟩ := longOp_of_longLanes h
  obtain rfl : g' = g := Option.some.inj (hguard'.symm.trans hguard)
  obtain ⟨hlane, hflags⟩ := hlanes e
  refine ⟨_, _, _, (f e).1, (f e).2, (hexec s).trans (longOp_runs f he hg), line?_longWait .., rfl, longWait_wt s e, rfl, rfl,
    regOf_longWait _ _ _ _ he, rfl, rfl, rfl, hlane, ?_, ?_, ?_, ?_, ?_⟩
  · rw [hflags, Flags.all_nv, any_map_range]
  · rw [hflags, Flags.all_dz, any_map_range]
  · rw [hflags, Flags.all_of, any_map_range]
  · rw [hflags, Flags.all_uf, any_map_range]
  · rw [hflags, Flags.all_nx, any_map_range]

end Sys2Proof
end

section
/-! O19: `padd`, `trap` and `ebrk` (R119, R376). -/

namespace Sys2Proof

open Machine

/-- An address is canonical when it lies below 2^54 (R245). -/
theorem canonical_iff (a : Word) : canonical a = true ↔ a.toNat < 2 ^ 54 := by
  have := a.isLt
  rw [canonical, wfld, beq_iff_eq]
  omega

/-- Settles O19: each of them has its effect behind the guard, and that of `padd` turns on the sum being canonical. -/
theorem paddAndTraps : Obligations.PaddAndTraps := by
  intro s e g ⟨he, hg⟩
  have hpadd (d a b : Reg) : exec (.padd g d a b) s = .next (if canonical (e.reg a + e.reg b)
      then s.put (e.commit s.cycle 4 d (e.reg a + e.reg b)) else s.raise e (fltCanon 0 0xF (e.reg a + e.reg b))) := guarded_runs _ he hg
  refine ⟨fun d a b hsum => ?_, fun d a b hsum => ?_, fun k => guarded_runs _ he hg, guarded_runs _ he hg⟩
  · rw [hpadd, if_pos ((canonical_iff _).mpr hsum)]
    rfl
  · rw [hpadd, if_neg ((canonical_iff _).not.mpr hsum.not_gt)]
    rfl

end Sys2Proof
end

section
/-! O18: control transfers (R131 to R133, R378). -/

namespace Sys2Proof

open Machine

/-! ## Targets (R131, R132) -/

/-- Offsets count halfwords. -/
theorem branchOff_eq {n : Nat} (off : BitVec n) : branchOff off = BitVec.ofInt 64 (2 * off.toInt) := by
  rw [branchOff, simm, BitVec.signExtend, BitVec.mul_comm, BitVec.ofInt_mul]
  rfl

/-- A pair index counts halfwords too. -/
theorem shiftLeft_one_eq (x : Word) : x <<< 1 = 2#64 * x := by
  rw [BitVec.shiftLeft_eq_mul_twoPow, BitVec.mul_comm]
  rfl

/-- A target with bit 0 set is odd. -/
theorem getLsbD_zero_iff (a : Word) : a.getLsbD 0 = true ↔ a.toNat % 2 = 1 := by
  rw [BitVec.getLsbD, Nat.testBit_zero, decide_eq_true_iff]

/-- The fault of a transfer's target, if it has one: a register's is checked for its bit 0 first (R132). -/
def transferFault (x : Transfer) : Option Flt :=
  if x.byReg then targetFault x.target else if canonical x.target then none else some (fltCanon 0 0xF x.target)

section
variable {x : Transfer}

theorem transferFault_of_odd (hreg : x.byReg = true) (hodd : x.target.toNat % 2 = 1) :
    transferFault x = some { cls := 0x03, sub := 0x01, kind := 0, size := 0xF, faddr := x.target } := by
  rw [transferFault, if_pos hreg, targetFault, if_pos ((getLsbD_zero_iff _).mpr hodd)]

theorem transferFault_of_not_odd (h : ¬ (x.byReg = true ∧ x.target.toNat % 2 = 1)) :
    transferFault x = if canonical x.target then none else some (fltCanon 0 0xF x.target) := by
  rw [transferFault]
  by_cases hreg : x.byReg = true
  · rw [if_pos hreg, targetFault, if_neg ((getLsbD_zero_iff _).not.mpr fun hodd => h ⟨hreg, hodd⟩)]
  · rw [if_neg hreg]

end

/-! ## Transfers that pass their checks (R131 to R133) -/

/-- `c` is the context after a transfer: at the target, its register written, and beside it only the trace changed, while it is enabled. -/
def Arrived (x : Transfer) (s : State) (e c : Env) : Prop :=
  ∃ tr : Trace, c = { x.written s e with
      line := { (x.written s e).line with pc := x.target }, core := { (x.written s e).core with trace := tr } } ∧
    (e.core.trace.ctl.getLsbD 0 = false → tr = e.core.trace)

section
variable {x : Transfer} {s : State} {e : Env}

/-- Writing a register leaves the trace alone. -/
theorem written_trace : (x.written s e).core.trace = e.core.trace := by
  rw [Transfer.written]
  split
  · rw [Env.setReg]
    split <;> rfl
  · rfl

/-- A jump arrives. -/
theorem arrived_jump : Arrived x s e ((x.written s e).jump s.gtime x.target) :=
  ⟨_, rfl, fun hoff => (record_of_disabled ((congrArg (·.ctl.getLsbD 0) written_trace).trans hoff) ..).trans written_trace⟩

/-- So does falling through. -/
theorem arrived_adv (ht : x.target = e.line.pc + 4#64) : Arrived x s e ((x.written s e).adv 4) := by
  refine ⟨_, ?_, fun _ => written_trace (x := x) (s := s)⟩
  have hpc : (x.written s e).line.pc = e.line.pc := by
    rw [Transfer.written]
    split
    · exact Env.setReg_pc ..
    · rfl
  rw [ht, Env.adv, hpc]
  rfl

end

/-! ## The transfers (R131, R132) -/

section
variable {x : Transfer} {s : State} {e : Env}

/-- The outcome of a transfer to `c`: the fault of its target, or `c` put back. -/
def transferOut (x : Transfer) (s : State) (e c : Env) : Out := .next ((transferFault x).elim (s.put c) (s.raise e))

/-- A relative transfer has a target that may not be canonical. -/
theorem transferOut_relative (hreg : x.byReg = false) (c : Env) : transferOut x s e c =
    .next (if canonical x.target then s.put c else s.raise e (fltCanon 0 0xF x.target)) := by
  rw [transferOut, transferFault, hreg, if_neg Bool.false_ne_true]
  split_ifs <;> rfl

/-- A transfer to a register's target checks it, and writes its link register if it has one. -/
theorem jumpTo_runs {g : Guard} (he : s.env? = some e) (hg : e.line.guard g = true) (link : Option Reg) (target : Env → Word)
    (hx : x = { guard := g, byReg := true, target := target e, write := link.map fun d => (d, e.line.pc + 4#64) }) :
    jumpTo g s link target = transferOut x s e ((x.written s e).jump s.gtime x.target) := by
  subst hx
  refine (guarded_runs _ he hg).trans (congrArg Host.Outcome.next ?_)
  rw [transferFault, if_pos rfl]
  cases hfault : targetFault (target e) with
  | some f => simp only [hfault, Option.elim_some]
  | none =>
    simp only [hfault, Option.elim_none]
    cases link <;> rfl

/-- With its guard true, a transfer raises the fault of its target, or arrives there. -/
theorem exec_of_transferOf {i : Instr} (h : transferOf i e = some x) (he : s.env? = some e) (hg : e.line.guard x.guard = true) :
    ∃ c, Arrived x s e c ∧ exec i s = transferOut x s e c := by
  cases i with
  | br | call =>
    cases h
    refine ⟨_, arrived_jump, ?_⟩
    rw [transferOut_relative rfl, ← branchOff_eq]
    exact guarded_runs _ he hg
  | dbnz g d =>
    cases h
    by_cases hone : e.reg d = 1#64
    · refine ⟨_, arrived_adv (if_pos hone), ?_⟩
      rw [transferOut_relative rfl, if_pos hone]
      exact (guarded_runs _ he hg).trans (congrArg Host.Outcome.next (if_pos (sub_eq_zero.mpr hone)))
    · refine ⟨_, arrived_jump, ?_⟩
      rw [transferOut_relative rfl, if_neg hone, ← branchOff_eq]
      exact (guarded_runs _ he hg).trans (congrArg Host.Outcome.next (if_neg (sub_ne_zero.mpr hone)))
  | jmp | ret => cases h; exact ⟨_, arrived_jump, jumpTo_runs he hg none _ rfl⟩
  | jal g d => cases h; exact ⟨_, arrived_jump, jumpTo_runs he hg (some d) _ rfl⟩
  | brx => cases h; exact ⟨_, arrived_jump, jumpTo_runs he hg none _ (by rw [shiftLeft_one_eq]; rfl)⟩
  | _ => cases h

end

/-- Settles O18: the three cases are the values of the fault of the target. -/
theorem controlTransfers : Obligations.ControlTransfers := by
  intro i x s e h ⟨he, hg⟩
  obtain ⟨c, ⟨tr, rfl, htr⟩, hexec⟩ := exec_of_transferOf h he hg
  rw [hexec, transferOut]
  refine ⟨fun ⟨hreg, hodd⟩ => ?_, fun ⟨hnot, hfar⟩ => ?_, fun ⟨hnot, hnear⟩ => ⟨tr, ?_, htr⟩⟩
  · rw [transferFault_of_odd hreg hodd]
    rfl
  · rw [transferFault_of_not_odd hnot, if_neg ((canonical_iff _).not.mpr hfar.not_gt)]
    rfl
  · rw [transferFault_of_not_odd hnot, if_pos ((canonical_iff _).mpr hnear)]
    rfl

end Sys2Proof
end

section
/-! Accesses as they leave their core, and the faults of their addresses (O25, O28, O31; R135 to R139, R155, R168, R252). -/

namespace Sys2Proof

open Machine

/-! ## The faults of an effective address (R135, R254) -/

section

variable {kind n : Nat} {a : Word}

/-- An address that is not canonical raises XLAT 0x01, whatever its alignment. -/
theorem eaFault_of_not_canonical (h : 2 ^ 54 ≤ a.toNat) :
    eaFault kind n a = some { cls := 0x04, sub := 0x01, kind := kind, size := Nat.log2 n, faddr := a } := by
  have hc : canonical a = false := Bool.eq_false_iff.mpr fun hc => h.not_gt ((canonical_iff a).mp hc)
  rw [eaFault, hc]
  rfl

/-- A canonical address that is no multiple of the access size raises ALIGN 0x02. -/
theorem eaFault_of_misaligned (h : a.toNat < 2 ^ 54) (halign : a.toNat % n ≠ 0) :
    eaFault kind n a = some { cls := 0x03, sub := 0x02, kind := kind, size := Nat.log2 n, faddr := a } := by
  rw [eaFault, (canonical_iff a).mpr h, if_neg (by decide), if_pos (bne_iff_ne.mpr halign)]
  rfl

/-- A canonical address passes the check of the forms that need no alignment. -/
theorem canonFault_of_canonical (size : Nat) (h : a.toNat < 2 ^ 54) : canonFault kind size a = none :=
  if_pos ((canonical_iff a).mpr h)

end

/-! ## Atomics by their operands (R150, R154) -/

/-- An atomic with a result register is an `amo`; one without is a `red`. -/
def atomicIssue (s : State) (op : AmoOp) (y : AmoType) (o : Order) (sc : Scope) (d : Option Reg) (a b : Reg) : Out :=
  match d with
  | some d => s.amoIssue op y o sc d a b
  | none => s.redIssue op y o sc a b

theorem exec_of_atomicOf {i : Instr} {op : AmoOp} {y : AmoType} {o : Order} {sc : Scope} {d : Option Reg} {a b : Reg}
    (h : atomicOf i = some (op, y, o, sc, d, a, b)) (s : State) : exec i s = atomicIssue s op y o sc d a b := by
  cases i with
  | amoAdd | amoAnd | amoOr | amoXor | amoMin | amoMax | amoMinu | amoMaxu | amoSwap | amoCas | amoFadd | amoFmin | amoFmax | amoCas128
  | redAdd | redAnd | redOr | redXor | redMin | redMax | redMinu | redMaxu | redFadd | redFmin | redFmax => cases h; rfl
  | _ => cases h

theorem atomicBytes_eq (y : AmoType) : atomicBytes y = amoBytes y := by cases y <;> rfl

theorem bytesOf_eq (z : MSize) : bytesOf z = sizeBytes z := by cases z <;> rfl

/-! ## Every checked form faults as its address does (R135) -/

section

variable {s : State} {e : Env} {f : Flt}

/-- An atomic raises the fault of its address. -/
theorem atomicIssue_faults {op : AmoOp} {y : AmoType} {o : Order} {sc : Scope} {d : Option Reg} {a b : Reg} (he : s.env? = some e)
    (hf : eaFault kAtomic (amoBytes y) (e.reg a) = some f) : atomicIssue s op y o sc d a b = .next (s.raise e f) := by
  cases d with
  | some d => exact (withEnv_some _ he).trans (congrArg Host.Outcome.next (State.checkedAccess_fault _ _ hf))
  | none => exact (withEnv_some _ he).trans (by simp only [hf])

/-- A form that R135 checks raises the fault of its address, and does nothing else. -/
theorem exec_of_checkedOf {i : Instr} {ea : Word} {n kind : Nat} (h : checkedOf i e = some (ea, n, kind)) (he : s.env? = some e)
    (hg : ∀ g, guardOf i = some g → e.line.guard g = true) (hf : eaFault kind n ea = some f) : exec i s = .next (s.raise e f) := by
  cases i with
  | ld g z | st g z =>
    cases h
    rw [bytesOf_eq] at hf
    exact (guarded_runs _ he (hg _ rfl)).trans (congrArg Host.Outcome.next (State.checkedAccess_fault _ _ hf))
  | ldOrd z | ldOrdSigned z | stOrd z =>
    cases h
    rw [bytesOf_eq] at hf
    exact (withEnv_some _ he).trans (congrArg Host.Outcome.next (State.checkedAccess_fault _ _ hf))
  | stc => cases h; exact (withEnv_some _ he).trans (congrArg Host.Outcome.next (State.checkedAccess_fault _ _ hf))
  | ldrW | rcancel | hdef | hmap => cases h; exact (withEnv_some _ he).trans (by simp only [kResv, kLoad, hf])
  | launch | gang | qpush | qpop | qstat | rcommit =>
    cases h; exact (guarded_runs _ he (hg _ rfl)).trans (by simp only [kLoad, kStore, kQueue, hf])
  | amoAdd | amoAnd | amoOr | amoXor | amoMin | amoMax | amoMinu | amoMaxu | amoSwap | amoCas | amoFadd | amoFmin | amoFmax | amoCas128
  | redAdd | redAnd | redOr | redXor | redMin | redMax | redMinu | redMaxu | redFadd | redFmin | redFmax =>
    cases h
    rw [exec_of_atomicOf rfl]
    exact atomicIssue_faults he (by rwa [← atomicBytes_eq])
  | _ => cases h

end

/-- Settles O28: the checked forms raise the fault of their address, which is one of two. -/
theorem addressFaults : Obligations.AddressFaults := fun _ _ _ _ _ _ he hg h =>
  ⟨fun hfar => exec_of_checkedOf h he hg (eaFault_of_not_canonical hfar),
    fun hnear halign => exec_of_checkedOf h he hg (eaFault_of_misaligned hnear halign)⟩

end Sys2Proof
end

section
/-! O25: requests that pass their checks leave for the translation slice (R135 to R139, R143, R145, R148, R155, R165, R181, R258). -/

namespace Sys2Proof

open Machine

/-! ## What a request leaves behind (R136, R138, R139) -/

/-- A byte reads as before where the line over it and the memory below are as before (R70). -/
theorem rdByte_congr {s t : State} {a : Nat} (hline : t.line? (a / 128) = s.line? (a / 128)) (hmem : t.mem = s.mem) :
    t.rdByte a = s.rdByte a := by
  rw [State.rdByte, State.rdByte, hline, hmem]

/-- A request is one message; a counted one adds to PWC, and no other line changes (R136, R138). -/
theorem sendReq_eq {s : State} {w : Who} {l : Line} (va : Nat) (k : ReqKind) (hl : s.line? w.key = some l) :
    ∃ tok ops next lines touched, s.sendReq w va k =
        ({ s with ops := ops, nextId := next, lines := lines } : State).send (.core w.site)
          (.slice ((s.part w.part).tslice w.asid va)) regVn (.req w va k tok false) ∧
      tget lines w.key = some { l with pwc := l.pwc + b2n k.counts, touched := touched } ∧
      ∀ key, key ≠ w.key → tget lines key = tget s.lines key := by
  cases hc : k.counts with
  | true => exact ⟨_, _, _, _, true, sendReq_counted hc hl, State.line?_setLine_eq .., fun _ h => tget_tset_ne _ _ h⟩
  | false =>
    simp only [State.sendReq, hc, Bool.false_and, Bool.false_eq_true, if_false]
    cases k.drained with
    | true => exact ⟨_, _, _, s.lines, l.touched, rfl, hl, fun _ _ => rfl⟩
    | false => exact ⟨_, s.ops, s.nextId, s.lines, l.touched, rfl, hl, fun _ _ => rfl⟩

/-- The issuing context with another trace buffer in its core. -/
def retraced (e : Env) (tr : Trace) : Env := { e with core := { e.core with trace := tr } }

/-- One request is on its way to the slice of the address, and its context waits; nothing else of the package has changed (R136,
R138, R139). -/
def RequestLeft (s t : State) (e : Env) (ea : Word) (kind : Nat) (k : ReqKind) : Prop :=
  ∃ (l : Line) (m : Msg) (tok : Nat), t.net = s.net ++ [m] ∧ m.src = .core e.site ∧
    m.dst = .slice ((s.part e.line.part).tslice e.line.asid ea.toNat) ∧ m.body = .req (s.who e) ea.toNat k tok false ∧
    t.line? e.key = some l ∧ l.pc = e.line.pc + 4#64 ∧ l.wt = (if kind = 3 then 0x30000000#32 else 0x10000001#32) ∧
    l.pwc = e.line.pwc + b2n k.counts ∧ l.v = e.line.v ∧ l.pw = e.line.pw ∧ (∀ r, t.regOf e r = s.regOf e r) ∧
    (∀ key, key ≠ e.key → t.line? key = s.line? key) ∧ t.parts = s.parts ∧ t.clusters = s.clusters ∧
    (∀ a, a / 128 ≠ e.key → t.rdByte a = s.rdByte a)

variable {s : State} {e : Env}

theorem requestLeft_leave {kind : Nat} (he : s.env? = some e) (hlen : s.flen = 4) (tr : Trace) (ea : Word) (k : ReqKind)
    (hkind : kind = 1 ∨ kind = 3) :
    RequestLeft s ((s.leave ((retraced e tr).at ea.toNat k) kind).sendReq (s.who e) ea.toNat k) e ea kind k := by
  obtain ⟨hsite, -, hcore, -, hline, -⟩ := State.env?_some he
  have hleave := State.line?_put_eq s ((((retraced e tr).at ea.toNat k).note s |>.adv s.flen).wait s.gtime kind
    (if kind = 1 ∨ kind = 9 then 1 else 0))
  obtain ⟨tok, ops, next, lines, touched, hsend, hown, hother⟩ := sendReq_eq (w := s.who e) ea.toNat k hleave
  have hother (key : Nat) (h : key ≠ e.key) : tget lines key = s.line? key := (hother key h).trans (tget_tset_ne _ _ h)
  rw [State.leave, hsend]
  refine ⟨_, _, tok, rfl, rfl, rfl, rfl, hown, ?_, ?_, rfl, rfl, rfl, fun r => ?_, hother, rfl, rfl, fun a ha => rdByte_congr (hother _ ha) rfl⟩
  · rw [hlen]
    rfl
  · rcases hkind with rfl | rfl <;> rfl
  · have hks : ((s.put ((((retraced e tr).at ea.toNat k).note s |>.adv s.flen).wait s.gtime kind
        (if kind = 1 ∨ kind = 9 then 1 else 0))).core e.site).ks = (s.core e.site).ks :=
      (congrArg Core.ks (State.core_put_eq s _)).trans (by rw [hsite, ← hcore]; rfl)
    have hv : (tget lines e.key).map Line.v = (s.line? e.key).map Line.v := by rw [show tget lines e.key = _ from hown, hline]; rfl
    exact congrArg₂ (fun (v : Option (List Word)) (ks : List KSlot) =>
      if r.val < 8 then (v.getD []).getD r.val 0#64 else (ks.getD e.ks KSlot.reset).s.getD (r.val - 8) 0#64) hv hks

/-! ## The forms (R143, R145, R148, R155, R165 to R167, R176, R181, R258, R298, R325 to R327) -/

theorem destOf_eq (z : MSize) (x : Bool) (d : Reg) : destOf z x d = loadDst z x d := by cases z <;> rfl

theorem bytesFrom_eq (e : Env) (z : MSize) (r : Reg) : bytesFrom e z r = storeData e z r := by cases z <;> rfl

theorem orderConds_of_early {o : Order} (sc : Scope) (h : o = .rlx ∨ o = .acq) : orderConds o sc = [] := by
  rcases h with rfl | rfl <;> rfl

/-- A context that holds nothing meets no held store of its own (R141). -/
theorem meetsHeld_of_not_held (va : Nat) (k : ReqKind) (h : e.line.held = false) : e.meetsHeld k va = false := by
  unfold Env.meetsHeld
  split
  · rw [h, Bool.false_and]
  · rw [h, Bool.false_and]
  · rfl

/-- The state in which a request has left its core and its context waits for the answer. -/
def departed (s : State) (e : Env) (tr : Trace) (ea : Word) (kind : Nat) (k : ReqKind) : State :=
  (s.leave ((retraced e tr).at ea.toNat k) kind).sendReq (s.who e) ea.toNat k

/-- A request that is no atomic, so that no core executes it itself (R153). -/
def notAtomic (k : ReqKind) : Prop := ∀ op y src cmp dst ord sc own, k ≠ .amo op y src cmp dst ord sc own

section

variable {ea : Word} {k : ReqKind}

/-- What the trace of the core records of an access (R378). -/
def accessTrace (s : State) (e : Env) (ea : Word) : Trace := (e.trace s.gtime 3 ea.toNat).core.trace

/-- The access of a plain context to a checked address departs. -/
theorem issueAccess_departs (he : s.env? = some e) (hplain : e.Plain) (hk : notAtomic k) :
    s.issueAccess (e.trace s.gtime 3 ea.toNat) ea.toNat k [] = departed s e (accessTrace s e ea) ea 1 k := by
  obtain ⟨-, -, -, -, hline, -⟩ := State.env?_some he
  refine issueAccess_of_plain (e := e.trace s.gtime 3 ea.toNat) hplain ?_ hk
  rw [State.isHeld, Env.trace_key, hline]
  exact hplain.1

/-- So does one whose address is checked with it. -/
theorem checkedAccess_departs {kd n : Nat} (he : s.env? = some e) (hplain : e.Plain) (hgood : goodAddr ea n) (hk : notAtomic k) :
    ∃ tr, s.checkedAccess e kd n ea k [] = departed s e tr ea 1 k :=
  ⟨_, checkedAccess_of_plain he hplain hgood hk⟩

variable {i : Instr} {kind : Nat}

/-- An instruction's request leaves its core, whatever the trace has recorded of it. -/
def Departs (i : Instr) (s : State) (e : Env) (ea : Word) (kind : Nat) (k : ReqKind) : Prop :=
  (kind = 1 ∨ kind = 3) ∧ ∃ tr, exec i s = .next (departed s e tr ea kind k)

/-- An instruction without a guard departs as its effect does. -/
theorem Departs.ofEnv {f : Env → State} (he : s.env? = some e) (hi : exec i s = withEnv s f) (hf : ∃ tr, f e = departed s e tr ea 1 k) :
    Departs i s e ea 1 k :=
  ⟨.inl rfl, hf.imp fun _ h => hi.trans ((withEnv_some f he).trans (congrArg Host.Outcome.next h))⟩

/-- So does one whose guard holds. -/
theorem Departs.ofGuarded {g : Guard} {f : Env → State} (he : s.env? = some e) (hg : e.line.guard g = true)
    (hi : exec i s = guarded g s f) (hf : ∃ tr, f e = departed s e tr ea 1 k) : Departs i s e ea 1 k :=
  ⟨.inl rfl, hf.imp fun _ h => hi.trans ((guarded_runs f he hg).trans (congrArg Host.Outcome.next h))⟩

/-- The request of a form whose checks pass leaves its core at once. -/
theorem departs_of_requestOf {P : Prop} (he : s.env? = some e) (hg : ∀ g, guardOf i = some g → e.line.guard g = true)
    (hplain : e.Plain) (h : requestOf i s e = some (P, ea, kind, k)) (hP : P) : Departs i s e ea kind k := by
  cases i with
  | ld g z x d a imm =>
    cases h
    rw [bytesOf_eq] at hP
    rw [bytesOf_eq, destOf_eq]
    exact .ofGuarded he (hg _ rfl) rfl (checkedAccess_departs he hplain hP fun _ _ _ _ _ _ _ _ => nofun)
  | st g z d a imm =>
    cases h
    rw [bytesOf_eq] at hP
    rw [bytesOf_eq, bytesFrom_eq]
    exact .ofGuarded he (hg _ rfl) rfl (checkedAccess_departs he hplain hP fun _ _ _ _ _ _ _ _ => nofun)
  | ldOrd z o sc d a | ldOrdSigned z o sc d a =>
    cases h
    obtain ⟨hgood, hsc⟩ := hP
    rw [bytesOf_eq] at hgood
    rw [bytesOf_eq, destOf_eq]
    refine .ofEnv he rfl ?_
    rw [if_neg hsc]
    exact checkedAccess_departs he hplain hgood fun _ _ _ _ _ _ _ _ => nofun
  | stOrd z o sc a b =>
    cases h
    obtain ⟨hgood, hearly⟩ := hP
    rw [bytesOf_eq] at hgood
    rw [bytesFrom_eq]
    refine .ofEnv he rfl ?_
    rw [orderConds_of_early sc hearly]
    exact checkedAccess_departs he hplain hgood fun _ _ _ _ _ _ _ _ => nofun
  | ldt | stt =>
    cases h
    obtain ⟨hgood, hrsv, hswap⟩ := hP
    refine .ofEnv he rfl ?_
    rw [typedAccess_goes hrsv hswap]
    exact checkedAccess_departs he hplain hgood fun _ _ _ _ _ _ _ _ => nofun
  | ldrW d a =>
    cases h
    refine ⟨.inr rfl, accessTrace s e (e.reg a), (withEnv_some _ he).trans (congrArg Host.Outcome.next ?_)⟩
    simp only [eaFault_of_goodAddr kResv hP]
    exact if_neg (Bool.eq_false_iff.mp (meetsHeld_of_not_held (e := e.trace s.gtime 3 (e.reg a).toNat) _ _ hplain.1))
  | cln | cinv | iinv =>
    cases h
    exact .ofEnv he rfl ⟨_, by simp only [canonFault_of_canonical _ hP.1]; rfl⟩
  | migr g a => cases h; exact .ofGuarded he (hg _ rfl) rfl ⟨e.core.trace, by simp only [canonFault_of_canonical _ hP.1]; rfl⟩
  | apnd | ldtail =>
    cases h
    exact .ofGuarded he (hg _ rfl) rfl ⟨_, by simp only [canonFault_of_canonical _ hP.1]; rfl⟩
  | qpop | qstat =>
    cases h
    exact .ofGuarded he (hg _ rfl) rfl ⟨_, by simp only [eaFault_of_goodAddr _ hP]; rfl⟩
  | hdef h' a =>
    cases h
    obtain ⟨hgood, hstate⟩ := hP
    refine .ofEnv he rfl ⟨accessTrace s e (e.reg a), ?_⟩
    simp only [eaFault_of_goodAddr _ hgood]
    rw [if_neg ?_]
    · exact issueAccess_departs he hplain fun _ _ _ _ _ _ _ _ => nofun
    · cases hx : e.kslot.handle h'.val with
      | none => exact Bool.false_ne_true
      | some x => rcases hstate x hx with hst | hst <;> simp [hst]
  | hmap h' a =>
    cases h
    obtain ⟨hgood, hnone⟩ := hP
    refine .ofEnv he rfl ⟨accessTrace s e (e.reg a), ?_⟩
    simp only [eaFault_of_goodAddr _ hgood]
    rw [if_neg (by rw [hnone]; exact Bool.false_ne_true)]
    exact issueAccess_departs he hplain fun _ _ _ _ _ _ _ _ => nofun
  | wenq sc h' a b =>
    obtain ⟨x, hx, hreq⟩ := Option.map_eq_some_iff.mp h
    cases hreq
    obtain ⟨⟨hcanon, halign⟩, hst, hsize⟩ := hP
    refine .ofEnv he rfl ⟨accessTrace s e (e.reg a), ?_⟩
    simp only [hx, if_neg hst, (canonical_iff _).mpr hcanon, halign, if_true]
    rw [if_neg (by omega)]
    exact issueAccess_departs he hplain fun _ _ _ _ _ _ _ _ => nofun
  | sync g =>
    cases h
    obtain ⟨hlink, hgood⟩ := hP
    refine .ofGuarded he (hg _ rfl) rfl ?_
    rw [if_neg hlink]
    exact checkedAccess_departs he hplain hgood fun _ _ _ _ _ _ _ _ => nofun
  | _ => cases h

end

/-- Settles O25. -/
theorem requestsLeave : Obligations.RequestsLeave := by
  intro i s e P ea kind k he hg hlen hplain h hP
  obtain ⟨hkind, tr, hexec⟩ := departs_of_requestOf he hg hplain h hP
  obtain ⟨l, m, tok, hleft⟩ := requestLeft_leave he hlen tr ea k hkind
  exact ⟨_, l, m, tok, hexec, hleft⟩

end Sys2Proof
end

section
/-! O31: requests that nobody waits for, and instructions that need not wait (R155, R168, R176, R252, R303, R404). -/

namespace Sys2Proof

open Machine

variable {s : State} {e : Env}

section

variable (src : Node) (dst : Nat → Node) (vn : Nat) (b : Body) (cs : List Nat)

/-- A list of messages leaves every line alone. -/
theorem line?_foldl_send (s : State) (key : Nat) : (cs.foldl (fun s c => s.send src (dst c) vn b) s).line? key = s.line? key := by
  induction cs generalizing s with
  | nil => rfl
  | cons c cs ih => exact ih (s.send src (dst c) vn b)

/-- Each of them is one more on its way. -/
theorem length_net_foldl_send (s : State) :
    (cs.foldl (fun s c => s.send src (dst c) vn b) s).net.length = s.net.length + cs.length := by
  induction cs generalizing s with
  | nil => rfl
  | cons c cs ih =>
    rw [List.foldl_cons, ih, State.send_net, List.length_append, List.length_cons, List.length_nil, List.length_cons]
    omega

end

/-- `rcancel` of a good address (R155). -/
theorem exec_rcancel {a : Reg} (he : s.env? = some e) (hgood : goodAddr (e.reg a) 8) : exec (.rcancel a) s =
    .next ((s.put ((e.trace s.gtime 3 (e.reg a).toNat).adv 4)).send (.core e.site)
      (.slice ((s.part e.line.part).tslice e.line.asid (e.reg a).toNat)) regVn (.req (s.who e) (e.reg a).toNat .rcancel 0 false)) :=
  (withEnv_some _ he).trans (by simp only [eaFault_of_goodAddr _ hgood]; rfl)

/-- `pref` of a canonical address (R168). -/
theorem exec_pref {a : Reg} (he : s.env? = some e) (hcanon : (e.reg a).toNat < 2 ^ 54) : exec (.pref a) s =
    .next ((s.put ((e.trace s.gtime 3 (e.reg a).toNat).adv 4)).send (.core e.site)
      (.slice ((s.part e.line.part).tslice e.line.asid (e.reg a).toNat)) regVn (.req (s.who e) (e.reg a).toNat .pref 0 false)) :=
  (withEnv_some _ he).trans (congrArg Host.Outcome.next (if_pos ((canonical_iff _).mpr hcanon)))

/-- `rmark` asks nobody: its stream's NEXT is its answer (R404). -/
theorem exec_rmark {g : Guard} (st : Fin 8) (d : Reg) (he : s.env? = some e) (hg : e.line.guard g = true) : exec (.rmark g st d) s =
    .next ((s.leave e 1).send .regulator (.line e.key) vnReply (.reply (s.who e)
      { regs := [(d, W ((s.part e.line.part).stream st.val).next)], flags := Flags.none, p15 := none } false false 0)) :=
  guarded_runs _ he hg

/-- `xinv` asks every slice and core of its partition, and its context waits for as many answers (R252). -/
theorem exec_xinv {g : Guard} {a b : Reg} (he : s.env? = some e) (hg : e.line.guard g = true) (hpriv : 2 ≤ e.line.priv)
    (hgood : xinvFault (Config.freeWord s.free) (e.reg a) (e.reg b) = none) : ∃ (t : State) (l : Line), exec (.xinv g a b) s = .next t ∧
      t.line? e.key = some l ∧ l.pc = e.line.pc + W s.flen ∧
      l.wt = mkWt 1 ((s.part e.line.part).clusters.length + (s.xinvCores e.line.part).length) ∧
      t.net.length = s.net.length + (s.part e.line.part).clusters.length + (s.xinvCores e.line.part).length := by
  have hexec : exec (.xinv g a b) s = .next _ := (withEnv_some _ he).trans (by rw [if_neg hpriv.not_gt, if_pos hg])
  simp only [hgood] at hexec
  obtain ⟨l, hl, hpc, -⟩ := line?_leave s e 1
  rw [State.modLine_some _ _ hl] at hexec
  refine ⟨_, { l with wt := mkWt 1 ((s.part e.line.part).clusters.length + (s.xinvCores e.line.part).length), touched := true }, hexec,
    ?line, hpc, rfl, ?net⟩
  case line =>
    rw [line?_foldl_send, line?_foldl_send]
    exact State.line?_setLine_eq ..
  case net =>
    rw [length_net_foldl_send, length_net_foldl_send]
    rfl

/-- Settles O31. -/
theorem noWaitRequests : Obligations.NoWaitRequests := by
  intro s e he hlen
  refine ⟨fun a hgood => ?rcancel, fun a hcanon => ?pref, fun a hfar => ?prefFar, fun g hg hlink => ?sync, fun h x hx => ⟨fun hst => ?hseal,
    fun hst => ?hopen⟩, fun g st d hg => ?rmark, fun g a b hg hpriv hgood => ?xinv⟩
  case rcancel => exact ⟨_, _, _, exec_rcancel he hgood, rfl, rfl, State.line?_put_eq s ((e.trace _ _ _).adv 4), rfl, rfl⟩
  case pref => exact ⟨_, _, _, exec_pref he hcanon, rfl, rfl, State.line?_put_eq s ((e.trace _ _ _).adv 4), rfl, rfl⟩
  case prefFar =>
    exact (withEnv_some _ he).trans (congrArg Host.Outcome.next (if_neg fun hc => hfar.not_gt ((canonical_iff _).mp hc)))
  case sync => exact (guarded_runs _ he hg).trans (congrArg Host.Outcome.next (if_pos hlink))
  case hseal => exact (withEnv_some _ he).trans (by simp only [hx, hst])
  case hopen => exact (withEnv_some _ he).trans (by simp only [hx, hst])
  case rmark =>
    obtain ⟨l, hl, hpc, hwt, -⟩ := line?_leave s e 1
    exact ⟨_, l, _, exec_rmark st d he hg, hl, by rw [hpc, hlen]; rfl, hwt, rfl, rfl, rfl⟩
  case xinv =>
    obtain ⟨t, l, hexec, hl, hpc, hwt, hnet⟩ := exec_xinv he hg hpriv hgood
    exact ⟨t, l, hexec, hl, by rw [hpc, hlen]; rfl, hwt, hnet⟩

end Sys2Proof
end

section
/-! O29: taking a fault (R140, R365, R369 to R371). -/

namespace Sys2Proof

open Machine

/-! ## The fields of CAUSE (R365) -/

/-- LEN of CAUSE for an instruction of `len` bytes. -/
def lenCode (len : Nat) : Nat := if len = 2 then 1 else if len = 4 then 2 else 0

theorem lenCode_le (len : Nat) : lenCode len ≤ 2 := by
  unfold lenCode
  split_ifs <;> omega

theorem b2n_le (b : Bool) : b2n b ≤ 1 := by cases b <;> decide

/-- A bit of a word, as a digit of its number. -/
theorem getLsbD_eq_decide (w : Word) (k : Nat) : w.getLsbD k = decide (w.toNat / 2 ^ k % 2 = 1) := by
  rw [BitVec.getLsbD, Nat.testBit_eq_decide_div_mod_eq]

theorem decide_b2n (b : Bool) : decide (b2n b = 1) = b := by cases b <;> rfl

section

variable {s : State} {e : Env} {f : Flt} {enc : BitVec 32} {len : Nat} {async esc : Bool}

/-- The fields of CAUSE do not meet. -/
theorem toNat_mkCause (hcls : f.cls < 2 ^ 8) (hsub : f.sub < 2 ^ 8) (hsize : f.size < 2 ^ 4) (hkind : f.kind < 2 ^ 4) :
    (mkCause enc len async esc f).toNat = enc.toNat * 2 ^ 32 + b2n async * 2 ^ 31 + b2n esc * 2 ^ 30 + lenCode len * 2 ^ 27 +
      f.kind * 2 ^ 20 + f.size * 2 ^ 16 + f.sub * 2 ^ 8 + f.cls := by
  have henc := enc.isLt
  have hasync := b2n_le async
  have hesc := b2n_le esc
  have hlen := lenCode_le len
  rw [mkCause, W, BitVec.toNat_ofNat, ← lenCode, Nat.mod_eq_of_lt]
  omega

end

theorem mkCause_fields (enc : BitVec 32) (len : Nat) (async esc : Bool) (f : Flt) (hcls : f.cls < 2 ^ 8) (hsub : f.sub < 2 ^ 8)
    (hsize : f.size < 2 ^ 4) (hkind : f.kind < 2 ^ 4) : ∃ w, w = mkCause enc len async esc f ∧ wfld w 0 8 = f.cls ∧ wfld w 8 8 = f.sub ∧
      wfld w 16 4 = f.size ∧ wfld w 20 4 = f.kind ∧ wfld w 24 3 = 0 ∧ wfld w 27 2 = lenCode len ∧ w.getLsbD 29 = false ∧
      w.getLsbD 30 = esc ∧ w.getLsbD 31 = async ∧ wfld w 32 32 = enc.toNat := by
  have henc := enc.isLt
  have hasync := b2n_le async
  have hesc := b2n_le esc
  have hlen := lenCode_le len
  refine ⟨_, rfl, ?_⟩
  simp only [wfld, getLsbD_eq_decide, toNat_mkCause hcls hsub hsize hkind]
  refine ⟨?_, ?_, ?_, ?_, ?_, ?_, decide_eq_false ?_, ?esc, ?async, ?_⟩
  case esc => exact Eq.trans (by congr 2; omega) (decide_b2n esc)
  case async => exact Eq.trans (by congr 2; omega) (decide_b2n async)
  all_goals omega

/-! ## A context parks for its fault (R369, R370) -/

section

variable {s : State} {key : Nat} {l : Line}

/-- The completion tree notes a fault class in its partition alone. -/
theorem noteClass_frame (s : State) (l : Line) (cls : Nat) : ∃ parts, s.noteClass l cls = { s with parts := parts } := by
  unfold State.noteClass
  split
  · exact ⟨s.parts, rfl⟩
  · exact ⟨_, rfl⟩

/-- An abandoned EMULATE sequence is forgotten by its core alone. -/
theorem abandon_frame (s : State) (key : Nat) : ∃ cores, s.abandon key = { s with cores := cores } := by
  unfold State.abandon
  split
  · exact ⟨_, rfl⟩
  · exact ⟨s.cores, rfl⟩

/-- A context that is no longer live is counted in its partition alone. -/
theorem countOut_frame (s : State) (l : Line) (lost : Bool) : ∃ parts, s.countOut l lost = { s with parts := parts } := by
  unfold State.countOut
  split
  · exact ⟨s.parts, rfl⟩
  · exact ⟨_, rfl⟩

/-- A line parked for a fault. -/
def parked (l : Line) (tnd : Nat) (cause faddr pc : Word) (now : Nat) : Line :=
  { l.setTsw 14 2 tnd with
    cause := cause, faddr := faddr, wt := mkWt 6 0, pc := pc, pend := none, popWait := none, waitFrom := now, touched := true }

/-- A running context whose fault has a route parks for it, and its message leaves (R369, R370). -/
theorem faultLine_parks {site len desc tnd : Nat} {async esc running : Bool} {enc : BitVec 32} {pc : Word} {f : Flt}
    {rec_ : Option (List Byte)} (hl : s.line? key = some l) (hready : l.isReady = true) (hroute : faultRoute l f.cls = some (desc, tnd, esc)) :
    ∃ parts cores, s.faultLine key site true running async enc len (some pc) f rec_ =
      ({ s with parts := parts, cores := cores, lines := tset s.lines key (parked l tnd (mkCause enc len async esc f) f.faddr pc s.gtime) } :
        State).pushFault site (some l) (some key) l.part desc (mkCause enc len async esc f) f.faddr rec_ := by
  obtain ⟨parts, hparts⟩ := noteClass_frame s l f.cls
  obtain ⟨cores, hcores⟩ := abandon_frame ({ s with parts := parts } : State) key
  obtain ⟨hlive, hkind⟩ : l.life = .live ∧ l.wtKind = 0 := by
    rw [Line.isReady, Bool.and_eq_true] at hready
    exact ⟨eq_of_beq hready.1, eq_of_beq hready.2⟩
  refine ⟨parts, cores, ?_⟩
  simp only [State.faultLine, hl, hlive, bne_self_eq_false, Bool.false_eq_true, if_false, hroute, hparts, hcores, hkind, ne_eq,
    not_true_eq_false, false_and, OfNat.zero_ne_ofNat]
  rfl

/-- A live line that is lost (R62, R158, R394). -/
theorem loseLine_of_live (hl : s.line? key = some l) (hlive : l.life = .live) : ∃ parts cores resv, s.loseLine key =
    ({ s with parts := parts, cores := cores, resv := resv } : State).setLine key
      { l with life := .lost, bound := none, place := .mem, pend := none, popWait := none } := by
  obtain ⟨parts, hparts⟩ := countOut_frame s l true
  simp only [State.loseLine, hl, hlive, beq_self_eq_true, if_true, hparts]
  split
  · exact ⟨parts, _, _, rfl⟩
  · exact ⟨parts, s.cores, _, rfl⟩
  · exact ⟨parts, s.cores, _, rfl⟩
  · exact ⟨parts, s.cores, _, rfl⟩

/-- A line written and then changed in place, across a change of a core. -/
theorem modLine_modCore_setLine (s : State) (key site : Nat) (l : Line) (g : Core → Core) (f : Line → Line) :
    ((s.setLine key l).modCore site g).modLine key f = ((s.setLine key l).modCore site g).setLine key (f { l with touched := true }) :=
  State.modLine_some _ _ (State.line?_setLine_eq ..)

/-- A line lost in a double fault, in the slot where its core met it (R371, R393). -/
def lostIn (l : Line) (site : Nat) : Line :=
  { l with life := .lost, bound := none, place := .l1 site, pend := none, popWait := none, touched := true }

/-- The message of a double fault (R371). -/
def doublePush (s : State) (l : Line) (site : Nat) (enc : BitVec 32) (len : Nat) (f : Flt) : State :=
  s.pushFault site (some l) none l.part 0 (mkCause enc len false true { f with cls := 0x11, sub := 3 }) f.faddr none

/-- The double fault of a running line: its message leaves, the line is LOST and its core stops for containment (R371). -/
theorem doubleFault_of_live {site len : Nat} {enc : BitVec 32} {f : Flt} (hl : s.line? key = some l) (hlive : l.life = .live) :
    ∃ (reg : Regulator) (parts : Table Part) (cores : Table Core) (resv : Table ResvQ) (c : Core) (x : Line),
      s.doubleFault key l site true enc len f =
        { doublePush { s with reg := reg } l site enc len f with
          parts := parts, cores := tset cores site { c with life := .containing }, resv := resv,
          lines := tset (tset s.lines key x) key (lostIn l site) } := by
  obtain ⟨reg, hreg⟩ := logEvent_frame s (.core site) 0x11 3 l.cid
  obtain ⟨parts, cores, resv, hlose⟩ := loseLine_of_live (s := doublePush { s with reg := reg } l site enc len f) hl hlive
  refine ⟨reg, parts, cores, resv, ({ s with cores := cores } : State).core site,
    { l with life := .lost, bound := none, place := .mem, pend := none, popWait := none, touched := true }, ?_⟩
  simp only [State.doubleFault, hreg, if_true]
  rw [← doublePush, hlose, modLine_modCore_setLine]
  rfl

/-- A running context whose fault has no route takes the double fault (R370, R371). -/
theorem faultLine_doubles {site len : Nat} {async : Bool} {enc : BitVec 32} {pc : Option Word} {f : Flt} {rec_ : Option (List Byte)}
    (hl : s.line? key = some l) (hlive : l.life = .live) (hroute : faultRoute l f.cls = none) :
    s.faultLine key site true true async enc len pc f rec_ = (s.noteClass l f.cls).doubleFault key l site true enc len f := by
  simp only [State.faultLine, hl, hlive, bne_self_eq_false, Bool.false_eq_true, if_false, hroute]

end

/-! ## A fault of the issuing context (R140, R369 to R371) -/

/-- TND of a parked line. -/
theorem tnd_parked (l : Line) (svc : Bool) (cause faddr pc : Word) (now : Nat) :
    (parked l (if svc then 1 else 0) cause faddr pc now).tnd = if svc then 1 else 0 := by
  refine Nat.eq_of_testBit_eq fun j => ?_
  rw [Line.tnd, testBit_wfld, parked, Line.setTsw]
  by_cases h : j < 2
  · rw [getLsbD_wput _ _ _ _ (by omega), if_pos (by omega), decide_eq_true h, Bool.true_and, Nat.add_sub_cancel_left]
  · rw [decide_eq_false h, Bool.false_and]
    have hj : 2 ^ 2 ≤ 2 ^ j := Nat.pow_le_pow_right (by decide) (by omega)
    exact (Nat.testBit_lt_two_pow (by split_ifs <;> omega)).symm

section

variable {s : State} {e : Env} {f : Flt}

/-- The state in which a fault is recorded: the core has traced it. -/
def faultTraced (s : State) (e : Env) (f : Flt) : State :=
  s.setCore e.site { e.core with trace := e.core.trace.fault s.gtime e.slot e.ks f }

/-- The fault of the issuing context with a route (R369, R370). -/
theorem raise_parks (he : s.env? = some e) (hroute : e.line.svc = false ∨ e.line.priv ≠ 2) : ∃ parts cores, s.raise e f =
    ({ s with parts := parts, cores := cores, lines := tset s.lines e.key (parked e.line (if e.line.svc then 1 else 0)
        (mkCause s.fetched s.flen false e.line.svc f) f.faddr e.line.pc s.gtime) } : State).pushFault e.site (some e.line) (some e.key)
      e.line.part (if e.line.svc then 0 else f.cls) (mkCause s.fetched s.flen false e.line.svc f) f.faddr none := by
  obtain ⟨-, -, -, -, hline, hready, -⟩ := State.env?_some he
  have hr : faultRoute e.line f.cls = some (if e.line.svc then 0 else f.cls, if e.line.svc then 1 else 0, e.line.svc) := by
    unfold faultRoute
    cases hsvc : e.line.svc with
    | false => rfl
    | true => rw [if_neg (hroute.resolve_left (by simp [hsvc]))]; rfl
  exact faultLine_parks (s := faultTraced s e f) hline hready hr

/-- The double fault of the issuing context (R371). -/
theorem raise_doubles (he : s.env? = some e) (hsvc : e.line.svc = true) (hpriv : e.line.priv = 2) :
    ∃ (t : State) (parts : Table Part) (cores : Table Core) (resv : Table ResvQ) (c : Core) (x : Line), t.net = s.net ∧
      s.raise e f = { doublePush t e.line e.site s.fetched s.flen f with
        parts := parts, cores := tset cores e.site { c with life := .containing }, resv := resv,
        lines := tset (tset s.lines e.key x) e.key (lostIn e.line e.site) } := by
  obtain ⟨-, -, -, -, hline, hready, -⟩ := State.env?_some he
  have hlive := Line.live_of_isReady hready
  have hr : faultRoute e.line f.cls = none := by simp [faultRoute, hsvc, hpriv]
  obtain ⟨parts, hparts⟩ := noteClass_frame (faultTraced s e f) e.line f.cls
  obtain ⟨reg, parts', cores, resv, c, x, h⟩ := doubleFault_of_live (s := { faultTraced s e f with parts := parts }) (site := e.site)
    (len := s.flen) (enc := s.fetched) (f := f) hline hlive
  have hraise : s.raise e f = _ := faultLine_doubles (s := faultTraced s e f) hline hlive hr
  rw [hraise, hparts]
  exact ⟨{ faultTraced s e f with parts := parts, reg := reg }, parts', cores, resv, c, x, rfl, h⟩

/-- Only the issuing context's line changes. -/
theorem line?_raise_ne (he : s.env? = some e) {key : Nat} (hkey : key ≠ e.key) : (s.raise e f).line? key = s.line? key := by
  by_cases hroute : e.line.svc = false ∨ e.line.priv ≠ 2
  · obtain ⟨parts, cores, h⟩ := raise_parks (f := f) he hroute
    rw [h]
    exact tget_tset_ne _ _ hkey
  · obtain ⟨hsvc, hpriv⟩ : e.line.svc = true ∧ e.line.priv = 2 := by simpa using hroute
    obtain ⟨t, parts, cores, resv, c, x, hnet, h⟩ := raise_doubles (f := f) he hsvc hpriv
    rw [h]
    exact (tget_tset_ne _ _ hkey).trans (tget_tset_ne _ _ hkey)

end

/-- Settles O29: a routed fault parks its line, and a fault of a supervisor that serves one is the double fault. -/
theorem takingAFault : Obligations.TakingAFault := by
  refine ⟨fun enc len async esc f hcls hsub hsize hkind => mkCause_fields enc len async esc f hcls hsub hsize hkind,
    fun s e f he => ⟨fun a ha => ?_, fun key => line?_raise_ne he, fun hroute => ?_, fun hsvc hpriv => ?_⟩⟩
  · exact rdByte_congr (line?_raise_ne he ha) (State.raise_mem ..)
  · obtain ⟨-, -, -, -, hline, hready, -⟩ := State.env?_some he
    obtain ⟨parts, cores, h⟩ := raise_parks (f := f) he hroute
    rw [h]
    exact ⟨_, _, _, tget_tset_eq .., rfl, rfl, rfl, rfl, rfl, rfl, tnd_parked .., Line.live_of_isReady (l := e.line) hready, rfl, rfl, rfl, rfl, rfl, rfl, rfl⟩
  · obtain ⟨t, parts, cores, resv, c, x, hnet, h⟩ := raise_doubles (f := f) he hsvc hpriv
    rw [h]
    exact ⟨_, _, _, tget_tset_eq .., rfl, congrArg Core.life (tgetD_tset_eq ..), congrArg (· ++ [_]) hnet, rfl, rfl, rfl⟩

end Sys2Proof
end

section
/-! O26: a reduction of a 16-byte type takes a pair of registers by the statement, and one register in the model (R150, R154). -/

namespace Sys2Proof

open Machine

/-- A live line that waits for nothing, with 1 in v1. -/
def pairLine : Line := { Line.blank with v := [0#64, 1#64, 0#64, 0#64, 0#64, 0#64, 0#64, 0#64] }

/-- Core 0 is about to issue from `pairLine`, bound to its slot 0, in kernel 0. -/
def pairState : State :=
  { State.reset with
    flen := 4
    lines := [(0, pairLine)]
    cores := [(0, { Core.reset with bound := [(0, 0)], ks := [{ KSlot.reset with kid := some 0 }] })] }

/-- The context that issues there. -/
def pairEnv : Env := { site := 0, slot := 0, key := 0, line := pairLine, core := pairState.core 0, ks := 0 }

/-- The sources of the atomics on their way after an instruction. -/
def sourcesSent (o : Out) : List Nat :=
  match o with
  | .next t => t.net.filterMap fun m => match m.body with
    | .req _ _ (.amo _ _ src _ _ _ _ _) _ _ => some src
    | _ => none
  | _ => []

/-- The reduction sends the number in v0. -/
theorem sourcesSent_redAdd : sourcesSent (exec (.redAdd .i128 .rlx .core 0 0) pairState) = [0] := by decide

/-- Refutes O26: a `red.add` whose type is the 16-byte one has an address and a source as every reduction, and the statement takes its
source from the registers v0 and v1, as for the 16-byte compare and swap (2^64 here); the model's reductions have no 16-byte form and
take the source from v0 alone (0 here).  No encoding means this instruction (`Instr.wellFormed`), and the statement does not say that it
speaks of those that have one. -/
theorem not_atomics : ¬ Obligations.Atomics := by
  intro h
  obtain ⟨-, -, -, hred⟩ := h (.redAdd .i128 .rlx .core 0 0) pairState pairEnv _ (by decide) rfl ⟨by decide, by decide, fun _ => rfl⟩ rfl
    .add .i128 .rlx .core none 0 0 rfl ⟨by decide, by decide⟩
  obtain ⟨t, l, m, tok, hexec, hnet, hbody, -⟩ := hred rfl (by decide)
  have hsent : sourcesSent (exec (.redAdd .i128 .rlx .core 0 0) pairState) = [2 ^ 64] := by
    rw [hexec, sourcesSent, hnet, show pairState.net = [] from rfl, List.nil_append, List.filterMap_cons, hbody]
    rfl
  rw [sourcesSent_redAdd] at hsent
  exact absurd hsent (by decide)

end Sys2Proof
end

section
/-! The copies that a line has outside its home while no core keeps a stash: recalling them changes no byte (R152, R153, R180, R224). -/

namespace Sys2Proof

open Machine

section

variable {α : Type} {t : Table α} {k j : Nat}

theorem tget_filter_of_none {p : Nat × α → Bool} (h : tget t k = none) : tget (t.filter p) k = none := by
  induction t with
  | nil => rfl
  | cons e t ih =>
    rw [tget_cons] at h
    split_ifs at h with hk
    rw [List.filter_cons]
    split_ifs
    · rw [tget_cons, if_neg hk, ih h]
    · exact ih h

theorem tget_tdel_of_none (h : tget t k = none) : tget (tdel t j) k = none := tget_filter_of_none h

end

/-- No core keeps a stash line, and every core that owns a line serves the network. -/
def QuietCores (s : State) : Prop := ∀ e ∈ s.cores, e.2.stash = [] ∧ (e.2.owned ≠ [] → (s.core e.1).serves = true)

theorem mem_of_tget {α : Type} {t : Table α} {k : Nat} {a : α} (h : tget t k = some a) : (k, a) ∈ t := by
  induction t with
  | nil => exact nomatch h
  | cons e t ih =>
    rw [tget_cons] at h
    split_ifs at h with hk
    · exact List.mem_cons.mpr (.inl (Prod.ext hk.symm (Option.some.inj h).symm))
    · exact List.mem_cons_of_mem _ (ih h)

/-- What the quiet cores say of the core at a site. -/
theorem QuietCores.core {s : State} (hq : QuietCores s) (c : Nat) :
    (s.core c).stash = [] ∧ ((s.core c).owned ≠ [] → (s.core c).serves = true) := by
  cases h : tget s.cores c with
  | none => simp [State.core, tgetD, h, Core.reset]
  | some x =>
    have hc : s.core c = x := by rw [State.core, tgetD, h]; rfl
    rw [hc]
    exact hc ▸ hq _ (mem_of_tget h)

/-- A core that changes otherwise leaves the cores quiet. -/
theorem QuietCores.modCore {s : State} {site : Nat} {f : Core → Core} (hq : QuietCores s)
    (hf : ∀ c, (f c).stash = c.stash ∧ ((f c).owned ≠ [] → c.owned ≠ []) ∧ (f c).life = c.life) : QuietCores (s.modCore site f) := by
  intro e he
  have hserves : ((s.modCore site f).core e.1).serves = (s.core e.1).serves := by
    by_cases h : e.1 = site
    · rw [h, State.core_modCore_eq, Core.serves, Core.serves, (hf _).2.2]
    · rw [State.core_modCore_ne _ _ h]
  rw [hserves]
  rcases mem_tset he with rfl | he
  · exact ⟨(hf _).1.trans (hq.core site).1, fun h => (hq.core site).2 ((hf _).2.1 h)⟩
  · exact hq e he

/-- Beside the cores, only the lists of copies, of lines newer than HBM and of the readers changed. -/
def SameButCopies (s t : State) : Prop := ∃ cores slices visitors hostHeld lastBy,
  t = { s with cores := cores, slices := slices, visitors := visitors, hostHeld := hostHeld, lastBy := lastBy }

theorem SameButCopies.trans {s t u : State} (hst : SameButCopies s t) (htu : SameButCopies t u) : SameButCopies s u := by
  obtain ⟨_, _, _, _, _, rfl⟩ := hst
  obtain ⟨_, _, _, _, _, rfl⟩ := htu
  exact ⟨_, _, _, _, _, rfl⟩

/-- Whatever copies were recalled: the cores own no line that they did not own, and no visitor copy is new. -/
structure Recalled (s t : State) : Prop where
  frame : SameButCopies s t
  core : ∀ c, ∃ owned, owned ⊆ (s.core c).owned ∧ t.core c = { s.core c with owned := owned }
  quiet : QuietCores s → QuietCores t
  visitors : ∀ k, tget s.visitors k = none → tget t.visitors k = none

namespace Recalled

variable {s t u : State}

theorem refl (s : State) : Recalled s s :=
  ⟨⟨_, _, _, _, _, rfl⟩, fun _ => ⟨_, List.Subset.refl _, rfl⟩, id, fun _ => id⟩

theorem trans (hst : Recalled s t) (htu : Recalled t u) : Recalled s u where
  frame := hst.frame.trans htu.frame
  core c := by
    obtain ⟨owned, hsub, hcore⟩ := hst.core c
    obtain ⟨owned', hsub', hcore'⟩ := htu.core c
    rw [hcore] at hsub' hcore'
    exact ⟨owned', List.Subset.trans hsub' hsub, hcore'⟩
  quiet := htu.quiet ∘ hst.quiet
  visitors k := htu.visitors k ∘ hst.visitors k

/-- A change of the copies of memory lines alone, which leaves no new visitor copy. -/
theorem of_cores_eq (hframe : ∃ slices visitors hostHeld lastBy, t = { s with
    slices := slices, visitors := visitors, hostHeld := hostHeld, lastBy := lastBy })
    (hvisitors : ∀ k, tget s.visitors k = none → tget t.visitors k = none) : Recalled s t := by
  obtain ⟨_, _, _, _, rfl⟩ := hframe
  exact ⟨⟨_, _, _, _, _, rfl⟩, fun _ => ⟨_, List.Subset.refl _, rfl⟩, id, hvisitors⟩

/-- A list of recalls. -/
theorem foldl {α : Type} {f : State → α → State} {l : List α} (hstep : ∀ t x, x ∈ l → Recalled s t → Recalled t (f t x)) :
    Recalled s (l.foldl f s) := by
  suffices h : ∀ (xs : List α) (t : State), xs ⊆ l → Recalled s t → Recalled s (xs.foldl f t) from h l s (List.Subset.refl _) (refl s)
  intro xs
  induction xs with
  | nil => exact fun t _ h => h
  | cons x xs ih =>
    exact fun t hsub h => ih _ (List.subset_of_cons_subset hsub) (h.trans (hstep t x (hsub List.mem_cons_self) h))

/-- A line reads as before. -/
theorem line? (h : Recalled s t) (k : Nat) : t.line? k = s.line? k := by
  obtain ⟨_, _, _, _, _, rfl⟩ := h.frame
  rfl

theorem rdByte (h : Recalled s t) (a : Nat) : t.rdByte a = s.rdByte a := by
  obtain ⟨_, _, _, _, _, rfl⟩ := h.frame
  rfl

theorem rd (h : Recalled s t) (a n : Nat) : t.rd a n = s.rd a n := by
  obtain ⟨_, _, _, _, _, rfl⟩ := h.frame
  rfl

theorem serves (h : Recalled s t) (c : Nat) : (t.core c).serves = (s.core c).serves := by
  obtain ⟨_, _, hcore⟩ := h.core c
  rw [hcore]
  rfl

/-- A core gives up some of its lines. -/
theorem modCore_owned (s : State) (site : Nat) (p : Owned → Bool) :
    Recalled s (s.modCore site fun c => { c with owned := c.owned.filter p }) where
  frame := ⟨_, s.slices, s.visitors, s.hostHeld, s.lastBy, rfl⟩
  core c := by
    by_cases h : c = site
    · exact h ▸ ⟨_, fun _ => List.mem_of_mem_filter, State.core_modCore_eq ..⟩
    · exact ⟨_, List.Subset.refl _, State.core_modCore_ne _ _ h⟩
  quiet hq := hq.modCore fun c => ⟨rfl, fun h hnil => h (by rw [hnil]; rfl), rfl⟩
  visitors _ := id

/-- A visitor copy gone. -/
theorem tdel_visitors (s : State) (k : Nat) : Recalled s { s with visitors := tdel s.visitors k } :=
  of_cores_eq ⟨s.slices, _, s.hostHeld, s.lastBy, rfl⟩ fun _ => tget_tdel_of_none

theorem dropVisitors (s : State) (g : Nat) : Recalled s (s.dropVisitors g) :=
  of_cores_eq ⟨s.slices, _, s.hostHeld, s.lastBy, rfl⟩ fun _ => tget_filter_of_none

/-- A way made free takes away one copy of another line at most (R14). -/
theorem sliceRoom (s : State) (cl g : Nat) : Recalled s (s.sliceRoom cl g) := by
  unfold State.sliceRoom
  split_ifs
  · exact refl s
  · split
    · exact tdel_visitors ..
    · split
      · exact of_cores_eq ⟨_, s.visitors, s.hostHeld, s.lastBy, rfl⟩ fun _ => id
      · split
        · exact (dropVisitors ..).trans (of_cores_eq ⟨s.slices, _, _, s.lastBy, rfl⟩ fun _ => id)
        · exact refl s

/-- What a slice remembers of a line newer than HBM is beside memory (R242). -/
theorem noteSlice (s : State) (home g : Nat) (old : List Byte) (ws : List Acc) (dur : Bool) :
    Recalled s (s.noteSlice home g old ws dur) := by
  unfold State.noteSlice
  split_ifs
  · exact refl s
  · exact of_cores_eq ⟨_, s.visitors, s.hostHeld, s.lastBy, rfl⟩ fun _ => id
  · exact (sliceRoom s home g).trans (of_cores_eq ⟨_, (s.sliceRoom home g).visitors, _, _, rfl⟩ fun _ => id)

/-- A serving core gives up a line (R153). -/
theorem giveUp {site : Nat} {o : Owned} (h : (s.core site).serves = true) : Recalled s (s.giveUp site o) := by
  have hgiven := modCore_owned s site fun x => x.ga != o.ga
  simp only [State.giveUp, h, if_true]
  split_ifs
  · exact hgiven
  · exact hgiven.trans (noteSlice ..)

/-- Serving cores give up a list of lines. -/
theorem giveUps {site : Nat} {os : List Owned} (h : os ≠ [] → (s.core site).serves = true) :
    Recalled s (os.foldl (fun s o => s.giveUp site o) s) :=
  foldl fun _ _ ho ht => giveUp (by rw [ht.serves, h (List.ne_nil_of_mem ho)])

/-- Every core but one gives up a line (R152). -/
theorem recallOwned (hq : QuietCores s) (g : Nat) (but : Option Nat) : Recalled s (s.recallOwned g but) := by
  refine foldl fun t e he ht => ?_
  split_ifs
  · exact refl t
  · refine giveUps fun h => ?_
    rw [ht.serves]
    exact (hq e he).2 fun hnil => h (by rw [hnil]; rfl)

end Recalled

/-- With no stash line nothing is recalled from one (R180). -/
theorem recallStashes_of_quiet {s : State} (hq : QuietCores s) (g : Nat) (but : Option Nat) (write : Bool) :
    s.recallStashes g but write = s := by
  have h (es : Table Core) (hes : ∀ e ∈ es, e.2.stash = []) (t : State) : es.foldl (fun s e =>
      if but == some e.1 then s
      else e.2.stash.foldl (fun s x => if x.ga == g && (write || x.dirty) then s.recallStash e.1 x (!write) else s) s) t = t := by
    induction es with
    | nil => rfl
    | cons e es ih =>
      rw [List.foldl_cons, hes e List.mem_cons_self, List.foldl_nil, ite_self]
      exact ih fun e he => hes e (List.mem_cons_of_mem _ he)
  exact h s.cores (fun e he => (hq e he).1) s

/-! ## Reads and writes at a home of NORMAL class (R137, R138, R152) -/

section

variable {s : State} {a : Acc} {n : Nat}

/-- A NORMAL page reads as its bytes. -/
theorem readPage_normal {part : Nat} {l : Leaf} {ga : Nat} (hcls : l.cls = 0) : s.readPage part l ga n = s.rd ga n := by
  simp [State.readPage, hcls]

/-- The recalls of a read at its home. -/
theorem Recalled.homeRead (hq : QuietCores s) (site : Nat) : Recalled s (s.homeRead site a n).1 := by
  refine Recalled.foldl fun t g _ ht => ?_
  rw [recallStashes_of_quiet (ht.quiet hq)]
  exact (Recalled.recallOwned (ht.quiet hq) g (some site)).trans
    (Recalled.of_cores_eq ⟨_, _, _, _, rfl⟩ fun _ => tget_tdel_of_none)

/-- A read at its home answers with the bytes that were there. -/
theorem homeRead_data (hq : QuietCores s) (site : Nat) (hcls : a.leaf.cls = 0) : (s.homeRead site a n).2 = s.rd a.ga n := by
  have h : (s.homeRead site a n).2 = (s.homeRead site a n).1.rd a.ga n := readPage_normal hcls
  rw [h, (Recalled.homeRead hq site).rd]

/-- A read at the home of a NORMAL page: the recalls that come first, and the bytes. -/
theorem homeRead_normal (hq : QuietCores s) (site : Nat) (hcls : a.leaf.cls = 0) :
    ∃ u, s.homeRead site a n = (u, s.rd a.ga n) ∧ Recalled s u :=
  ⟨_, Prod.ext rfl (homeRead_data hq site hcls), Recalled.homeRead hq site⟩

/-- A visitor copy left is beside memory (R14). -/
theorem leaveVisitor_frame (s : State) (sl : Nat) (a : Acc) : SameButCopies s (s.leaveVisitor sl a) := by
  obtain ⟨_, _, _, _, _, hroom⟩ := (Recalled.sliceRoom s (clusterOf a.w.site) (a.ga / 64)).frame
  simp only [State.leaveVisitor, hroom]
  split_ifs
  all_goals exact ⟨_, _, _, _, _, rfl⟩

end

/-! ## Writes at a home of NORMAL class (R138, R229, R316) -/

/-- No context is held at its mailbox by a `qpop`. -/
def NoPops (s : State) : Prop := ∀ e ∈ s.lines, e.2.popWait = none

section

variable {s : State}

theorem NoPops.line? (h : NoPops s) {k : Nat} {l : Line} (hl : s.line? k = some l) : l.popWait = none := h _ (mem_of_tget hl)

theorem NoPops.setLine (h : NoPops s) {k : Nat} {l : Line} (hl : l.popWait = none) : NoPops (s.setLine k l) := by
  intro e he
  rcases mem_tset he with rfl | he
  · exact hl
  · exact h e he

/-- A write of bytes lets no `qpop` wait. -/
theorem NoPops.wr (h : NoPops s) (ga : Nat) (bs : List Byte) : NoPops (s.wr ga bs) := by
  induction bs generalizing s ga with
  | nil => exact h
  | cons b bs ih =>
    refine ih (?_ : NoPops (s.wrByte ga b)) (ga + 1)
    unfold State.wrByte
    split
    · next l hl =>
      split_ifs
      · exact h.setLine (l := l.ofBytes _) (NoPops.line? (l := l) h hl)
      · exact h
    · exact h

/-- With no `qpop` held, a store that closes a mailbox ends none (R326). -/
theorem closePop_of_noPops (h : NoPops s) (w : Who) (va ga : Nat) : s.closePop w va ga = s := by
  have hnone {key : Nat} {l : Line} (hm : s.mailboxLine w va ga = some (key, l)) : l.popWait = none := by
    unfold State.mailboxLine at hm
    split_ifs at hm
    · split at hm
      · next x hx =>
        split_ifs at hm
        cases hm
        exact h.line? hx
      · cases hm
    · exact h _ (List.mem_of_find?_eq_some hm)
  unfold State.closePop
  split
  · next key l hm => simp only [hnone hm]
  · rfl

/-- What a write at a home changes beside the bytes: copies, notes of copies, messages, what drains
wait for, and the queues of held requests. -/
structure Side where
  cores : Table Core
  slices : Table SliceLine
  visitors : Table (Nat × List Byte)
  hostHeld : Table HostHold
  lastBy : Table Nat
  mirrored : List Nat
  net : List Msg
  nextId : Nat
  ops : Table OpInfo
  heldQ : Table (List HeldReq)

/-- The state with these replaced. -/
def beside (s : State) (x : Side) : State :=
  { s with cores := x.cores, slices := x.slices, visitors := x.visitors, hostHeld := x.hostHeld, lastBy := x.lastBy,
           mirrored := x.mirrored, net := x.net, nextId := x.nextId, ops := x.ops, heldQ := x.heldQ }

/-- What stands in a state. -/
def sideOf (s : State) : Side :=
  { cores := s.cores, slices := s.slices, visitors := s.visitors, hostHeld := s.hostHeld, lastBy := s.lastBy,
    mirrored := s.mirrored, net := s.net, nextId := s.nextId, ops := s.ops, heldQ := s.heldQ }

/-- The states differ in these alone. -/
def Beside (s t : State) : Prop := t = beside s (sideOf t)

namespace Beside

variable {t u : State}

theorem trans (hst : Beside s t) (htu : Beside t u) : Beside s u := by
  refine Eq.trans htu ?_
  rw [hst]
  rfl

theorem lines (h : Beside s t) : t.lines = s.lines := Eq.trans (congrArg State.lines h) rfl

theorem rdByte (h : Beside s t) (a : Nat) : t.rdByte a = s.rdByte a := Eq.trans (congrArg (fun x : State => x.rdByte a) h) rfl

theorem resv (h : Beside s t) : t.resv = s.resv := Eq.trans (congrArg State.resv h) rfl

/-- Bytes are written without regard to these. -/
theorem wr (h : Beside s t) (ga : Nat) (bs : List Byte) : Beside (s.wr ga bs) (t.wr ga bs) := by
  have hwr (s : State) (x : Side) (ga : Nat) : (beside s x).wr ga bs = beside (s.wr ga bs) x := by
    induction bs generalizing s ga with
    | nil => rfl
    | cons b bs ih =>
      have hbyte : (beside s x).wrByte ga b = beside (s.wrByte ga b) x := by
        unfold State.wrByte
        rw [show (beside s x).line? (ga / 128) = s.line? (ga / 128) from rfl]
        split
        · split_ifs <;> rfl
        · rfl
      rw [State.wr, hbyte, ih]
      rfl
  have hside : sideOf (t.wr ga bs) = sideOf t := by
    obtain ⟨_, _, h⟩ := State.wr_frame ga bs (s := t)
    rw [h]
    rfl
  rw [Beside, hside, ← hwr, ← h]

end Beside

/-- The queues of held requests stay with the copies. -/
theorem SameButCopies.beside {t : State} (h : SameButCopies s t) : Beside s t ∧ t.heldQ = s.heldQ := by
  obtain ⟨_, _, _, _, _, rfl⟩ := h
  exact ⟨rfl, rfl⟩

/-- A message sent is on its way. -/
theorem exists_mem_net_send (s : State) (src dst : Node) (vn : Nat) (b : Body) :
    ∃ z ∈ (s.send src dst vn b).net, z.dst = dst ∧ z.body = b :=
  ⟨_, List.mem_append_right _ (List.mem_singleton.mpr rfl), rfl, rfl⟩

/-- A step that sends messages, drops copies and notes them, and leaves the cores and the held requests alone. -/
structure Sends (s t : State) : Prop where
  beside : Beside s t
  held : t.heldQ = s.heldQ
  cores : t.cores = s.cores
  net : s.net ⊆ t.net

namespace Sends

variable {t u : State}

theorem refl (s : State) : Sends s s := ⟨rfl, rfl, rfl, List.Subset.refl _⟩

theorem trans (hst : Sends s t) (htu : Sends t u) : Sends s u :=
  ⟨hst.beside.trans htu.beside, htu.held.trans hst.held, htu.cores.trans hst.cores, List.Subset.trans hst.net htu.net⟩

theorem core (h : Sends s t) (c : Nat) : t.core c = s.core c := congrArg (tgetD · c Core.reset) h.cores

/-- One message. -/
theorem send (s : State) (src dst : Node) (vn : Nat) (b : Body) : Sends s (s.send src dst vn b) :=
  ⟨rfl, rfl, rfl, fun _ => List.mem_append_left _⟩

/-- A list of such steps. -/
theorem foldl {α : Type} {f : State → α → State} (hf : ∀ t x, Sends t (f t x)) (l : List α) (s : State) : Sends s (l.foldl f s) := by
  induction l generalizing s with
  | nil => exact refl s
  | cons x l ih => exact (hf s x).trans (ih _)

/-- Invalidations are messages and copies dropped (R229). -/
theorem invalidate (s : State) (home via g : Nat) (dies : List Nat) (grp : Nat) : Sends s (s.invalidate home via g dies grp) := by
  refine foldl (fun t d => ?_) dies s
  split_ifs
  · exact ⟨rfl, rfl, rfl, List.Subset.refl _⟩
  · exact send ..
  · exact refl t

/-- The note of a line's mirror is beside memory (R241). -/
theorem noteMirror (s : State) (home g : Nat) (dur : Bool) : Sends s (s.noteMirror home g dur) := by
  have hnoted (mirrored : List Nat) : Sends s { s with mirrored := mirrored } := ⟨rfl, rfl, rfl, List.Subset.refl _⟩
  simp only [State.noteMirror]
  split_ifs
  · exact hnoted _
  · exact send ..
  · exact refl s
  · exact (hnoted _).trans (send ..)
  · exact hnoted _

/-- The mirror's acknowledgement is a message (R241, R396). -/
theorem mirrorWrite (s : State) (home : Nat) (w : Who) (tok : Nat) (ends : Option Answer) (counted : Bool) :
    Sends s (s.mirrorWrite home w tok ends counted) := by
  simp only [State.mirrorWrite]
  split_ifs
  all_goals exact send ..

/-- The acknowledgements of a write are messages (R138, R241). -/
theorem ackWrite (s : State) (home : Nat) (w : Who) (tok grp : Nat) (dur : Bool) (ends : Option Answer) (scOp recRelease : Bool) :
    Sends s (s.ackWrite home w tok grp dur ends scOp recRelease) := by
  cases dur
  · exact send ..
  · exact (send ..).trans (mirrorWrite ..)

end Sends

/-- The acknowledgement of a write to its context. -/
theorem exists_ack (s : State) (home : Nat) (w : Who) (tok grp : Nat) (dur : Bool) (ends : Option Answer) (scOp recRelease : Bool) :
    ∃ z ∈ (s.ackWrite home w tok grp dur ends scOp recRelease).net, z.dst = .line w.key ∧
      z.body = .ack w tok grp (if dur && recRelease then none else ends) scOp := by
  obtain ⟨z, hz, hdst, hbody⟩ := exists_mem_net_send s (.slice home) (.line w.key) vnReply
    (.ack w tok grp (if dur && recRelease then none else ends) scOp)
  refine ⟨z, ?_, hdst, hbody⟩
  have hack : s.ackWrite home w tok grp dur ends scOp recRelease =
      let t := s.send (.slice home) (.line w.key) vnReply (.ack w tok grp (if dur && recRelease then none else ends) scOp)
      if dur then t.mirrorWrite home w tok (if dur && recRelease then ends else none) true else t := rfl
  rw [hack]
  cases dur
  · exact hz
  · exact (Sends.mirrorWrite ..).net hz

/-- A store that closes a queue fails what is held there, and with no `qpop` held nothing else (R316). -/
theorem closeHeld_frame (h : NoPops s) (sl : Nat) (w : Who) (va ga : Nat) : ∃ net nextId ops heldQ,
    s.closeHeld sl w va ga = { s with net := net, nextId := nextId, ops := ops, heldQ := heldQ } ∧
      s.net ⊆ net ∧ (tget s.heldQ (ga / 64) = none → tget heldQ (ga / 64) = none) := by
  have hfail (t : State) (hs : List HeldReq) : ∃ net nextId ops, hs.foldl (fun s h => s.failHeld sl h) t =
      { t with net := net, nextId := nextId, ops := ops } ∧ t.net ⊆ net := by
    induction hs generalizing t with
    | nil => exact ⟨_, _, _, rfl, List.Subset.refl _⟩
    | cons x hs ih =>
      have hone : ∃ net nextId ops, t.failHeld sl x = { t with net := net, nextId := nextId, ops := ops } ∧ t.net ⊆ net := by
        unfold State.failHeld State.answerFault
        split
        · exact ⟨_, _, _, rfl, fun _ => List.mem_append_left _⟩
        · split_ifs
          · exact ⟨_, _, _, rfl, fun _ => List.mem_append_left _⟩
          · exact ⟨_, _, _, rfl, fun _ => List.mem_append_left _⟩
      obtain ⟨net, nextId, ops, hx, hnet⟩ := hone
      obtain ⟨net', nextId', ops', hxs, hnet'⟩ := ih { t with net := net, nextId := nextId, ops := ops }
      exact ⟨net', nextId', ops', (congrArg (hs.foldl fun s h => s.failHeld sl h) hx).trans hxs, List.Subset.trans hnet hnet'⟩
  obtain ⟨net, nextId, ops, hfailed, hnet⟩ := hfail { s with heldQ := tdel s.heldQ (ga / 64) } (tgetD s.heldQ (ga / 64) [])
  simp only [State.closeHeld, hfailed]
  split_ifs
  · exact ⟨net, nextId, ops, _, closePop_of_noPops (s := { s with net := net, nextId := nextId, ops := ops, heldQ := _ }) h w va ga, hnet,
      fun _ => tget_tdel_eq ..⟩
  · exact ⟨_, _, _, _, rfl, List.Subset.refl _, id⟩

/-- Bytes written at their home, where nothing is held. -/
def Wrote (s t : State) (ga : Nat) (data : List Byte) : Prop := Beside (s.wr ga data) t ∧ tget t.heldQ (ga / 64) = none

/-- A line once every copy of it outside its home is recalled for a write (R152, R180). -/
def recalled (s : State) (g : Nat) : State := (s.recallStashes g none true).recallOwned g none

/-- While no core keeps a stash and the owners serve, that changes copies alone. -/
theorem Recalled.recalled (hq : QuietCores s) (g : Nat) : Recalled s (recalled s g) := by
  rw [Sys2Proof.recalled, recallStashes_of_quiet hq]
  exact Recalled.recallOwned hq g none

/-- A write at the home of a page that is not of DEVICE class, once the copies are recalled (R138, R229). -/
theorem performWrite_beside {a : Acc} (hcls : a.leaf.cls ≠ 3) (hpop : NoPops (recalled s (a.ga / 64))) (sl via : Nat) (data : List Byte) :
    Beside ((recalled s (a.ga / 64)).wr a.ga data) (s.performWrite sl via a data).1 ∧
      (tget (recalled s (a.ga / 64)).heldQ (a.ga / 64) = none → tget (s.performWrite sl via a data).1.heldQ (a.ga / 64) = none) := by
  have hstore := Sends.invalidate ((recalled s (a.ga / 64)).wr a.ga data) sl via (a.ga / 64) [0, 1, 2, 3] (recalled s (a.ga / 64)).nextId
  have hu : (s.storeLine sl via a.ga data [0, 1, 2, 3]).1 = ((recalled s (a.ga / 64)).wr a.ga data).invalidate sl via (a.ga / 64)
      [0, 1, 2, 3] (recalled s (a.ga / 64)).nextId := rfl
  rw [← hu] at hstore
  simp only [State.performWrite, hcls, decide_false, Bool.false_and, Bool.false_eq_true, if_false]
  generalize recalled s (a.ga / 64) = r at hstore hpop
  generalize (s.storeLine sl via a.ga data [0, 1, 2, 3]).1 = u at hstore
  obtain ⟨hslice, hslice'⟩ := (Recalled.noteSlice u sl (a.ga / 64) (s.rd (a.ga / 64 * 64) 64) [a] a.leaf.durable).frame.beside
  have hmirror := Sends.noteMirror (u.noteSlice sl (a.ga / 64) (s.rd (a.ga / 64 * 64) 64) [a] a.leaf.durable) sl (a.ga / 64) a.leaf.durable
  have hbeside := (hstore.beside.trans hslice).trans hmirror.beside
  have hheld : _ = (r.wr a.ga data).heldQ := (hmirror.held.trans hslice').trans hstore.held
  generalize (u.noteSlice sl (a.ga / 64) (s.rd (a.ga / 64 * 64) 64) [a] a.leaf.durable).noteMirror sl (a.ga / 64) a.leaf.durable = v at *
  have hpopv : NoPops v := by
    rw [NoPops, hbeside.lines]
    exact hpop.wr a.ga data
  obtain ⟨_, _, _, _, hclose, -, hnone⟩ := closeHeld_frame (s := { v with lastBy := tset v.lastBy (a.ga / 64) a.w.site })
    hpopv sl a.w a.va a.ga
  obtain ⟨_, _, hwr⟩ := State.wr_frame a.ga data (s := r)
  rw [hclose]
  exact ⟨hbeside.trans rfl, fun h => hnone (by rw [hheld, hwr, h])⟩

/-- A write at the home of a NORMAL page (R138). -/
theorem performWrite_normal {a : Acc} (hq : QuietCores s) (hpop : NoPops s) (hheld : tget s.heldQ (a.ga / 64) = none)
    (hcls : a.leaf.cls = 0) (sl via : Nat) (data : List Byte) : Wrote s (s.performWrite sl via a data).1 a.ga data := by
  obtain ⟨hrecall, hheldQ⟩ := (Recalled.recalled hq (a.ga / 64)).frame.beside
  have hpop' : NoPops (recalled s (a.ga / 64)) := by rwa [NoPops, hrecall.lines]
  obtain ⟨hbeside, hheld'⟩ := performWrite_beside (hcls ▸ by decide) hpop' sl via data
  exact ⟨(hrecall.wr _ _).trans hbeside, hheld' (hheldQ ▸ hheld)⟩

namespace Wrote

variable {t u : State} {ga : Nat} {data : List Byte}

/-- The bytes written. -/
theorem rdByte_in (h : Wrote s t ga data) (i : Nat) (hi : i < data.length) : t.rdByte (ga + i) = data.getD i 0#8 := by
  rw [h.1.rdByte, State.rdByte_wr_in _ _ _ hi, List.getD_eq_getElem _ _ hi]

/-- Every other byte. -/
theorem rdByte_out (h : Wrote s t ga data) (b : Nat) (hb : b < ga ∨ ga + data.length ≤ b) : t.rdByte b = s.rdByte b := by
  rw [h.1.rdByte, State.rdByte_wr_out _ _ hb]

theorem resv (h : Wrote s t ga data) : t.resv = s.resv := by
  obtain ⟨_, _, hwr⟩ := State.wr_frame ga data (s := s)
  rw [h.1.resv, hwr]

end Wrote

/-! ## A line that changes alone -/

/-- One line has changed, to one that meets a condition. -/
def LineNow (s t : State) (k : Nat) (P : Line → Prop) : Prop := (∃ lines, t = { s with lines := lines }) ∧ ∃ x, t.line? k = some x ∧ P x

namespace LineNow

variable {t : State} {k : Nat} {P Q : Line → Prop}

theorem start {l : Line} (hl : s.line? k = some l) (h : P l) : LineNow s s k P := ⟨⟨_, rfl⟩, l, hl, h⟩

theorem modLine (h : LineNow s t k P) {f : Line → Line} (hf : ∀ x, P x → Q { f x with touched := true }) :
    LineNow s (t.modLine k f) k Q := by
  obtain ⟨⟨_, rfl⟩, x, hx, hP⟩ := h
  rw [State.modLine_some _ _ hx]
  exact ⟨⟨_, rfl⟩, _, State.line?_setLine_eq .., hf x hP⟩

/-- The wait of a line that holds no fault ends (R63). -/
theorem makeReady (h : LineNow s t k P) (hheld : ∀ x, P x → x.heldFaults = [])
    (hQ : ∀ x, P x → Q { x.ready s.gtime with touched := true }) :
    LineNow s (t.makeReady k) k Q := by
  obtain ⟨⟨_, rfl⟩, x, hx, hP⟩ := h
  rw [makeReady_eq hx (hheld x hP)]
  exact ⟨⟨_, rfl⟩, _, State.line?_setLine_eq .., hQ x hP⟩

/-- An acquire notes what invalidations came before it (R235). -/
theorem acquires (h : LineNow s t k P) (hQ : ∀ x, P x → Q { x with acqTo := s.nextId }) : LineNow s (t.acquires k) k Q := by
  obtain ⟨⟨_, rfl⟩, x, hx, hP⟩ := h
  simp only [State.acquires, hx]
  exact ⟨⟨_, rfl⟩, _, tget_tset_eq .., hQ x hP⟩

end LineNow

/-! ## An access that its home performs at once (R225, R226) -/

section

variable {m sl : Nat} {a : Acc} {takes : Acc → Bool} {perform : State → Nat → Acc → State}

/-- An access of the kind that a step takes is performed. -/
theorem homeArrival_of_arrives (h : s.Arrives m sl a) (htakes : takes a = true) : homeArrival m s takes perform = .next (perform s sl a) := by
  obtain ⟨hmsg, hwaits, hreach, hheader, hgate⟩ := h
  simp only [homeArrival, hmsg, htakes, hwaits, hreach, hheader, hgate, Bool.not_true, Bool.false_eq_true, if_false]

theorem homeStep_of_arrives (h : s.Arrives m sl a) (htakes : takes a = true) :
    homeStep m s takes perform = .next (perform (s.drop m) sl a) :=
  homeArrival_of_arrives h htakes

end

end

end Sys2Proof
end

section
/-! O54: reservation queues (R155 to R158). -/

namespace Sys2Proof

open Machine

section

variable {s : State} {g : Nat} {q : ResvQ}

/-- A queue with an entry is kept. -/
theorem tget_setResv (hne : q.entries ≠ []) : tget (s.setResv g q).resv g = some q := by
  rw [State.setResv, if_neg (by simpa using hne)]
  exact tget_tset_eq ..

/-- A queue that loses its head is kept while it has another entry (R157). -/
theorem tget_setResv_pass (s : State) (g : Nat) (q : ResvQ) : tget (s.setResv g q.pass).resv g =
    if q.entries.length ≤ 1 then none else some { q with entries := q.entries.drop 1, granted := false } := by
  rw [State.setResv, ResvQ.pass]
  have hempty : (q.entries.drop 1).isEmpty = true ↔ q.entries.length ≤ 1 := by
    rw [List.isEmpty_iff, List.drop_eq_nil_iff]
  by_cases h : q.entries.length ≤ 1
  · rw [if_pos (hempty.mpr h), if_pos h]
    exact tget_tdel_eq ..
  · rw [if_neg (mt hempty.mp h), if_neg h]
    exact tget_tset_eq ..

/-- The queues alone change. -/
theorem setResv_frame (s : State) (g : Nat) (q : ResvQ) : ∃ resv, s.setResv g q = { s with resv := resv } := by
  unfold State.setResv
  split_ifs
  · exact ⟨_, rfl⟩
  · exact ⟨_, rfl⟩

/-- A head that keeps its grant too long (R158). -/
theorem exec_reservationTimeout (hq : tget s.resv g = some q) (hgranted : q.granted = true) : exec (.reservationTimeout g) s =
    .next (if q.since + 2 ^ 20 ≤ s.cycle then s.setResv g q.pass else s) := by
  have hexec : exec (.reservationTimeout g) s = execReservationTimeout g s := rfl
  by_cases h : q.since + 2 ^ 20 ≤ s.cycle
  · simp only [hexec, execReservationTimeout, hq, hgranted, Bool.true_and, resvTime, h, decide_true, if_true]
  · simp only [hexec, execReservationTimeout, hq, hgranted, Bool.true_and, resvTime, h, decide_false, Bool.false_eq_true, if_false]

/-! ## Enqueue (R156) -/

section

variable {m sl : Nat} {a : Acc} {d : Reg}

/-- The entry of a `ldr.w` in its line's queue. -/
def entryOf (d : Reg) (a : Acc) : ResvEntry := { who := a.w, dst := d, acc := a }

variable (harr : s.Arrives m sl a) (hk : a.k = .ldrw d) (hrefused : s.resvRefused a = none)
  (hwaits : s.headWaits (a.ga / 64) a.w.key = false)
include harr hk hrefused hwaits

/-- A line's queue with room takes the entry at its tail. -/
theorem exec_reservationEnqueue_room (hq : tget ((s.drop m).unreserve a.w.key).resv (a.ga / 64) = some q) (hroom : q.entries.length < 16) :
    exec (.reservationEnqueue m) s =
      .next (((s.drop m).unreserve a.w.key).setResv (a.ga / 64) { q with entries := q.entries ++ [entryOf d a] }) := by
  obtain ⟨hmsg, hpath, hreach, -⟩ := harr
  have hexec : exec (.reservationEnqueue m) s = execReservationEnqueue m s := rfl
  simp only [hexec, execReservationEnqueue, hmsg, hk, hpath, hreach, hrefused, hwaits, hq, Option.isSome_none, Bool.false_eq_true, if_false,
    resvEntries, hroom, if_true]
  rfl

/-- A full queue refuses it. -/
theorem exec_reservationEnqueue_full (hq : tget ((s.drop m).unreserve a.w.key).resv (a.ga / 64) = some q) (hfull : 16 ≤ q.entries.length) :
    exec (.reservationEnqueue m) s = .next (((s.drop m).unreserve a.w.key).accFault sl a (0x0A, 0x01)) := by
  obtain ⟨hmsg, hpath, hreach, -⟩ := harr
  have hexec : exec (.reservationEnqueue m) s = execReservationEnqueue m s := rfl
  simp only [hexec, execReservationEnqueue, hmsg, hk, hpath, hreach, hrefused, hwaits, hq, Option.isSome_none, Bool.false_eq_true, if_false,
    resvEntries, hfull.not_gt]

/-- A line without a queue gets one while its slice has room for it. -/
theorem exec_reservationEnqueue_new (hq : tget ((s.drop m).unreserve a.w.key).resv (a.ga / 64) = none)
    (hroom : (((s.drop m).unreserve a.w.key).resv.filter fun x => s.homeAt a.w.part x.1 == sl).length < 64) :
    exec (.reservationEnqueue m) s =
      .next (((s.drop m).unreserve a.w.key).setResv (a.ga / 64) { entries := [entryOf d a], granted := false, since := s.cycle }) := by
  obtain ⟨hmsg, hpath, hreach, -⟩ := harr
  have hexec : exec (.reservationEnqueue m) s = execReservationEnqueue m s := rfl
  have hroom' : (((s.drop m).unreserve a.w.key).resv.filter fun x => ((s.drop m).unreserve a.w.key).homeAt a.w.part x.1 == sl).length <
    resvLines := hroom
  simp only [hexec, execReservationEnqueue, hmsg, hk, hpath, hreach, hrefused, hwaits, hq, Option.isSome_none, Bool.false_eq_true, if_false,
    hroom', if_true]
  rfl

end

/-- A refused `ldr.w` is answered by a fault (R140, R156). -/
theorem accFault_ldrw {a : Acc} {d : Reg} (hk : a.k = .ldrw d) (hkey : a.w.key ≠ noKey) (sl cls sub : Nat) :
    s.accFault sl a (cls, sub) = s.send (.slice sl) (.line a.w.key) vnReply (.fault a.w
      { cls := cls, sub := sub, kind := a.k.kindSize.1, size := a.k.kindSize.2, faddr := W a.va } false false a.tok none false) := by
  simp only [State.accFault, hk]
  exact if_neg hkey

/-- A queue that is kept, and what the enqueue leaves alone. -/
theorem joined (s : State) (m key : Nat) (hne : q.entries ≠ []) : (((s.drop m).unreserve key).setResv g q).mem = s.mem ∧
    (((s.drop m).unreserve key).setResv g q).lines = s.lines ∧ (((s.drop m).unreserve key).setResv g q).net = (s.drop m).net ∧
    tget (((s.drop m).unreserve key).setResv g q).resv g = some q := by
  obtain ⟨_, hset⟩ := setResv_frame ((s.drop m).unreserve key) g q
  exact ⟨by rw [hset]; rfl, by rw [hset]; rfl, by rw [hset]; rfl, tget_setResv hne⟩

/-- A context whose head entry leaves the queue of its line (R158). -/
theorem tget_unreserveAt_of_heads {key : Nat} (hq : tget s.resv g = some q) (hheads : s.heads g key = true)
    (hrest : (q.entries.filter fun x => x.who.key != key) ≠ []) :
    tget (s.unreserveAt g key).resv g = some { q with entries := q.entries.filter fun x => x.who.key != key, granted := false } := by
  simp only [State.heads, hq, ResvQ.head?] at hheads
  unfold State.unreserveAt
  simp only [hq, ResvQ.head?]
  cases hh : q.entries.head? with
  | none => simp [hh] at hheads
  | some e =>
    have hkey : e.who.key = key := by simpa [hh] using hheads
    simp only [hkey, if_true]
    exact tget_setResv hrest

/-! ## Grant (R68, R156, R157) -/

section

variable {h : ResvEntry} {l : Line}

/-- Whether an invalidation of a line is on its way (R157). -/
def storing (s : State) (g : Nat) : Bool :=
  s.net.any fun y => match y.body with
    | .inval _ x _ _ => x == g
    | _ => false

theorem storing_iff (s : State) (g : Nat) : storing s g = true ↔ ∃ y ∈ s.net, ∃ a v n, y.body = .inval a g v n := by
  rw [storing, List.any_eq_true]
  refine exists_congr fun y => and_congr_right fun _ => ⟨fun h => ?_, fun ⟨_, _, _, hbody⟩ => by simp [hbody]⟩
  split at h
  · next a x v n hbody => exact ⟨a, v, n, by rw [hbody, eq_of_beq h]⟩
  · exact absurd h Bool.false_ne_true

/-- Whether the read of a head waits for the host (R361, R363). -/
def asked (s : State) (h : ResvEntry) : Bool :=
  s.net.any fun y => match y.body with
    | .hostReq _ _ b | .bisnp _ _ (some b) | .acc b => b.w == h.who && b.k == h.acc.k
    | _ => false

theorem asked_of_absent (habsent : ∀ y ∈ s.net, ∀ b,
    (y.body = .acc b ∨ (∃ x o, y.body = .hostReq x o b) ∨ ∃ x i, y.body = .bisnp x i (some b)) → b.w ≠ h.who) : asked s h = false := by
  refine List.any_eq_false.mpr fun y hy => ?_
  split
  · next b hbody => simp [habsent y hy b (.inr (.inl ⟨_, _, hbody⟩))]
  · next b hbody => simp [habsent y hy b (.inr (.inr ⟨_, _, hbody⟩))]
  · next b hbody => simp [habsent y hy b (.inl hbody)]
  · exact Bool.false_ne_true

/-- A head is granted once it is not, no store to its line is on its way, and it is not asked of the host. -/
theorem exec_reservationGrant (hq : tget s.resv g = some q) (hh : q.entries.head? = some h) (hcls : h.acc.leaf.cls = 0)
    (hgate : s.gate s.nextId h.acc = .pass) (hdst : h.dst.val < 8) : exec (.reservationGrant g) s =
      if q.granted || storing s g || asked s h || s.slDown (s.homeAt h.who.part g) then .next s
      else .next (s.grantResv (s.homeAt h.who.part g) h.acc h.dst) := by
  have hexec : exec (.reservationGrant g) s = execReservationGrant g s := rfl
  have hbusy : s.sBusy h.who { Answer.none with regs := [(h.dst, 0#64)] } true = false := by simp [State.sBusy, hdst]
  have hrefused : s.resvRefused h.acc = none := by simp [State.resvRefused, hcls]
  simp only [hexec, execReservationGrant, hq, ResvQ.head?, hh, hbusy, hrefused, hgate, Bool.or_false]
  rfl

/-- A granted head, or one that a store goes before, waits (R157). -/
theorem exec_reservationGrant_waits (hq : tget s.resv g = some q) (hh : q.entries.head? = some h)
    (hwaits : (q.granted || storing s g) = true) : exec (.reservationGrant g) s = .next s := by
  have hexec : exec (.reservationGrant g) s = execReservationGrant g s := rfl
  simp only [hexec, execReservationGrant, hq, ResvQ.head?, hh]
  refine if_pos ?_
  simp only [Bool.or_eq_true] at hwaits ⊢
  exact .inl (.inl (.inl hwaits))

/-- A line with one v register written: its PC stands, and it holds no fault. -/
def VWritten (l : Line) (d : Reg) (v : Word) (x : Line) : Prop := x.v = l.v.set d.val v ∧ x.pc = l.pc ∧ x.heldFaults = []

/-- An answer in one v register that ends a wait, at an acquire of what others released (R68, R235). -/
theorem lineNow_answered {w : Who} {d : Reg} {v : Word} (n : Nat) (hl : s.line? w.key = some l) (hheld : l.heldFaults = [])
    (hd : d.val < 8) : LineNow s ((((s.answer w { Answer.none with regs := [(d, v)] } true).noteReply w.key n).makeReady w.key).acquires
      w.key) w.key fun x => x.wt = 0#32 ∧ x.pc = l.pc ∧ x.v = l.v.set d.val v := by
  have hanswer : s.answer w { Answer.none with regs := [(d, v)] } true =
      (s.modLine w.key fun l => { l with v := l.v.set d.val v }).modLine w.key fun l => l.orFlags Flags.none := by
    simp only [State.answer, State.answerReg, List.foldl_cons, List.foldl_nil, if_pos hd]
    rfl
  rw [hanswer]
  have hwritten : LineNow s (s.modLine w.key fun l => { l with v := l.v.set d.val v }) w.key (VWritten l d v) :=
    (LineNow.start (P := (· = l)) hl rfl).modLine fun x hx => ⟨by rw [hx], by rw [hx], by rw [hx, ← hheld]⟩
  have hflags := hwritten.modLine (Q := VWritten l d v) (f := fun l => l.orFlags Flags.none) fun _ => id
  have hnoted := hflags.modLine (Q := VWritten l d v) (f := fun l => { l with lastReply := max l.lastReply n }) fun _ => id
  exact (hnoted.makeReady (Q := fun x => x.wt = 0#32 ∧ x.pc = l.pc ∧ x.v = l.v.set d.val v) (fun _ hx => hx.2.2)
    fun _ hx => ⟨rfl, hx.2.1, hx.1⟩).acquires fun _ => id

/-- The granted head goes on with the bytes of its line. -/
theorem grantResv_reads {sl : Nat} (hq : tget s.resv g = some q) (hne : q.entries ≠ []) (hg : h.acc.ga / 64 = g) (hquiet : QuietCores s)
    (hcls : h.acc.leaf.cls = 0) (hl : s.line? h.acc.w.key = some l) (hlive : l.life = .live) (hgen : l.gen = h.acc.w.gen)
    (hemu : h.acc.w.emu = 0) (hkind : l.wtKind = 3) (hheld : l.heldFaults = []) (hdst : h.dst.val < 8) :
    ∃ x, (s.grantResv sl h.acc h.dst).line? h.acc.w.key = some x ∧ x.wt = 0#32 ∧ x.pc = l.pc ∧
      x.v = l.v.set h.dst.val (W (s.rdNat h.acc.ga 8)) ∧ (tget (s.grantResv sl h.acc h.dst).resv g).map (·.granted) = some true ∧
      (s.grantResv sl h.acc h.dst).mem = s.mem := by
  have hans : loadResult (.reg h.dst 8 false) (s.rd h.acc.ga 8) = { Answer.none with regs := [(h.dst, W (s.rdNat h.acc.ga 8))] } := by
    have htake : (s.rd h.acc.ga 8).take 8 = s.rd h.acc.ga 8 := List.take_of_length_le (by simp [State.rd])
    rw [loadResult, htake]
    rfl
  obtain ⟨u, hr, hrecalled⟩ := homeRead_normal (n := 8) hquiet h.acc.w.site hcls
  obtain ⟨_, _, _, _, _, hread⟩ := hrecalled.frame
  have hq' : tget u.resv g = some q := by rw [hread]; exact hq
  obtain ⟨resv, hset⟩ := setResv_frame u g { q with granted := true, since := u.cycle }
  have hresv : tget resv g = some { q with granted := true, since := u.cycle } := by
    rw [← tget_setResv (s := u) (q := { q with granted := true, since := u.cycle }) hne, hset]
  obtain ⟨_, _, _, _, _, hleave⟩ := leaveVisitor_frame (u.setResv g { q with granted := true, since := u.cycle }) sl h.acc
  generalize ht : (u.setResv g { q with granted := true, since := u.cycle }).leaveVisitor sl h.acc = t at hleave
  have htline : t.line? h.acc.w.key = some l := by
    rw [hleave, hset, hread]
    exact hl
  have hanswers : t.answers h.acc.w = true := by
    rw [State.answers, htline]
    simp [hlive, hgen, hemu]
  have hgrant : s.grantResv sl h.acc h.dst =
      (((t.answer h.acc.w (loadResult (.reg h.dst 8 false) (s.rd h.acc.ga 8)) true).noteReply h.acc.w.key t.nextId).makeReady
        h.acc.w.key).acquires h.acc.w.key := by
    have htoS : (loadResult (.reg h.dst 8 false) (s.rd h.acc.ga 8)).toS = false := by simp [hans, Answer.toS, hdst]
    simp only [State.grantResv, hr, hg, hq', ht, htline, hanswers, hkind, htoS, beq_self_eq_true, Bool.and_self, Bool.false_and,
      if_true, Bool.false_eq_true, if_false]
  obtain ⟨⟨_, hlines⟩, x, hx, hwt, hpc, hv⟩ := lineNow_answered (v := W (s.rdNat h.acc.ga 8)) t.nextId htline hheld hdst
  rw [hgrant, hans]
  exact ⟨x, hx, hwt, hpc, hv, by rw [hlines, hleave, hset]; exact congrArg _ hresv, by rw [hlines, hleave, hset, hread]⟩

end

/-! ## Conditional store (R157) -/

section

variable {m sl : Nat} {a : Acc} {v : Word}

/-- Whatever context stores, the step performs the access. -/
theorem exec_conditionalStore (harr : s.Arrives m sl a) (hk : a.k = .stc v) : exec (.conditionalStore m) s = .next
    (if s.heads (a.ga / 64) a.w.key then
      let p := (s.drop m).performWrite sl ((s.drop m).via a) a (leBytes 8 v.toNat)
      let t := match tget p.1.resv (a.ga / 64) with
        | some q => p.1.setResv (a.ga / 64) q.pass
        | none => p.1
      (t.reply sl a.w (Answer.p true)).ackWrite sl a.w a.tok p.2 a.leaf.durable none false false
    else
      let t := (s.drop m).send (.slice sl) (.line a.w.key) vnReply (.reply a.w (Answer.p false) false true a.tok)
      if a.leaf.durable then t.send (.slice sl) (.line a.w.key) vnReply (.dack a.w 0 none true) else t) := by
  have hexec : exec (.conditionalStore m) s = execConditionalStore m s := rfl
  rw [hexec, execConditionalStore, homeStep_of_arrives harr (by rw [hk])]
  simp only [hk, show (s.drop m).heads (a.ga / 64) a.w.key = s.heads (a.ga / 64) a.w.key from rfl] <;> rfl

/-- The head's store is performed, and its entry leaves the queue. -/
theorem conditionalStore_of_heads (harr : s.Arrives m sl a) (hk : a.k = .stc v) (hheads : s.heads (a.ga / 64) a.w.key = true)
    (hcls : a.leaf.cls = 0) (hquiet : QuietCores s) (hheld : tget s.heldQ (a.ga / 64) = none) (hpop : NoPops s) :
    ∃ t z, exec (.conditionalStore m) s = .next t ∧
      (∀ i, i < 8 → t.rdByte (a.ga + i) = (leBytes 8 v.toNat).getD i 0#8) ∧
      (∀ b, (b < a.ga ∨ a.ga + 8 ≤ b) → t.rdByte b = s.rdByte b) ∧
      (∀ q, tget s.resv (a.ga / 64) = some q → tget t.resv (a.ga / 64) =
        if q.entries.length = 1 then none else some { q with entries := q.entries.drop 1, granted := false }) ∧
      z ∈ t.net ∧ z.dst = .line a.w.key ∧ z.body = .reply a.w { regs := [], flags := Flags.none, p15 := some true } false false 0 := by
  have hwrote := performWrite_normal (s := s.drop m) hquiet hpop hheld hcls sl ((s.drop m).via a) (leBytes 8 v.toNat)
  have hexec := exec_conditionalStore harr hk
  simp only [hheads, if_true] at hexec
  generalize (s.drop m).performWrite sl ((s.drop m).via a) a (leBytes 8 v.toNat) = p at hwrote hexec
  obtain ⟨q, hq, hlen⟩ : ∃ q, tget s.resv (a.ga / 64) = some q ∧ 1 ≤ q.entries.length := by
    unfold State.heads at hheads
    split at hheads
    · exact absurd hheads Bool.false_ne_true
    · next q hq =>
      refine ⟨q, hq, List.length_pos_iff.mpr fun hnil => ?_⟩
      simp [ResvQ.head?, hnil] at hheads
  have hq' : tget p.1.resv (a.ga / 64) = some q := by rw [hwrote.resv]; exact hq
  obtain ⟨resv, hset⟩ := setResv_frame p.1 (a.ga / 64) q.pass
  have hack := Sends.ackWrite ((p.1.setResv (a.ga / 64) q.pass).reply sl a.w (Answer.p true)) sl a.w a.tok p.2
    a.leaf.durable none false false
  simp only [hq'] at hexec
  have hbytes (b : Nat) : (((p.1.setResv (a.ga / 64) q.pass).reply sl a.w (Answer.p true)).ackWrite sl a.w a.tok p.2 a.leaf.durable
      none false false).rdByte b = p.1.rdByte b := by
    rw [hack.beside.rdByte, hset]
    rfl
  obtain ⟨z, hz, hdst, hbody⟩ := exists_mem_net_send (p.1.setResv (a.ga / 64) q.pass) (.slice sl) (.line a.w.key) vnReply
    (.reply a.w (Answer.p true) false false 0)
  refine ⟨_, z, hexec, fun i hi => ?in_, fun b hb => ?out, fun q' hq'' => ?resv, hack.net hz, hdst, hbody⟩
  case in_ => exact (hbytes _).trans (hwrote.rdByte_in i (by rw [leBytes_length]; exact hi))
  case out => exact (hbytes b).trans (hwrote.rdByte_out b (by rw [leBytes_length]; exact hb))
  case resv =>
    obtain rfl : q = q' := Option.some.inj (hq.symm.trans hq'')
    rw [hack.beside.resv]
    refine (tget_setResv_pass p.1 (a.ga / 64) q).trans (if_congr ?_ rfl rfl)
    omega

end

end

/-- Settles O54: each clause is the equation of its step. -/
theorem reservationSteps : Obligations.ReservationSteps := by
  refine ⟨fun s m sl a d g q harr hk hg hrefused hheads hq hgranted hleft hne hroom => ?_,
    fun s m sl a d g harr hk hg hrefused hheads hleft => ?_,
    fun s g q h l hq hh hg hw => ⟨fun hinval => ?_, fun hgranted => ?_, fun hgranted hinval hasked hdown hgate hemu hquiet hcls _ hl hlive
      hgen hkind hheld hdst => ?_⟩,
    fun s m sl a v harr hk => ⟨fun hheads hcls _ hquiet hheld hpop => conditionalStore_of_heads harr hk hheads hcls hquiet hheld hpop,
      fun hheads hdur => ?_⟩,
    fun s g q hq hgranted => ⟨fun hearly => ?_, fun hlate => ?_⟩⟩
  · subst hg
    have hq' : tget ((s.drop m).unreserve a.w.key).resv (a.ga / 64) = _ :=
      (congrArg (tget · (a.ga / 64)) hleft).trans (tget_unreserveAt_of_heads hq hheads hne)
    have hwaits : s.headWaits (a.ga / 64) a.w.key = false := by simp [State.headWaits, hq, hgranted]
    obtain ⟨hmem, hlines, hnet, hresv⟩ := joined s m a.w.key (q := { q with
      entries := (q.entries.filter fun x => x.who.key != a.w.key) ++ [entryOf d a], granted := false }) (g := a.ga / 64) (by simp)
    exact ⟨_, exec_reservationEnqueue_room harr hk hrefused hwaits hq' hroom, hmem, hlines, hnet, hresv⟩
  · subst hg
    have hwaits : s.headWaits (a.ga / 64) a.w.key = false := by simp [State.headWaits, hheads]
    refine ⟨fun q hq _ => ⟨fun hroom => ?_, fun hfull hkey => ?_⟩, fun hq hroom => ?_⟩
    · obtain ⟨hmem, hlines, hnet, hresv⟩ := joined s m a.w.key (q := { q with entries := q.entries ++ [entryOf d a] }) (g := a.ga / 64)
        (by simp)
      exact ⟨_, exec_reservationEnqueue_room harr hk hrefused hwaits (hleft ▸ hq) hroom, hmem, hlines, hresv, hnet⟩
    · have hexec := exec_reservationEnqueue_full harr hk hrefused hwaits (hleft ▸ hq) hfull
      rw [accFault_ldrw hk hkey] at hexec
      exact ⟨_, _, _, _, hexec, hleft, rfl, rfl, rfl, rfl, rfl⟩
    · obtain ⟨hmem, hlines, -, hresv⟩ := joined s m a.w.key (q := { entries := [entryOf d a], granted := false, since := s.cycle })
        (g := a.ga / 64) (by simp)
      exact ⟨_, exec_reservationEnqueue_new harr hk hrefused hwaits (hleft ▸ hq) (hleft ▸ hroom), hmem, hlines, hresv⟩
  · exact exec_reservationGrant_waits hq hh (by rw [(storing_iff s g).mpr hinval, Bool.or_true])
  · exact exec_reservationGrant_waits hq hh (by rw [hgranted, Bool.true_or])
  · have hstoring : storing s g = false := by
      rw [Bool.eq_false_iff, ne_eq, storing_iff]
      exact fun ⟨y, hy, a, v, n, hbody⟩ => hinval y hy a v n hbody
    have hexec := exec_reservationGrant hq hh hcls hgate hdst
    simp only [hgranted, hstoring, asked_of_absent hasked, hdown, Bool.or_self, Bool.false_eq_true, if_false] at hexec
    rw [← hw] at hl hgen hemu ⊢
    have hne : q.entries ≠ [] := fun hnil => by simp [hnil] at hh
    obtain ⟨x, hx, hwt, hpc, hv, hresv, hmem⟩ := grantResv_reads (sl := s.homeAt h.who.part g) hq hne hg hquiet hcls hl hlive hgen
      hemu hkind hheld hdst
    exact ⟨_, x, hexec, hx, hwt, hpc, hv, hresv, hmem⟩
  · have hexec := exec_conditionalStore harr hk
    simp only [hheads, hdur, Bool.false_eq_true, if_false] at hexec
    exact ⟨_, _, hexec, rfl, rfl, rfl, rfl, rfl, rfl⟩
  · rw [exec_reservationTimeout hq hgranted, if_neg (by omega)]
  · obtain ⟨_, hset⟩ := setResv_frame s g q.pass
    refine ⟨_, (exec_reservationTimeout hq hgranted).trans (by rw [if_pos hlate]), by rw [hset], by rw [hset], tget_setResv_pass s g q⟩

end Sys2Proof
end

section
/-! O48: accesses at the home of a NORMAL page (R137 to R139, R143, R144, R147, R150, R166, R168, R224, R239). -/

namespace Sys2Proof

open Machine

variable {s : State} {m sl : Nat} {a : Acc}

/-- With nothing held at the line, a write lets no held request in (R316). -/
theorem serveAll_of_none (hheld : tget s.heldQ (a.ga / 64) = none) : s.serveAll sl a = s := by
  rw [State.serveAll, tgetD, hheld]
  rfl

/-- An access that no step of its own performs, where nothing is held. -/
theorem exec_homeAccess (harr : s.Arrives m sl a) (helse : a.elsewhere s = false)
    (hheld : tget (s.performAt m sl a).heldQ (a.ga / 64) = none) : exec (.homeAccess m) s = .next (s.performAt m sl a) := by
  have hexec : exec (.homeAccess m) s = execHomeAccess m s := rfl
  rw [hexec, execHomeAccess, homeArrival_of_arrives harr (by rw [helse]; rfl)]
  simp only [serveAll_of_none hheld, ite_self]

/-! ## Loads and prefetches -/

/-- A load that no visitor copy answers reads its home (R137). -/
theorem performLoad_home {via n : Nat} {dst : LdDst} {o : Order} {sc : Scope} (hquiet : QuietCores s) (hcls : a.leaf.cls = 0)
    (hvisitor : plainLoad o sc = false ∨ s.ownWritePending m via (a.ga / 64) = true ∨
      tget s.visitors (vkey (a.ga / 64) (dieOf a.w.site)) = none) :
    ∃ t, SameButCopies s t ∧ s.performLoad m sl via a dst n o sc = t.loadReply sl a dst (s.rd a.ga n) (acqWide o sc) := by
  obtain ⟨u, hread, hrecalled⟩ := homeRead_normal (n := n) hquiet a.w.site hcls
  have hold : (if plainLoad o sc && a.leaf.cls != 1 && a.leaf.cls != 3 && !(s.ownWritePending m via (a.ga / 64)) then
      tget s.visitors (vkey (a.ga / 64) (dieOf a.w.site)) else none) = none := by
    rcases hvisitor with h | h | h <;> simp [h]
  refine ⟨u.leaveVisitor sl a, hrecalled.frame.trans (leaveVisitor_frame u sl a), ?_⟩
  simp only [State.performLoad, hold, hread]

/-- A plain load that finds a visitor copy on its die reads that (R137, R225). -/
theorem performLoad_visitor {via n : Nat} {dst : LdDst} {o : Order} {sc : Scope} {v : Nat × List Byte} (hcls : a.leaf.cls = 0)
    (hv : tget s.visitors (vkey (a.ga / 64) (dieOf a.w.site)) = some v) (hplain : plainLoad o sc = true)
    (hown : s.ownWritePending m via (a.ga / 64) = false) :
    s.performLoad m sl via a dst n o sc = s.loadReply sl a dst ((v.2.drop (a.ga % 64)).take n) (acqWide o sc) := by
  have hold : (if plainLoad o sc && a.leaf.cls != 1 && a.leaf.cls != 3 && !(s.ownWritePending m via (a.ga / 64)) then
      tget s.visitors (vkey (a.ga / 64) (dieOf a.w.site)) else none) = some v := by
    simp [hplain, hown, hcls, hv]
  simp only [State.performLoad, hold]

/-- The bytes of a load go back as registers (R143). -/
theorem loadReply_regs {d : Reg} {j : Nat} {sx : Bool} {dst : LdDst} (hdst : dst = .reg d j sx ∨ dst = .pair d) (data : List Byte) (acq : Bool) :
    s.loadReply sl a dst data acq = s.reply sl a.w (loadResult dst data) acq := by
  rcases hdst with rfl | rfl <;> rfl

/-- A prefetch leaves copies alone behind (R168). -/
theorem performPref_frame (hquiet : QuietCores s) (hcls : a.leaf.cls = 0) : SameButCopies s (s.performPref sl a) := by
  obtain ⟨u, hread, hrecalled⟩ := homeRead_normal (n := 1) hquiet a.w.site hcls
  simp only [State.performPref, hread]
  exact hrecalled.frame.trans (leaveVisitor_frame u sl a)

/-! ## Writes -/

/-- Where the write of an access goes ahead: quiet cores, nothing held at the line, a NORMAL page. -/
structure Writable (s : State) (a : Acc) : Prop where
  quiet : QuietCores s
  pops : NoPops s
  held : tget s.heldQ (a.ga / 64) = none
  normal : a.leaf.cls = 0

theorem Writable.performWrite (h : Writable s a) (sl via : Nat) (data : List Byte) : Wrote s (s.performWrite sl via a data).1 a.ga data :=
  performWrite_normal h.quiet h.pops h.held h.normal sl via data

/-- A change beside memory that follows a write. -/
theorem Wrote.andThen {t u : State} {ga : Nat} {data : List Byte} (h : Wrote s t ga data) (hu : Beside t u) (hheld : u.heldQ = t.heldQ) :
    Wrote s u ga data := ⟨h.1.trans hu, by rw [hheld]; exact h.2⟩

/-- A change beside memory that a write follows. -/
theorem Wrote.after {t u : State} {ga : Nat} {data : List Byte} (h : Wrote t u ga data) (ht : Beside s t) : Wrote s u ga data :=
  ⟨(ht.wr ga data).trans h.1, h.2⟩

/-- A store (R138, R147). -/
theorem performStore_wrote (h : Writable s a) (via : Nat) (data : List Byte) (o : Order) (sc : Scope) :
    Wrote s (s.performStore sl via a data o sc) a.ga data ∧ ∃ grp, ∃ z ∈ (s.performStore sl via a data o sc).net, z.dst = .line a.w.key ∧
      z.body = .ack a.w a.tok grp (if a.leaf.durable && sc == .recov then none else if a.k.endsAtAck then some Answer.none else none)
        (scWide o sc) := by
  have hwrote := h.performWrite sl via data
  generalize hp : s.performWrite sl via a data = p at hwrote
  have hack := Sends.ackWrite p.1 sl a.w a.tok p.2 a.leaf.durable (if a.k.endsAtAck then some Answer.none else none) (scWide o sc)
    (sc == .recov)
  simp only [State.performStore, hp]
  exact ⟨hwrote.andThen hack.beside hack.held, p.2, exists_ack ..⟩

/-- A write of an engine operation (R239). -/
theorem performEng_wrote (h : Writable s a) (hpeer : a.leaf.peer = false) (via : Nat) (data : List Byte) (sc : Scope) :
    Wrote s (s.performEng sl via a data sc) a.ga data ∧ ∃ grp, ∃ z ∈ (s.performEng sl via a data sc).net,
      z.dst = .engine (clusterOf a.w.site) ∧ z.body = .eack a.w a.tok grp (narrow sc)
        (if sc = .recov && a.leaf.durable then some (partner (dieOfCl sl)) else none) (a.w.key == noKey) := by
  have hwrote := h.performWrite sl via data
  generalize hp : s.performWrite sl via a data = p at hwrote
  have heng : s.performEng sl via a data sc = p.1.send (.slice sl) (.engine (clusterOf a.w.site)) vnReply (.eack a.w a.tok p.2 (narrow sc)
      (if sc = .recov && a.leaf.durable then some (partner (dieOfCl sl)) else none) (a.w.key == noKey)) := by
    simp [State.performEng, hpeer, hp]
  rw [heng]
  exact ⟨hwrote.andThen rfl rfl, p.2, exists_mem_net_send ..⟩

/-- What a read at the home leaves to a write there. -/
theorem Writable.recalled {t : State} (h : Writable s a) (ht : Recalled s t) : Writable t a where
  quiet := ht.quiet h.quiet
  pops := by
    rw [NoPops, ht.frame.beside.1.lines]
    exact h.pops
  held := by
    rw [ht.frame.beside.2]
    exact h.held
  normal := h.normal

/-- The add of 1 to a completion word (R188). -/
theorem performCw_wrote (h : Writable s a) (via : Nat) (sc : Scope) :
    Wrote s (s.performCw sl via a sc) a.ga (leBytes 8 (s.rdNat a.ga 8 + 1)) ∧ ∃ grp, ∃ z ∈ (s.performCw sl via a sc).net,
      z.dst = .engine (clusterOf a.w.site) ∧ z.body = .eack a.w a.tok grp (narrow sc)
        (if sc = .recov && a.leaf.durable then some (partner (dieOfCl sl)) else none) true := by
  obtain ⟨u, hread, hrecalled⟩ := homeRead_normal (n := 8) h.quiet a.w.site h.normal
  have hwrote := (h.recalled hrecalled).performWrite sl via (leBytes 8 (s.rdNat a.ga 8 + 1))
  generalize hp : u.performWrite sl via a (leBytes 8 (s.rdNat a.ga 8 + 1)) = p at hwrote
  have hcw : s.performCw sl via a sc = p.1.send (.slice sl) (.engine (clusterOf a.w.site)) vnReply (.eack a.w a.tok p.2 (narrow sc)
      (if sc = .recov && a.leaf.durable then some (partner (dieOfCl sl)) else none) true) := by
    rw [← hp]
    simp only [State.performCw, hread]
    rfl
  rw [hcw]
  exact ⟨(hwrote.after hrecalled.frame.beside.1).andThen rfl rfl, p.2, exists_mem_net_send ..⟩

/-! ## Atomics (R150 to R153) -/

/-- The predictor of a core that comes back to a line it used last (R153). -/
def predicted (s : State) (a : Acc) : State :=
  if tget s.lastBy (a.ga / 64) == some a.w.site then
    s.modCore a.w.site fun c =>
      let i := predIdx a.w.asid a.va
      { c with pred := if 2 ≤ tgetD c.pred i 0 then tset c.pred i (tgetD c.pred i 0 - 1) else c.pred }
  else s

theorem predicted_beside (s : State) (a : Acc) : Beside s (predicted s a) ∧ (predicted s a).heldQ = s.heldQ := by
  unfold predicted
  split_ifs
  all_goals exact ⟨rfl, rfl⟩

theorem Writable.predicted (h : Writable s a) : Writable (predicted s a) a where
  quiet := by
    unfold Sys2Proof.predicted
    split_ifs
    · exact h.quiet.modCore fun _ => ⟨rfl, id, rfl⟩
    · exact h.quiet
  pops := by
    rw [NoPops, (predicted_beside s a).1.lines]
    exact h.pops
  held := by
    rw [(predicted_beside s a).2]
    exact h.held
  normal := h.normal

/-- What an atomic reads: its bytes, before and after the recalls of the read. -/
theorem amo_read (h : Writable s a) (n : Nat) : ∃ u, (predicted s a).homeRead a.w.site a n = (u, s.rd a.ga n) ∧ Beside s u ∧
    u.heldQ = s.heldQ ∧ Writable u a := by
  obtain ⟨u, hread, hrecalled⟩ := homeRead_normal (n := n) h.predicted.quiet a.w.site h.normal
  have hrd : (predicted s a).rd a.ga n = s.rd a.ga n :=
    List.map_congr_left fun i _ => (predicted_beside s a).1.rdByte (a.ga + i)
  exact ⟨u, hrd ▸ hread, (predicted_beside s a).1.trans hrecalled.frame.beside.1,
    hrecalled.frame.beside.2.trans (predicted_beside s a).2, h.predicted.recalled hrecalled⟩

section

variable {op : AmoOp} {y : AmoType} {src cmp : Nat} {dst : Option Reg} {o : Order} {sc : Scope}

/-- An atomic at its home, by whether it writes. -/
theorem performAmo_eq (via : Nat) {u : State} (hread : (predicted s a).homeRead a.w.site a (amoBytes y) = (u, s.rd a.ga (amoBytes y))) :
    s.performAmo sl via a op y src cmp dst o sc =
      let old := s.rdNat a.ga (amoBytes y)
      let ans := amoAnswer y dst old
      let waits := dst.isSome && (o == .rel || o == .sc)
      if amoWrites op y old cmp then
        let p := u.performWrite sl via a (leBytes (amoBytes y) (amoNew op y old src cmp))
        (if dst.isSome && !waits then p.1.reply sl a.w ans (acqWide o sc) else p.1).ackWrite sl a.w a.tok p.2 a.leaf.durable
          (if waits then some ans else none) (scWide o sc) (sc == .recov)
      else
        let t := u.send (.slice sl) (.line a.w.key) vnReply (.reply a.w ans (acqWide o sc) true a.tok)
        if a.leaf.durable then t.send (.slice sl) (.line a.w.key) vnReply (.dack a.w 0 none true) else t := by
  have heq : s.performAmo sl via a op y src cmp dst o sc =
      let r := (predicted s a).homeRead a.w.site a (amoBytes y)
      let old := leNat r.2
      let ans := amoAnswer y dst old
      let waits := dst.isSome && (o == .rel || o == .sc)
      if amoWrites op y old cmp then
        let p := r.1.performWrite sl via a (leBytes (amoBytes y) (amoNew op y old src cmp))
        (if dst.isSome && !waits then p.1.reply sl a.w ans (acqWide o sc) else p.1).ackWrite sl a.w a.tok p.2 a.leaf.durable
          (if waits then some ans else none) (scWide o sc) (sc == .recov)
      else
        let t := r.1.send (.slice sl) (.line a.w.key) vnReply (.reply a.w ans (acqWide o sc) true a.tok)
        if a.leaf.durable then t.send (.slice sl) (.line a.w.key) vnReply (.dack a.w 0 none true) else t := rfl
  rw [heq, hread]
  rfl

/-- An atomic that writes: the bytes of its type, and its answer at once or with the acknowledgement (R150, R152). -/
theorem performAmo_writes (h : Writable s a) (via : Nat) (hwrites : amoWrites op y (s.rdNat a.ga (amoBytes y)) cmp = true) :
    Wrote s (s.performAmo sl via a op y src cmp dst o sc) a.ga
        (leBytes (amoBytes y) (amoNew op y (s.rdNat a.ga (amoBytes y)) src cmp)) ∧
      (dst.isSome = true → o = .rlx ∨ o = .acq → ∃ z ∈ (s.performAmo sl via a op y src cmp dst o sc).net, z.dst = .line a.w.key ∧
        z.body = .reply a.w (amoAnswer y dst (s.rdNat a.ga (amoBytes y))) (acqWide o sc) false 0) ∧
      (dst.isSome = true → o = .rel ∨ o = .sc → (a.leaf.durable && sc == .recov) = false →
        ∃ z ∈ (s.performAmo sl via a op y src cmp dst o sc).net, z.dst = .line a.w.key ∧ ∃ grp,
          z.body = .ack a.w a.tok grp (some (amoAnswer y dst (s.rdNat a.ga (amoBytes y)))) (scWide o sc)) := by
  obtain ⟨u, hread, hbeside, -, hu⟩ := amo_read h (amoBytes y)
  have hwrote := hu.performWrite sl via (leBytes (amoBytes y) (amoNew op y (s.rdNat a.ga (amoBytes y)) src cmp))
  rw [performAmo_eq via hread]
  simp only [hwrites, if_true]
  generalize u.performWrite sl via a (leBytes (amoBytes y) (amoNew op y (s.rdNat a.ga (amoBytes y)) src cmp)) = p at hwrote
  generalize leBytes (amoBytes y) (amoNew op y (s.rdNat a.ga (amoBytes y)) src cmp) = data at hwrote ⊢
  generalize amoAnswer y dst (s.rdNat a.ga (amoBytes y)) = ans
  have hanswered (b : Bool) : Wrote s (if b then p.1.reply sl a.w ans (acqWide o sc) else p.1) a.ga data := by
    cases b
    · exact hwrote.after hbeside
    · exact (hwrote.after hbeside).andThen rfl rfl
  have hack := Sends.ackWrite
    (if dst.isSome && !(dst.isSome && (o == .rel || o == .sc)) then p.1.reply sl a.w ans (acqWide o sc) else p.1) sl a.w a.tok p.2
    a.leaf.durable (if dst.isSome && (o == .rel || o == .sc) then some ans else none) (scWide o sc) (sc == .recov)
  obtain ⟨z, hz, hzdst, hzbody⟩ := exists_ack
    (if dst.isSome && !(dst.isSome && (o == .rel || o == .sc)) then p.1.reply sl a.w ans (acqWide o sc) else p.1) sl a.w a.tok p.2
    a.leaf.durable (if dst.isSome && (o == .rel || o == .sc) then some ans else none) (scWide o sc) (sc == .recov)
  refine ⟨(hanswered _).andThen hack.beside hack.held, fun hdst ho => ?_, fun hdst ho hlate => ?_⟩
  · have hnow : (dst.isSome && !(dst.isSome && (o == .rel || o == .sc))) = true := by
      rcases ho with rfl | rfl <;> simp [hdst]
    rw [hnow, if_pos rfl] at hack ⊢
    obtain ⟨z, hz, hzdst, hzbody⟩ := exists_mem_net_send p.1 (.slice sl) (.line a.w.key) vnReply (.reply a.w ans (acqWide o sc) false 0)
    exact ⟨z, hack.net hz, hzdst, hzbody⟩
  · have hlater : (dst.isSome && (o == .rel || o == .sc)) = true := by
      rcases ho with rfl | rfl <;> simp [hdst]
    exact ⟨z, hz, hzdst, p.2, by rw [hzbody, hlate, hlater]; rfl⟩

/-- A comparison that fails writes nothing, and answers with the old value (R150). -/
theorem performAmo_fails (h : Writable s a) (via : Nat) (hfails : amoWrites op y (s.rdNat a.ga (amoBytes y)) cmp = false) :
    Beside s (s.performAmo sl via a op y src cmp dst o sc) ∧ (s.performAmo sl via a op y src cmp dst o sc).heldQ = s.heldQ ∧
      ∃ z ∈ (s.performAmo sl via a op y src cmp dst o sc).net, z.dst = .line a.w.key ∧
        z.body = .reply a.w (amoAnswer y dst (s.rdNat a.ga (amoBytes y))) (acqWide o sc) true a.tok := by
  obtain ⟨u, hread, hbeside, hheld, hu⟩ := amo_read h (amoBytes y)
  rw [performAmo_eq via hread]
  simp only [hfails, Bool.false_eq_true, if_false]
  obtain ⟨z, hz, hdst, hbody⟩ := exists_mem_net_send u (.slice sl) (.line a.w.key) vnReply
    (.reply a.w (amoAnswer y dst (s.rdNat a.ga (amoBytes y))) (acqWide o sc) true a.tok)
  split_ifs
  · exact ⟨hbeside.trans rfl, hheld, z, List.mem_append_left _ hz, hdst, hbody⟩
  · exact ⟨hbeside.trans rfl, hheld, z, hz, hdst, hbody⟩

end

/-! ## The copies of the calling core (R166) -/

/-- A lost write ends at its writer, and leaves the cores alone (R393). -/
theorem core_loseWrites (s : State) (src : Node) (ws : List Writer) (counted dur : Bool) (c : Nat) :
    (ws.foldl (fun s y => s.loseWrite src y counted dur) s).core c = s.core c := by
  induction ws generalizing s with
  | nil => rfl
  | cons w ws ih =>
    refine (ih (s.loseWrite src w counted dur)).trans ?_
    unfold State.loseWrite State.answerFault
    split_ifs <;> rfl

theorem core_wr (s : State) (ga : Nat) (bs : List Byte) (c : Nat) : (s.wr ga bs).core c = s.core c := by
  obtain ⟨_, _, h⟩ := State.wr_frame ga bs (s := s)
  rw [h]
  rfl

/-- What a core owns after a core gives up a line: nothing new, and its own nothing of that line. -/
theorem owned_giveUp (site c : Nat) (o x : Owned) (hx : x ∈ ((s.giveUp site o).core c).owned) :
    x ∈ (s.core c).owned ∧ (c = site → x.ga ≠ o.ga) := by
  have hfiltered : x ∈ ((s.modCore site fun c => { c with owned := c.owned.filter fun x => x.ga != o.ga }).core c).owned := by
    simp only [State.giveUp] at hx
    split_ifs at hx
    · exact hx
    · obtain ⟨_, hsub, hcore⟩ := (Recalled.noteSlice (s.modCore site fun c => { c with owned := c.owned.filter fun x => x.ga != o.ga })
        (s.homeAt (s.partOf site) o.ga) o.ga o.saved o.accs false).core c
      rw [hcore] at hx
      exact hsub hx
    · rwa [State.loseOwned, core_loseWrites, core_logEvent, core_wr] at hx
  by_cases hc : c = site
  · rw [hc, State.core_modCore_eq] at hfiltered
    obtain ⟨hmem, hne⟩ := List.mem_filter.mp hfiltered
    exact ⟨hc ▸ hmem, fun _ => by simpa using hne⟩
  · rw [State.core_modCore_ne _ _ hc] at hfiltered
    exact ⟨hfiltered, fun h => absurd h hc⟩

/-- After a list of lines given up. -/
theorem owned_giveUps (site c : Nat) (os : List Owned) (x : Owned) (hx : x ∈ ((os.foldl (fun s o => s.giveUp site o) s).core c).owned) :
    x ∈ (s.core c).owned ∧ (c = site → ∀ o ∈ os, x.ga ≠ o.ga) := by
  induction os generalizing s with
  | nil => exact ⟨hx, fun _ o ho => nomatch ho⟩
  | cons o os ih =>
    obtain ⟨hmem, hne⟩ := ih hx
    obtain ⟨hmem', hne'⟩ := owned_giveUp site c o x hmem
    refine ⟨hmem', fun hc o' ho' => ?_⟩
    rcases List.mem_cons.mp ho' with rfl | ho'
    · exact hne' hc
    · exact hne hc o' ho'

/-- After a core gives up all that it owns of a line, it owns nothing of it. -/
theorem owned_giveUps_line (site g : Nat) : ∀ x ∈ ((((s.core site).owned.filter fun o => o.ga == g).foldl (fun s o => s.giveUp site o) s).core
    site).owned, x.ga ≠ g := by
  intro x hx hg
  obtain ⟨hmem, hne⟩ := owned_giveUps site site _ x hx
  exact hne rfl x (List.mem_filter.mpr ⟨hmem, by simpa using hg⟩) rfl

/-- An invalidation of the calling core's copies (R166). -/
theorem performCinv_drops (hquiet : QuietCores s) : ∃ t, SameButCopies s t ∧ (∀ o ∈ (t.core a.w.site).owned, o.ga ≠ a.ga / 64) ∧
    s.performCinv sl a = t.reply sl a.w Answer.none := by
  have hgiven : Recalled s (((s.core a.w.site).owned.filter fun o => o.ga == a.ga / 64).foldl (fun s o => s.giveUp a.w.site o) s) :=
    Recalled.giveUps fun h => (hquiet.core a.w.site).2 fun hnil => h (by rw [hnil]; rfl)
  have hnone := owned_giveUps_line (s := s) a.w.site (a.ga / 64)
  have hstash : (s.core a.w.site).stashLine a.w.asid a.va = none := by rw [Core.stashLine, (hquiet.core a.w.site).1]; rfl
  simp only [State.performCinv, hstash]
  generalize ((s.core a.w.site).owned.filter fun o => o.ga == a.ga / 64).foldl (fun s o => s.giveUp a.w.site o) s = t at *
  split_ifs
  · exact ⟨_, (hgiven.trans (Recalled.tdel_visitors t _)).frame, hnone, rfl⟩
  · exact ⟨t, hgiven.frame, hnone, rfl⟩

/-! ## Every access -/

/-- A load is performed on its home or a visitor copy (R137). -/
theorem performAt_load {dst : LdDst} {n : Nat} {o : Order} {sc : Scope} (hk : a.k = .load dst n o sc) (hcls : a.leaf.cls = 0) :
    s.performAt m sl a = (s.drop m).performLoad m sl (s.via a) a dst n o sc := by
  have hne : a.leaf.cls ≠ 1 := by rw [hcls]; decide
  simp only [State.performAt, hk, State.appendRead, if_pos hne]
  rfl

/-- What the acknowledgement of a store brings (R147). -/
theorem storeEnds (data : List Byte) (o : Order) (sc : Scope) (late : Bool) :
    (if late then none else if (ReqKind.store data o sc).endsAtAck then some Answer.none else none) =
      if (o = .rel ∨ o = .sc) ∧ late = false then some Answer.none else none := by
  cases late <;> simp [ReqKind.endsAtAck]

/-- A write replaces its bytes and no other (R138). -/
theorem Wrote.bytes {t : State} {ga : Nat} {data : List Byte} (h : Wrote (s.drop m) t ga data) :
    (∀ i, i < data.length → t.rdByte (ga + i) = data.getD i 0#8) ∧
      ∀ b, (b < ga ∨ ga + data.length ≤ b) → t.rdByte b = s.rdByte b :=
  ⟨h.rdByte_in, h.rdByte_out⟩

/-- Settles O48: every access is the performance of its kind, and beside the bytes that it writes only copies and messages change. -/
theorem homeAccesses : Obligations.HomeAccesses := by
  intro s m sl a harr hcls hpeer hquiet hheld hpop
  have hw : Writable (s.drop m) a := ⟨hquiet, hpop, hheld, hcls⟩
  have hgo {t : State} (ht : s.performAt m sl a = t) (helse : a.elsewhere s = false) (hnone : tget t.heldQ (a.ga / 64) = none) :
      exec (.homeAccess m) s = .next t := ht ▸ exec_homeAccess harr helse (ht ▸ hnone)
  refine ⟨fun d n j sx o sc dst hdst hk => ?load, fun data o sc hk => ?store, fun data sc hk => ?eng, fun sc after hk hafter => ?engAdd,
    fun op y src cmp dst o sc hk => ?amo, fun hk => ?pref, fun hk => ?cinv⟩
  case load =>
    have helse : a.elsewhere s = false := by simp [Acc.elsewhere, hk, State.readsReplica, hcls]
    refine ⟨fun hvisitor => ?_, fun v hv hplain hown => ?_⟩
    · obtain ⟨t, ht, hload⟩ := performLoad_home (s := s.drop m) (m := m) (sl := sl) (n := n) (dst := dst) hw.quiet hcls hvisitor
      rw [loadReply_regs hdst] at hload
      obtain ⟨z, hz, hzdst, hzbody⟩ := exists_mem_net_send t (.slice sl) (.line a.w.key) vnReply
        (.reply a.w (loadResult dst ((s.drop m).rd a.ga n)) (acqWide o sc) false 0)
      have hheldt : tget t.heldQ (a.ga / 64) = none := by rw [ht.beside.2]; exact hheld
      exact ⟨_, z, hgo ((performAt_load hk hcls).trans hload) helse hheldt, fun b => ht.beside.1.rdByte b, ht.beside.1.lines, hz, hzdst,
        hzbody⟩
    · have hload := performLoad_visitor (s := s.drop m) (sl := sl) (n := n) (dst := dst) hcls hv hplain hown
      rw [loadReply_regs hdst] at hload
      exact ⟨_, _, hgo ((performAt_load hk hcls).trans hload) helse hheld, fun _ => rfl, rfl, rfl, rfl, rfl, rfl⟩
  case store =>
    obtain ⟨hwrote, grp, z, hz, hzdst, hzbody⟩ := performStore_wrote (sl := sl) hw ((s.drop m).via a) data o sc
    obtain ⟨hin, hout⟩ := hwrote.bytes
    refine ⟨_, z, grp, hgo (by simp only [State.performAt, hk]) (by simp [Acc.elsewhere, hk]) hwrote.2, hin, hout, hz, hzdst, ?_⟩
    rw [hzbody, hk, storeEnds]
  case eng =>
    obtain ⟨hwrote, grp, z, hz, hzdst, hzbody⟩ := performEng_wrote (sl := sl) hw hpeer ((s.drop m).via a) data sc
    obtain ⟨hin, hout⟩ := hwrote.bytes
    exact ⟨_, z, grp, hgo (by simp only [State.performAt, hk]) (by simp [Acc.elsewhere, hk]) hwrote.2, hin, hout, hz, hzdst, hzbody⟩
  case engAdd =>
    obtain ⟨hwrote, grp, z, hz, hzdst, hzbody⟩ := performCw_wrote (sl := sl) hw ((s.drop m).via a) sc
    obtain ⟨hin, hout⟩ := hwrote.bytes
    rw [leBytes_length] at hin hout
    exact ⟨_, z, grp, hgo (by simp only [State.performAt, hk]) (by simp [Acc.elsewhere, hk, hafter]) hwrote.2, hin, hout, hz, hzdst, hzbody⟩
  case amo =>
    have hat : s.performAt m sl a = (s.drop m).performAmo sl ((s.drop m).via a) a op y src cmp dst o sc := by
      simp only [State.performAt, hk]
    have helse : a.elsewhere s = false := by simp [Acc.elsewhere, hk]
    cases hwrites : amoWrites op y (s.rdNat a.ga (amoBytes y)) cmp with
    | true =>
      obtain ⟨hwrote, hnow, hlater⟩ := performAmo_writes (sl := sl) (op := op) (src := src) (dst := dst) (o := o) (sc := sc) hw
        ((s.drop m).via a) hwrites
      obtain ⟨hin, hout⟩ := hwrote.bytes
      rw [leBytes_length] at hin hout
      refine ⟨_, hgo hat helse hwrote.2, hout, hin, fun d hd ho => ?_, fun d hd ho _ hlate => hlater (by rw [hd]; rfl) ho hlate⟩
      obtain ⟨z, hz, hzdst, hzbody⟩ := hnow (by rw [hd]; rfl) ho
      exact ⟨z, hz, hzdst, _, _, hzbody⟩
    | false =>
      obtain ⟨hbeside, hheld', z, hz, hzdst, hzbody⟩ := performAmo_fails (sl := sl) (op := op) (src := src) (dst := dst) (o := o) (sc := sc) hw
        ((s.drop m).via a) hwrites
      exact ⟨_, hgo hat helse (by rw [hheld']; exact hheld), fun b _ => hbeside.rdByte b, fun i _ => hbeside.rdByte _,
        fun d _ _ => ⟨z, hz, hzdst, _, _, hzbody⟩, fun _ _ _ h => absurd h Bool.false_ne_true⟩
  case pref =>
    have hpref := performPref_frame (s := s.drop m) (sl := sl) hw.quiet hcls
    obtain ⟨hbeside, hheld'⟩ := hpref.beside
    refine ⟨_, hgo (by simp only [State.performAt, hk]) (by simp [Acc.elsewhere, hk]) (by rw [hheld']; exact hheld),
      fun b => hbeside.rdByte b, hbeside.lines, ?_⟩
    obtain ⟨_, _, _, _, _, h⟩ := hpref
    rw [h]
  case cinv =>
    obtain ⟨t, hframe, hnone, hcinv⟩ := performCinv_drops (s := s.drop m) (a := a) (sl := sl) hw.quiet
    obtain ⟨hbeside, hheld'⟩ := hframe.beside
    have hat : s.performAt m sl a = t.reply sl a.w Answer.none := by
      simp only [State.performAt, hk]
      exact hcinv
    have hnet : t.net = (s.drop m).net := by
      obtain ⟨_, _, _, _, _, h⟩ := hframe
      rw [h]
    refine ⟨_, _, hgo hat (by simp [Acc.elsewhere, hk]) ?_, fun b => hbeside.rdByte b, hbeside.lines, hnone, congrArg (· ++ [_]) hnet, rfl, rfl⟩
    exact (congrArg (tget · (a.ga / 64)) hheld').trans hheld

end Sys2Proof
end

section
/-! O49: translation, and the copies that a line has outside its home (R136, R153, R179, R180, R191, R229, R250, R252, R254). -/

namespace Sys2Proof

open Machine

variable {s : State}

/-! ## Requests at their slice (R136, R250, R254) -/

section

variable {m sl va tok : Nat} {w : Who} {k : ReqKind}

/-- A refused request of a context is answered with its fault (R254). -/
theorem refuse_of_context (hsilent : k.silent = false) (hkey : w.key ≠ noKey) (f : Nat × Nat) : ∃ rec_, s.refuse sl w va k tok f =
    s.send (.slice sl) (.line w.key) vnReply (.fault w
      { cls := f.1, sub := f.2, kind := k.kindSize.1, size := k.kindSize.2, faddr := W va } k.committed k.counts tok rec_ false) := by
  simp only [State.refuse, hsilent, Bool.false_eq_true, if_false]
  exact ⟨_, answerFault_of_context hkey⟩

/-- A request that the cache refuses. -/
theorem exec_translate_of_refused {f : Nat × Nat} (hreach : s.Reaches m sl w va k tok) (hown : k.ownStep = false)
    (hcheck : s.tcheck w.part w.asid w.priv va k.cat = some (.error f)) :
    exec (.translate m) s = .next ((s.drop m).refuse sl w va k tok f) := by
  obtain ⟨⟨x, hx, hdst, hbody⟩, hpath, hroute⟩ := hreach
  change execTranslate m s = _
  simp only [execTranslate, hx, hdst, hbody, hown, hpath, hroute, hcheck, Bool.false_eq_true, if_false]

/-- A request that it does not hold starts a walk while the slice has room for one (R250). -/
theorem exec_translate_walks (hreach : s.Reaches m sl w va k tok) (hown : k.ownStep = false)
    (hcheck : s.tcheck w.part w.asid w.priv va k.cat = none) (hroom : (s.walks sl w.asid va).1 < 16)
    (hpage : (s.walks sl w.asid va).2 = false) : exec (.translate m) s = .next (s.rebody m (.req w va k tok true)) := by
  obtain ⟨⟨x, hx, hdst, hbody⟩, hpath, hroute⟩ := hreach
  change execTranslate m s = _
  simp only [execTranslate, hx, hdst, hbody, hown, hpath, hroute, hcheck, hroom, hpage, Bool.false_eq_true, if_false, decide_true,
    Bool.not_false, Bool.and_self, if_true]

/-- An accepted load leaves for its home (R136). -/
theorem acceptReq_load {l : Leaf} {d : LdDst} {n : Nat} {o : Order} {sc : Scope} (hk : k = .load d n o sc)
    (hplace : s.placeVerdict w k l (l.ga va) = none) : s.acceptReq sl m w va k tok l =
      (s.drop m).send (.slice sl) (.slice (s.homeOfAcc w va k l (l.ga va))) regVn
        (.acc { w := w, va := va, ga := l.ga va, leaf := l, k := k, tok := tok, snooped := false }) := by
  subst hk
  simp only [State.acceptReq, fillVerdict, hplace, Option.or_none]
  rfl

/-- An accepted plain store counts where its page is durable, ends its context's wait, and leaves for its home (R138, R139). -/
theorem acceptReq_store {l : Leaf} {y : Line} {d : List Byte} {sc : Scope} (hk : k = .store d .rlx sc)
    (hplace : s.placeVerdict w k l (l.ga va) = none) (hy : s.line? w.key = some y) (hlive : y.life = .live)
    (hwt : y.wt = 0x10000001#32) (hheld : y.heldFaults = []) :
    ∃ ls, s.acceptReq sl m w va k tok l =
      ({ s.drop m with lines := tset ls w.key { (pdcCounted y l).ready s.gtime with touched := true } } : State).send (.slice sl)
        (.slice (s.homeOfAcc w va k l (l.ga va))) regVn
        (.acc { w := w, va := va, ga := l.ga va, leaf := l, k := k, tok := tok, snooped := false }) := by
  subst hk
  obtain ⟨ls, hcount, hls⟩ := modLine_pdc (g := l) (s := s.drop m) hy
  have hready := decWait_last (s := { s.drop m with lines := ls }) hls
    (by unfold pdcCounted; split <;> exact hlive) (.inl (by unfold pdcCounted; split <;> exact hwt))
    (by unfold pdcCounted; split <;> exact hheld)
  refine ⟨ls, ?_⟩
  simp only [State.acceptReq, fillVerdict, hplace, Option.or_none, ReqKind.counts, Bool.true_and, hcount, State.commitStt,
    State.acceptEnds, true_or, if_true, hready]
  rfl

/-- The walk of a request ends in a translation or a fault (R246, R250). -/
theorem exec_pageWalk {x : Msg} (hx : s.net.find? (fun y => y.id == m) = some x) (hdst : x.dst = .slice sl)
    (hbody : x.body = .req w va k tok true) : exec (.pageWalk m) s =
      match s.walk w.part w.asid w.priv va k.cat with
      | .ok (u, _) => .next (u.rebody m (.req w va k tok false))
      | .error f => .next ((s.drop m).refuse sl w va k tok f) := by
  change execPageWalk m s = _
  simp only [execPageWalk, hx, hdst, hbody] <;> rfl

end

/-- An invalidation drops the visitor copy of its die (R229). -/
theorem exec_visitorInvalidate {m grp g d via : Nat} {x : Msg} (hx : s.msg? m = some x) (hbody : x.body = .inval grp g d via) :
    exec (.visitorInvalidate m) s = .next ({ s.drop m with visitors := tdel s.visitors (vkey g d) } : State).settleOps := by
  obtain ⟨_, _, _, _, _⟩ := x
  subst hbody
  change execVisitorInvalidate m s = _
  simp only [execVisitorInvalidate, hx]

/-! ## Ownership (R153) -/

/-- A core gives up what it owns of a line. -/
theorem exec_ownerRecall (c l : Nat) : exec (.ownerRecall c l) s =
    .next (((s.core c).owned.filter fun o => o.ga == l).foldl (fun s o => s.giveUp c o) s) := rfl

/-- After every core but one has given up a line, no other owns it. -/
theorem owned_recallOwned (s : State) (g : Nat) (but : Option Nat) {c : Nat} (hc : but ≠ some c) :
    ∀ x ∈ ((s.recallOwned g but).core c).owned, x ∈ (s.core c).owned ∧ x.ga ≠ g := by
  have hstep (t : State) (e : Nat × Core) (x : Owned) (hx : x ∈ ((if but == some e.1 then t else
      (e.2.owned.filter fun o => o.ga == g).foldl (fun s o => s.giveUp e.1 o) t).core c).owned) :
      x ∈ (t.core c).owned ∧ (c = e.1 → x ∈ e.2.owned → x.ga ≠ g) := by
    split_ifs at hx with h
    · exact ⟨hx, fun hce => absurd (hce ▸ eq_of_beq h) hc⟩
    · obtain ⟨hmem, hne⟩ := owned_giveUps e.1 c _ x hx
      exact ⟨hmem, fun hce hown hg => hne hce x (List.mem_filter.mpr ⟨hown, by simpa using hg⟩) rfl⟩
  have hfold (es : Table Core) (t : State) (x : Owned) (hx : x ∈ ((es.foldl (fun s e => if but == some e.1 then s else
      (e.2.owned.filter fun o => o.ga == g).foldl (fun s o => s.giveUp e.1 o) s) t).core c).owned) :
      x ∈ (t.core c).owned ∧ ∀ e ∈ es, c = e.1 → x ∈ e.2.owned → x.ga ≠ g := by
    induction es generalizing t with
    | nil => exact ⟨hx, fun _ he => nomatch he⟩
    | cons e es ih =>
      obtain ⟨hmem, hrest⟩ := ih _ hx
      obtain ⟨hmem', hfirst⟩ := hstep t e x hmem
      exact ⟨hmem', fun e' he' => (List.mem_cons.mp he').elim (fun h => h ▸ hfirst) (hrest e')⟩
  intro x hx
  obtain ⟨hmem, hnone⟩ := hfold s.cores s x hx
  refine ⟨hmem, ?_⟩
  cases h : tget s.cores c with
  | none => simp [State.core, tgetD, h, Core.reset] at hmem
  | some y =>
    have hcore : s.core c = y := by rw [State.core, tgetD, h]; rfl
    exact hnone _ (mem_of_tget h) rfl (hcore ▸ hmem)

/-- No die keeps a visitor copy that was dropped. -/
theorem tget_dropVisitors (s : State) (g : Nat) {die : Nat} (hdie : die < 4) : tget (s.dropVisitors g).visitors (vkey g die) = none := by
  have hfilter (t : Table (Nat × List Byte)) : tget (t.filter fun e => e.1 / 4 != g) (vkey g die) = none := by
    induction t with
    | nil => rfl
    | cons e t ih =>
      rw [List.filter_cons]
      split_ifs with he
      · rw [tget_cons, if_neg fun h => ?_, ih]
        simp only [h, vkey, bne_iff_ne, ne_eq] at he
        omega
      · exact ih
  exact hfilter s.visitors

/-- A core that owns one more line. -/
def ownsAlso (o : Owned) (c : Core) : Core := { c with owned := (c.owned.filter fun x => x.ga != o.ga) ++ [o] }

/-- A core that takes ownership of a line owns it, and no other core owns more (R153). -/
theorem addOwned_owned (hquiet : QuietCores s) (site : Nat) (o : Owned) : ∃ t, Recalled s t ∧
    s.addOwned site o = t.modCore site (ownsAlso o) := by
  simp only [State.addOwned]
  split_ifs
  · exact ⟨s, Recalled.refl s, rfl⟩
  · refine ⟨_, Recalled.giveUps fun h => (hquiet.core site).2 fun hnil => h ?_, rfl⟩
    rw [hnil]
    rfl

/-- The lines that a core owns. -/
def ownedLines (s : State) (c : Nat) : List Nat := (s.core c).owned.map (·.ga)

section

variable {w : Who} {o : Owned} {va src cmp : Nat} {op : AmoOp} {y : AmoType} {d : Reg} {acq : Bool}

/-- What an atomic that its core executes writes (R150). -/
def localWritten (s : State) (o : Owned) (va : Nat) (op : AmoOp) (y : AmoType) (src cmp : Nat) : State :=
  let ga := o.ga * 64 + va % 64
  let old := s.rdNat ga (amoBytes y)
  if amoWrites op y old cmp then s.wr ga (leBytes (amoBytes y) (amoNew op y old src cmp)) else s

theorem localWritten_frame (s : State) (o : Owned) (va : Nat) (op : AmoOp) (y : AmoType) (src cmp : Nat) :
    ∃ mem lines, localWritten s o va op y src cmp = { s with mem := mem, lines := lines } := by
  simp only [localWritten]
  split_ifs
  · exact State.wr_frame ..
  · exact ⟨_, _, rfl⟩

theorem NoPops.localWritten (h : NoPops s) : NoPops (localWritten s o va op y src cmp) := by
  simp only [Sys2Proof.localWritten]
  split_ifs
  · exact NoPops.wr h _ _
  · exact h

/-- The line of an owned atomic is dirty, and the atomic among its writers, once it writes. -/
def dirtied (w : Who) (o : Owned) (va : Nat) (k : ReqKind) (writes : Bool) (x : Owned) : Owned :=
  if x.ga = o.ga ∧ writes then
    { x with dirty := true, writers := x.writers ++ [{ who := w, tok := 0, ends := false, va := va, k := k }] }
  else x

/-- A core whose owned lines change otherwise owns the same lines. -/
theorem ownedLines_modCore_map (t : State) (site : Nat) (f : Owned → Owned) (hf : ∀ x, (f x).ga = x.ga) (c : Nat) :
    ownedLines (t.modCore site fun c => { c with owned := c.owned.map f }) c = ownedLines t c := by
  unfold ownedLines
  by_cases h : c = site
  · rw [h, State.core_modCore_eq, List.map_map]
    exact List.map_congr_left fun x _ => hf x
  · rw [State.core_modCore_ne _ _ h]

/-- The core and memory after an atomic on an owned line. -/
def localTouched (s : State) (w : Who) (o : Owned) (va : Nat) (op : AmoOp) (y : AmoType) (src cmp : Nat) (d : Reg) (writes : Bool) : State :=
  (localWritten s o va op y src cmp).modCore w.site fun c =>
    { c with owned := c.owned.map (dirtied w o va (.amo op y src cmp (some d) .rlx .core true) writes) }

/-- A write may close a queue, and the answer leaves (R316). -/
def closedIf (s : State) (w : Who) (o : Owned) (va : Nat) (b : Body) (writes : Bool) : State :=
  (if writes then s.closeHeld (s.homeAt w.part o.ga) w va (o.ga * 64 + va % 64) else s).send (.core w.site) (.line w.key) vnReply b

theorem ownedLines_localTouched (writes : Bool) (c : Nat) : ownedLines (localTouched s w o va op y src cmp d writes) c = ownedLines s c := by
  obtain ⟨_, _, hframe⟩ := localWritten_frame s o va op y src cmp
  rw [localTouched, ownedLines_modCore_map _ _ _ (fun x => by unfold dirtied; split_ifs <;> rfl), hframe]
  rfl

theorem visitors_localTouched (writes : Bool) : (localTouched s w o va op y src cmp d writes).visitors = s.visitors := by
  obtain ⟨_, _, hframe⟩ := localWritten_frame s o va op y src cmp
  rw [localTouched, hframe]
  rfl

/-- An atomic that its core executes: the bytes of its type, and the old value in its answer; no core owns another line (R153). -/
theorem localAmo_executes (hpop : NoPops s) : ∃ t, Beside (localWritten s o va op y src cmp) t ∧ t.visitors = s.visitors ∧
    (∀ c, ownedLines t c = ownedLines s c) ∧ s.localAmo w o va op y src cmp (some d) acq = t.send (.core w.site) (.line w.key) vnReply
      (.reply w (amoAnswer y (some d) (s.rdNat (o.ga * 64 + va % 64) (amoBytes y))) acq false 0) := by
  have heq : s.localAmo w o va op y src cmp (some d) acq =
      closedIf (localTouched s w o va op y src cmp d (amoWrites op y (s.rdNat (o.ga * 64 + va % 64) (amoBytes y)) cmp)) w o va
        (.reply w (amoAnswer y (some d) (s.rdNat (o.ga * 64 + va % 64) (amoBytes y))) acq false 0)
        (amoWrites op y (s.rdNat (o.ga * 64 + va % 64) (amoBytes y)) cmp) := rfl
  rw [heq]
  generalize amoWrites op y (s.rdNat (o.ga * 64 + va % 64) (amoBytes y)) cmp = writes
  have hbeside : Beside (localWritten s o va op y src cmp) (localTouched s w o va op y src cmp d writes) := rfl
  have howned := ownedLines_localTouched (s := s) (w := w) (o := o) (va := va) (op := op) (y := y) (src := src) (cmp := cmp) (d := d) writes
  have hvisitors := visitors_localTouched (s := s) (w := w) (o := o) (va := va) (op := op) (y := y) (src := src) (cmp := cmp) (d := d) writes
  generalize localTouched s w o va op y src cmp d writes = t at hbeside howned hvisitors ⊢
  cases writes with
  | false => exact ⟨t, hbeside, hvisitors, howned, rfl⟩
  | true =>
    have hpopt : NoPops t := by
      rw [NoPops, hbeside.lines]
      exact hpop.localWritten
    obtain ⟨_, _, _, _, hclose, -, -⟩ := closeHeld_frame hpopt (t.homeAt w.part o.ga) w va (o.ga * 64 + va % 64)
    refine ⟨t.closeHeld (t.homeAt w.part o.ga) w va (o.ga * 64 + va % 64), ?_, ?_, fun c => ?_, rfl⟩
    · rw [hclose]
      exact hbeside.trans rfl
    · rw [hclose, ← hvisitors]
    · rw [hclose, ← howned c]
      rfl

end

section

variable {m sl src cmp : Nat} {a : Acc} {op : AmoOp} {y : AmoType} {d : Reg} {o : Order} {sc : Scope}

/-- A change of a line's tag changes no byte (R70). -/
theorem rdByte_modLine (s : State) (k : Nat) {f : Line → Line} (hf : ∀ l, (f l).bytes = l.bytes ∧ (f l).life = l.life) (b : Nat) :
    (s.modLine k f).rdByte b = s.rdByte b := by
  obtain ⟨ls, hframe⟩ := State.modLine_frame s k f
  have hmem : (s.modLine k f).mem = s.mem := by rw [hframe]
  by_cases h : b / 128 = k
  · rw [State.rdByte, State.rdByte, h, State.line?_modLine_eq, hmem]
    cases s.line? k with
    | none => rfl
    | some l =>
      obtain ⟨hbytes, hlife⟩ := hf l
      refine if_congr ?_ (congrArg (fun bs : List Byte => bs.getD (b % 128) 0#8) hbytes) rfl
      rw [← hlife]
  · exact rdByte_congr (State.line?_modLine_ne _ _ h) hmem

theorem NoPops.modLine (h : NoPops s) (k : Nat) {f : Line → Line} (hf : ∀ l, (f l).popWait = l.popWait) : NoPops (s.modLine k f) := by
  unfold State.modLine
  split
  · next l hl => exact h.setLine ((hf l).trans (NoPops.line? h hl))
  · exact h

/-- The line that an atomic takes over (R153). -/
def takenLine (s : State) (a : Acc) : Owned :=
  { asid := a.w.asid, va := a.va / 64 * 64, leaf := a.leaf, ga := a.ga / 64, saved := s.rd (a.ga / 64 * 64) 64, dirty := false, writers := [] }

/-- Every other copy of the line is recalled first. -/
def othersRecalled (s : State) (a : Acc) : State := (s.recallOwned (a.ga / 64) (some a.w.site)).dropVisitors (a.ga / 64)

theorem Recalled.othersRecalled (hquiet : QuietCores s) : Recalled s (othersRecalled s a) :=
  (Recalled.recallOwned hquiet _ _).trans (Recalled.dropVisitors ..)

/-- The core owns the line, and its write counts no more (R153). -/
def taken (s : State) (a : Acc) (f : Core → Core) : State :=
  ((({ ((othersRecalled s a).addOwned a.w.site (takenLine (othersRecalled s a) a)).modCore a.w.site f with
    lastBy := tset (((othersRecalled s a).addOwned a.w.site (takenLine (othersRecalled s a) a)).modCore a.w.site f).lastBy (a.ga / 64) a.w.site } :
      State).decPwc a.w.key).endOp a.tok)

/-- No byte has changed, the core alone owns the line, and no copy of it is left on a die. -/
theorem taken_owns (hquiet : QuietCores s) {f : Core → Core} (hf : ∀ c, (f c).owned = c.owned) :
    (∀ b, (taken s a f).rdByte b = s.rdByte b) ∧ (NoPops s → NoPops (taken s a f)) ∧
      a.ga / 64 ∈ ownedLines (taken s a f) a.w.site ∧ (∀ c, c ≠ a.w.site → a.ga / 64 ∉ ownedLines (taken s a f) c) ∧
      ∀ die, die < 4 → tget (taken s a f).visitors (vkey (a.ga / 64) die) = none := by
  have hothers := Recalled.othersRecalled (a := a) hquiet
  obtain ⟨t, ht, hadd⟩ := addOwned_owned (hothers.quiet hquiet) a.w.site (takenLine (othersRecalled s a) a)
  have hrecalled := hothers.trans ht
  let g := ownsAlso (takenLine (othersRecalled s a) a)
  generalize hu : ({ (t.modCore a.w.site g).modCore a.w.site f with lastBy := tset t.lastBy (a.ga / 64) a.w.site } : State) = u
  have htaken : taken s a f = (u.decPwc a.w.key).endOp a.tok := by
    rw [taken, hadd, ← hu]
    rfl
  obtain ⟨ls, hdec⟩ := State.modLine_frame u a.w.key fun l => { l with pwc := l.pwc - 1 }
  have hcore (c : Nat) : (taken s a f).core c = ((t.modCore a.w.site g).modCore a.w.site f).core c := by
    rw [htaken, State.decPwc, hdec, ← hu]
    rfl
  have hbeside : Beside s u := hrecalled.frame.beside.1.trans (hu ▸ rfl)
  refine ⟨fun b => ?_, fun hpop => ?_, ?_, fun c hc hmem => ?_, fun die hdie => ?_⟩
  · rw [htaken]
    exact (rdByte_modLine u a.w.key (f := fun l => { l with pwc := l.pwc - 1 }) (fun _ => ⟨rfl, rfl⟩) b).trans (hbeside.rdByte b)
  · rw [htaken]
    have hpopu : NoPops u := by
      rw [NoPops, hbeside.lines]
      exact hpop
    exact hpopu.modLine a.w.key fun _ => rfl
  · rw [ownedLines, hcore, State.core_modCore_eq, hf, State.core_modCore_eq]
    simp [g, ownsAlso, takenLine]
  · rw [ownedLines, hcore, State.core_modCore_ne _ _ hc, State.core_modCore_ne _ _ hc] at hmem
    obtain ⟨x, hx, hxg⟩ := List.mem_map.mp hmem
    obtain ⟨_, hsub, hct⟩ := (((Recalled.dropVisitors (s.recallOwned (a.ga / 64) (some a.w.site)) (a.ga / 64))).trans ht).core c
    rw [hct] at hx
    exact (owned_recallOwned s (a.ga / 64) (some a.w.site) (fun h => hc (Option.some.inj h).symm) x (hsub hx)).2 hxg
  · rw [htaken, State.decPwc, hdec, ← hu]
    exact ht.visitors _ (tget_dropVisitors _ _ hdie)

/-- The predictor of a core that takes a line from another (R153). -/
def contended (s : State) (a : Acc) (c : Core) : Core :=
  let i := predIdx a.w.asid a.va
  { c with pred := if s.ownedByOther (a.ga / 64) a.w.site then tset c.pred i (min 3 (tgetD c.pred i 0 + 1)) else c.pred }

/-- An atomic that asks for ownership: its core takes the line and executes it (R153). -/
theorem exec_ownershipRequest (harr : s.Arrives m sl a) (hk : a.k = .amo op y src cmp (some d) o sc true) (hown : s.ownable a = true)
    (hquiet : QuietCores s) : exec (.ownershipRequest m) s = .next ((taken (s.drop m) a (contended (s.drop m) a)).localAmo a.w
      (takenLine (othersRecalled (s.drop m) a) a) a.va op y src cmp (some d) (acqWide o sc)) := by
  change execOwnershipRequest m s = _
  rw [execOwnershipRequest, homeStep_of_arrives harr (by rw [hk]; exact hown)]
  simp only [hk, recallStashes_of_quiet (s := s.drop m) hquiet]
  rfl

/-- It makes its core the one owner, replaces the bytes of its type, and is answered with the old value. -/
theorem ownershipRequest_executes (harr : s.Arrives m sl a) (hk : a.k = .amo op y src cmp (some d) o sc true) (hown : s.ownable a = true)
    (hquiet : QuietCores s) (hpop : NoPops s) (hva : a.ga % 64 = a.va % 64) :
    ∃ t z, exec (.ownershipRequest m) s = .next t ∧ (∃ x ∈ (t.core a.w.site).owned, x.ga = a.ga / 64) ∧
      (∀ c, c ≠ a.w.site → ∀ x ∈ (t.core c).owned, x.ga ≠ a.ga / 64) ∧
      (∀ die, die < 4 → tget t.visitors (vkey (a.ga / 64) die) = none) ∧
      (∀ b, (b < a.ga ∨ a.ga + amoBytes y ≤ b) → t.rdByte b = s.rdByte b) ∧
      (∀ i, i < amoBytes y → t.rdByte (a.ga + i) =
        if amoWrites op y (s.rdNat a.ga (amoBytes y)) cmp = true then
          (leBytes (amoBytes y) (amoNew op y (s.rdNat a.ga (amoBytes y)) src cmp)).getD i 0#8
        else s.rdByte (a.ga + i)) ∧
      z ∈ t.net ∧ z.dst = .line a.w.key ∧
      z.body = .reply a.w (amoAnswer y (some d) (s.rdNat a.ga (amoBytes y))) (acqWide o sc) false 0 := by
  obtain ⟨hbytes, hpops, howner, hothers, hcopies⟩ := taken_owns (s := s.drop m) (a := a) (f := contended (s.drop m) a) hquiet fun _ => rfl
  have hexec := exec_ownershipRequest harr hk hown hquiet
  generalize taken (s.drop m) a (contended (s.drop m) a) = u at hbytes hpops howner hothers hcopies hexec
  have hga : (takenLine (othersRecalled (s.drop m) a) a).ga * 64 + a.va % 64 = a.ga := by
    rw [← hva]
    exact Nat.div_add_mod' a.ga 64
  generalize takenLine (othersRecalled (s.drop m) a) a = x at hga hexec
  have hold : u.rdNat a.ga (amoBytes y) = s.rdNat a.ga (amoBytes y) :=
    congrArg leNat (List.map_congr_left fun i _ => hbytes (a.ga + i))
  obtain ⟨t, hbeside, hvisitors, howned, hlocal⟩ := localAmo_executes (w := a.w) (o := x) (va := a.va) (op := op) (y := y) (src := src)
    (cmp := cmp) (d := d) (acq := acqWide o sc) (hpops hpop)
  rw [hlocal, hga, hold] at hexec
  obtain ⟨z, hz, hdst, hbody⟩ := exists_mem_net_send t (.core a.w.site) (.line a.w.key) vnReply
    (.reply a.w (amoAnswer y (some d) (s.rdNat a.ga (amoBytes y))) (acqWide o sc) false 0)
  have hwritten : localWritten u x a.va op y src cmp = if amoWrites op y (s.rdNat a.ga (amoBytes y)) cmp then
      u.wr a.ga (leBytes (amoBytes y) (amoNew op y (s.rdNat a.ga (amoBytes y)) src cmp)) else u := by
    simp only [localWritten, hga, hold]
  have howned' (c : Nat) : a.ga / 64 ∈ ownedLines t c ↔ a.ga / 64 ∈ ownedLines u c := by rw [howned]
  refine ⟨_, z, hexec, ?_, fun c hc x hx hxg => ?_, fun die hdie => ?_, fun b hb => ?_, fun i hi => ?_, hz, hdst, hbody⟩
  · exact List.mem_map.mp ((howned' _).mpr howner)
  · exact hothers c hc ((howned' c).mp (List.mem_map.mpr ⟨x, hx, hxg⟩))
  · exact (congrArg (tget · _) hvisitors).trans (hcopies die hdie)
  · rw [State.rdByte_send, hbeside.rdByte, hwritten]
    split_ifs
    · rw [State.rdByte_wr_out _ _ (by rw [leBytes_length]; exact hb), hbytes]
      rfl
    · exact hbytes b
  · rw [State.rdByte_send, hbeside.rdByte, hwritten]
    split_ifs
    · rw [State.rdByte_wr_in _ _ _ (by rw [leBytes_length]; exact hi), List.getD_eq_getElem]
    · exact hbytes _

end

/-! ## Stash lines (R179, R180) -/

section

variable {m sl ks n j : Nat} {a : Acc} {h : Handle} {d : Reg} {sx : Bool} {o : Order} {sc : Scope}

/-- The line of an access that its core's stash takes (R179). -/
def filledLine (s : State) (a : Acc) (ks : Nat) (h : Handle) : StashLine :=
  { asid := a.w.asid, va := a.va / 64 * 64, ga := a.ga / 64, ks := ks,
    at_ := ((s.core a.w.site).ks.getD ks KSlot.reset).stashPlace h a.va, dirty := false, leaf := a.leaf, writers := [] }

/-- A core with a stash line of the bytes given. -/
def stashes (x : StashLine) (bs : List Byte) (c : Core) : Core :=
  { c with
    scratch := memWrite c.scratch x.at_ bs
    stash := (c.stash.filter fun y => !(y.asid == x.asid && y.va == x.va)) ++ [x] }

/-- A fill of a stash line: the bytes of its home beside its core, and no byte of memory changes (R179, R180). -/
theorem fillStash_frame (hquiet : QuietCores s) (ks : Nat) (h : Handle) (a : Acc) : ∃ t, Recalled s t ∧
    s.fillStash a.w.site ks h a.w.asid a.va a.ga a.leaf =
      (t.modCore a.w.site (stashes (filledLine s a ks h) (s.rd (a.ga / 64 * 64) 64)), filledLine s a ks h) := by
  have hrecalled : Recalled s { s.recallOwned (a.ga / 64) none with
      visitors := tdel (s.recallOwned (a.ga / 64) none).visitors (vkey (a.ga / 64) (dieOf a.w.site)) } :=
    (Recalled.recallOwned hquiet _ _).trans (Recalled.tdel_visitors ..)
  refine ⟨_, hrecalled, ?_⟩
  obtain ⟨_, _, hcore⟩ := hrecalled.core a.w.site
  have hplace : filledLine s a ks h = filledLine { s.recallOwned (a.ga / 64) none with
      visitors := tdel (s.recallOwned (a.ga / 64) none).visitors (vkey (a.ga / 64) (dieOf a.w.site)) } a ks h := by
    rw [filledLine, filledLine, hcore]
  rw [hplace, ← hrecalled.rd]
  simp only [State.fillStash, recallStashes_of_quiet hquiet]
  rfl

/-- A load of a line that the stash may keep is filled from its home. -/
theorem exec_stashFill (harr : s.Arrives m sl a) (hk : a.k = .stashFill (.load (.reg d j sx) n o sc)) (hbias : s.hostBias a.w.part a.ga = false)
    (hkeeps : s.stashKeeps a.leaf a.ga = true) (hstash : (s.core a.w.site).stashHandle a.w.asid a.va = some (ks, h))
    (hquiet : QuietCores s) : ∃ t, Recalled (s.drop m) t ∧ exec (.stashFill m) s = .next
      ((t.modCore a.w.site (stashes (filledLine s a ks h) (s.rd (a.ga / 64 * 64) 64))).stashHit a.w (filledLine s a ks h) a.va
        (.load (.reg d j sx) n o sc) none) := by
  obtain ⟨t, ht, hfill⟩ := fillStash_frame (s := s.drop m) hquiet ks h a
  refine ⟨t, ht, ?_⟩
  have hnone : ((s.drop m).core a.w.site).stashLine a.w.asid a.va = none := by
    rw [Core.stashLine, (QuietCores.core (s := s.drop m) hquiet a.w.site).1]
    rfl
  obtain ⟨hmsg, -, hreach, -⟩ := id harr
  change execStashFill m s = _
  simp only [execStashFill, hmsg, hk, hreach, hbias, hkeeps, hstash, Option.isSome_none, Bool.false_eq_true, if_false, Bool.not_true]
  rw [homeStep_of_arrives harr rfl]
  simp only [hnone, hfill]
  rfl

/-- The bytes that stand behind a line that was just filled. -/
theorem memGet_stashes {c : Core} {x : StashLine} {bs : List Byte} {i : Nat} (hi : i < bs.length) :
    memGet (stashes x bs c).scratch (x.at_ + i) = bs.getD i 0#8 := by
  rw [stashes, memGet_memWrite_in _ _ _ _ hi, List.getD_eq_getElem]

/-- The fill answers the load with the bytes of the line. -/
theorem stashFill_answers (harr : s.Arrives m sl a) (hk : a.k = .stashFill (.load (.reg d j sx) n o sc))
    (hbias : s.hostBias a.w.part a.ga = false) (hkeeps : s.stashKeeps a.leaf a.ga = true) (hn : a.va % 64 + n ≤ 64)
    (hstash : (s.core a.w.site).stashHandle a.w.asid a.va = some (ks, h)) (hquiet : QuietCores s) :
    ∃ t y z, exec (.stashFill m) s = .next t ∧ (t.core a.w.site).stashLine a.w.asid a.va = some y ∧ y.ga = a.ga / 64 ∧ y.dirty = false ∧
      (∀ i, i < 64 → memGet (t.core a.w.site).scratch (y.at_ + i) = s.rdByte (a.ga / 64 * 64 + i)) ∧ (∀ b, t.rdByte b = s.rdByte b) ∧
      t.net = (s.drop m).net ++ [z] ∧ z.dst = .line a.w.key ∧
      z.body = .reply a.w (loadResult (.reg d j sx) (s.rd (a.ga / 64 * 64 + a.va % 64) n)) (acqWide o sc) false 0 := by
  obtain ⟨t, ht, hexec⟩ := exec_stashFill harr hk hbias hkeeps hstash hquiet
  generalize hu : t.modCore a.w.site (stashes (filledLine s a ks h) (s.rd (a.ga / 64 * 64) 64)) = u at hexec
  have hcore : u.core a.w.site = stashes (filledLine s a ks h) (s.rd (a.ga / 64 * 64) 64) (t.core a.w.site) := by
    rw [← hu, State.core_modCore_eq]
  have hscratch (i : Nat) (hi : i < 64) : memGet (u.core a.w.site).scratch ((filledLine s a ks h).at_ + i) = s.rdByte (a.ga / 64 * 64 + i) := by
    have hlen : i < (s.rd (a.ga / 64 * 64) 64).length := by simpa [State.rd] using hi
    rw [hcore, memGet_stashes hlen, List.getD_eq_getElem _ _ hlen]
    simp [State.rd]
  have hread : (u.core a.w.site).stashRead (filledLine s a ks h) a.va n = s.rd (a.ga / 64 * 64 + a.va % 64) n := by
    refine List.map_congr_left fun i hi => ?_
    have hi' := List.mem_range.mp hi
    rw [Nat.add_assoc, hscratch _ (by omega), Nat.add_assoc]
  have hhit : u.stashHit a.w (filledLine s a ks h) a.va (.load (.reg d j sx) n o sc) none = u.send (.core a.w.site) (.line a.w.key) vnReply
      (.reply a.w (loadResult (.reg d j sx) (s.rd (a.ga / 64 * 64 + a.va % 64) n)) (acqWide o sc) false 0) := by
    rw [← hread]
    rfl
  have hempty : (t.core a.w.site).stash = [] := ((ht.quiet hquiet).core a.w.site).1
  have hnet : u.net = (s.drop m).net := by
    obtain ⟨_, _, _, _, _, h⟩ := ht.frame
    rw [← hu, h]
    rfl
  rw [hhit] at hexec
  refine ⟨_, filledLine s a ks h, _, hexec, ?_, rfl, rfl, hscratch, fun b => ?_, congrArg (· ++ [_]) hnet, rfl, rfl⟩
  · rw [State.core_send, hcore, Core.stashLine, stashes, hempty]
    simp [filledLine]
  · rw [State.rdByte_send, ← hu, State.rdByte_modCore]
    exact ht.rdByte b

/-- A stash line that no copy has pinned is recalled (R180, R191). -/
theorem exec_stashRecall {c l : Nat} {x : StashLine} (hx : (s.core c).stash.find? (fun y => y.ga == l) = some x) (hpin : s.pinCount l = 0) :
    exec (.stashRecall c l) s = .next (s.recallStash c x false) := by
  change execStashRecall c l s = _
  simp only [execStashRecall, hx, hpin, Nat.lt_irrefl, if_false]

/-- A dirty stash line of a core that reaches the line's home is written back there, with its writers acknowledged (R180). -/
theorem writeBack_writes {c : Nat} {x : StashLine} (hpop : NoPops s) (hreach : s.unreached (dieOf c) (s.homeAt (s.partOf c) x.ga) = none) :
    Beside (s.wr (x.ga * 64) (memRead (s.core c).scratch x.at_ 64)) (s.writeBack c x) ∧
      ((s.writeBack c x).core c).stash = (s.core c).stash := by
  simp only [State.writeBack, hreach]
  generalize hw : s.wr (x.ga * 64) (memRead (s.core c).scratch x.at_ 64) = w
  have hcorew : w.core c = s.core c := hw ▸ core_wr ..
  have hpopw : NoPops w := hw ▸ NoPops.wr hpop _ _
  have hinval := Sends.invalidate w (s.homeAt (s.partOf c) x.ga) ((s.part (s.partOf c)).tslice x.asid x.va) x.ga [0, 1, 2, 3] s.nextId
  generalize w.invalidate (s.homeAt (s.partOf c) x.ga) ((s.part (s.partOf c)).tslice x.asid x.va) x.ga [0, 1, 2, 3] s.nextId = u₁ at hinval ⊢
  generalize (x.writers.map fun wr =>
    ({ w := wr.who, va := wr.va, ga := x.ga * 64 + wr.va % 64, leaf := x.leaf, k := wr.k, tok := wr.tok, snooped := false } : Acc)) = ws
  have hnoted := Recalled.noteSlice u₁ (s.homeAt (s.partOf c) x.ga) x.ga (s.rd (x.ga * 64) 64) ws x.leaf.durable
  generalize u₁.noteSlice (s.homeAt (s.partOf c) x.ga) x.ga (s.rd (x.ga * 64) 64) ws x.leaf.durable = u₂ at hnoted ⊢
  have hacked := Sends.foldl (f := fun (s' : State) (wr : Writer) => s'.ackWrite (s.homeAt (s.partOf c) x.ga) wr.who wr.tok s.nextId
    x.leaf.durable (if wr.ends then some Answer.none else none) (scWide wr.k.ordering.1 wr.k.ordering.2) (wr.k.ordering.2 == .recov))
    (fun _ _ => Sends.ackWrite ..) x.writers u₂
  generalize x.writers.foldl _ u₂ = u₃ at hacked ⊢
  have hmirrored := Sends.noteMirror u₃ (s.homeAt (s.partOf c) x.ga) x.ga x.leaf.durable
  have hsent := hacked.trans hmirrored
  generalize u₃.noteMirror (s.homeAt (s.partOf c) x.ga) x.ga x.leaf.durable = u₄ at hsent ⊢
  have hbeside : Beside w u₄ := (hinval.beside.trans hnoted.frame.beside.1).trans hsent.beside
  have hpop₄ : NoPops u₄ := by
    rw [NoPops, hbeside.lines]
    exact hpopw
  have hstash : (u₄.core c).stash = (s.core c).stash := by
    obtain ⟨_, _, hcore⟩ := hnoted.core c
    rw [hsent.core, hcore, hinval.core, hcorew]
  obtain ⟨_, _, _, _, hclose, -, -⟩ := closeHeld_frame hpop₄ (s.homeAt (s.partOf c) x.ga)
    { noWho with part := s.partOf c, asid := x.asid } x.va (x.ga * 64)
  rw [hclose]
  exact ⟨hbeside.trans rfl, hstash⟩

/-- A core without a stash line. -/
def unstashes (x : StashLine) (c : Core) : Core := { c with stash := c.stash.filter fun y => y != x }

/-- A line recalled for a write: what happens to its bytes, and the line is gone. -/
theorem recallStash_eq (s : State) (c : Nat) (x : StashLine) : s.recallStash c x false =
    (if !x.dirty then s else if (s.core c).serves then s.writeBack c x else s.loseStash c x).modCore c (unstashes x) := rfl

/-- A line recalled from a core leaves its stash, and a dirty one of a serving core is in memory (R180). -/
theorem recallStash_drops {c : Nat} {x : StashLine} (hpop : NoPops s)
    (hdirty : x.dirty = true → (s.core c).serves = true ∧ s.unreached (dieOf c) (s.homeAt (s.partOf c) x.ga) = none) :
    ((s.recallStash c x false).core c).stash = (s.core c).stash.filter (fun y => y != x) ∧
      Beside (if x.dirty then s.wr (x.ga * 64) (memRead (s.core c).scratch x.at_ 64) else s) (s.recallStash c x false) := by
  rw [recallStash_eq, State.core_modCore_eq, unstashes]
  cases hd : x.dirty with
  | false => exact ⟨rfl, rfl⟩
  | true =>
    obtain ⟨hserves, hreach⟩ := hdirty hd
    obtain ⟨hbeside, hstash⟩ := writeBack_writes hpop hreach
    rw [if_neg (by decide), if_pos hserves, if_pos rfl]
    generalize s.writeBack c x = t at hbeside hstash ⊢
    exact ⟨by rw [hstash], hbeside.trans rfl⟩

end

/-- Settles O49: each clause is the equation of its step, and the copies recalled on the way change no byte. -/
theorem translationSteps : Obligations.TranslationSteps := by
  refine ⟨fun s m sl va tok w k hreach hown => ⟨fun l d n o sc hcheck hk hplace => ?load, fun l d sc y hcheck hk hplace hy hlive hwt hheld =>
      ?store, fun f hcheck hsilent hkey => ?refused, fun hcheck hroom hpage => exec_translate_walks hreach hown hcheck hroom hpage⟩,
    fun s m sl va tok x w k hx hdst hbody => ⟨fun u l hwalk => ?walked, fun f hwalk hsilent hkey => ?walkFault⟩,
    fun s m grp g d via x hx hbody => exec_visitorInvalidate hx hbody,
    fun s c l => ⟨_, exec_ownerRecall c l, owned_giveUps_line c l, fun hserves => ?ownerRecall⟩,
    fun s m sl src cmp a op y d o sc harr hk hown hquiet hpop hva _ => ownershipRequest_executes harr hk hown hquiet hpop hva,
    fun s m sl ks n j a h d sx o sc harr hk hbias hkeeps hn hstash hquiet => stashFill_answers harr hk hbias hkeeps hn hstash hquiet,
    fun s c l x hx hpin hdirty hpop => ?stashRecall⟩
  case load =>
    have hexec := exec_translate_of_cached hreach hown hcheck
    rw [acceptReq_load hk hplace] at hexec
    exact ⟨_, _, hexec, rfl, rfl, rfl, rfl, rfl⟩
  case store =>
    have hexec := exec_translate_of_cached hreach hown hcheck
    obtain ⟨ls, haccept⟩ := acceptReq_store (m := m) (sl := sl) (tok := tok) hk hplace hy hlive hwt hheld
    rw [haccept] at hexec
    refine ⟨_, _, _, hexec, rfl, rfl, rfl, tget_tset_eq .., rfl, ?_⟩
    unfold pdcCounted
    cases l.durable <;> exact ⟨rfl, rfl, rfl, rfl⟩
  case refused =>
    obtain ⟨rec_, hrefuse⟩ := refuse_of_context (s := s.drop m) (sl := sl) (va := va) (tok := tok) hsilent hkey f
    have hexec := exec_translate_of_refused hreach hown hcheck
    rw [hrefuse] at hexec
    exact ⟨_, _, hexec, rfl, rfl, rfl, rfl, rec_, rfl⟩
  case walked => rw [exec_pageWalk hx hdst hbody, hwalk]
  case walkFault =>
    obtain ⟨rec_, hrefuse⟩ := refuse_of_context (s := s.drop m) (sl := sl) (va := va) (tok := tok) hsilent hkey f
    have hexec := exec_pageWalk hx hdst hbody
    rw [hwalk] at hexec
    exact ⟨_, _, hexec.trans (congrArg Host.Outcome.next hrefuse), rfl, rfl, rfl, rec_, rfl⟩
  case ownerRecall =>
    obtain ⟨_, _, _, _, _, h⟩ := (Recalled.giveUps (os := (s.core c).owned.filter fun o => o.ga == l) fun _ => hserves).frame
    rw [h]
    exact ⟨rfl, rfl⟩
  case stashRecall =>
    have hga : x.ga = l := by simpa using List.find?_some hx
    obtain ⟨hstash, hbeside⟩ := recallStash_drops hpop hdirty
    refine ⟨_, exec_stashRecall hx hpin, hstash, fun i hi => ?_, fun b hb => ?_⟩
    · rw [hbeside.rdByte]
      split_ifs
      · rw [State.rdByte_wr_in _ _ i (by simpa [memRead] using hi)]
        simp [memRead]
      · rfl
    · rw [hbeside.rdByte]
      split_ifs
      · exact State.rdByte_wr_out _ _ (by simpa [memRead] using hb)
      · rfl

end Sys2Proof
end

section
/-! What recalls, walks and writes at a home leave of the context lines, whatever copies the cores keep (R152, R180, R250, R316). -/

namespace Sys2Proof

open Machine

/-- A line is there that holds no fault, and its eight registers are there (R372). -/
def CalmAt (s : State) (k : Nat) : Prop := ∃ l, s.line? k = some l ∧ l.heldFaults = [] ∧ l.v.length = 8

/-- No line is new, no request is held at a line where none was, no `qpop` is held that was not, and no line loses its registers or
gains a held fault. -/
structure KeepsLines (s t : State) : Prop where
  absent : ∀ k, s.line? k = none → t.line? k = none
  held : ∀ g, tget s.heldQ g = none → tget t.heldQ g = none
  pops : NoPops s → NoPops t
  calm : ∀ k, CalmAt s k → CalmAt t k

/-- A change of a line that lets no `qpop` wait, drops no register and holds no fault. -/
structure KeepsLine (l x : Line) : Prop where
  pops : l.popWait = none → x.popWait = none
  calm : l.heldFaults = [] ∧ l.v.length = 8 → x.heldFaults = [] ∧ x.v.length = 8

namespace KeepsLines

variable {s t u : State}

theorem of_lines (h : t.lines = s.lines) (hheld : ∀ g, tget s.heldQ g = none → tget t.heldQ g = none) : KeepsLines s t := by
  have hline (k : Nat) : t.line? k = s.line? k := congrArg (fun x => tget x k) h
  exact ⟨fun k hk => (hline k).trans hk, hheld, fun hs => by rwa [NoPops, h], fun k ⟨l, hl, hcalm⟩ => ⟨l, (hline k).trans hl, hcalm⟩⟩

theorem refl (s : State) : KeepsLines s s := of_lines rfl fun _ => id

theorem trans (hst : KeepsLines s t) (htu : KeepsLines t u) : KeepsLines s u :=
  ⟨fun k => htu.absent k ∘ hst.absent k, fun g => htu.held g ∘ hst.held g, htu.pops ∘ hst.pops, fun k => htu.calm k ∘ hst.calm k⟩

/-- A change beside the lines that another follows. -/
theorem after (htu : KeepsLines t u) (h : t.lines = s.lines) (hheld : t.heldQ = s.heldQ) : KeepsLines s u :=
  (of_lines h fun _ hg => hheld ▸ hg).trans htu

theorem foldl {α : Type} {f : State → α → State} (hf : ∀ t x, KeepsLines t (f t x)) (l : List α) (s : State) :
    KeepsLines s (l.foldl f s) := by
  induction l generalizing s with
  | nil => exact refl s
  | cons x l ih => exact (hf s x).trans (ih _)

/-- A line changed in place. -/
theorem setLine {k : Nat} {l x : Line} (hl : s.line? k = some l) (hx : KeepsLine l x) : KeepsLines s (s.setLine k x) where
  absent j hj := by
    have hne : j ≠ k := fun h => by rw [h, hl] at hj; cases hj
    rw [State.line?_setLine_ne s x hne, hj]
  held _ := id
  pops hs := hs.setLine (hx.pops (hs.line? hl))
  calm j := by
    rintro ⟨y, hy, hcalm⟩
    by_cases h : j = k
    · subst h
      cases hl.symm.trans hy
      exact ⟨_, State.line?_setLine_eq .., hx.calm hcalm⟩
    · exact ⟨y, (State.line?_setLine_ne s x h).trans hy, hcalm⟩

theorem modLine (k : Nat) {f : Line → Line} (hf : ∀ l, KeepsLine l (f l)) : KeepsLines s (s.modLine k f) := by
  unfold State.modLine
  split
  · next l hl => exact setLine hl (hf l)
  · exact refl s

/-- Bytes written, some of them perhaps a line's (R70). -/
theorem wr (s : State) (ga : Nat) (bs : List Byte) : KeepsLines s (s.wr ga bs) := by
  induction bs generalizing s ga with
  | nil => exact refl s
  | cons b bs ih =>
    refine trans ?_ (ih (s.wrByte ga b) (ga + 1))
    unfold State.wrByte
    split
    · next l hl =>
      split_ifs
      · exact setLine hl ⟨id, fun h => ⟨h.1, rfl⟩⟩
      · exact of_lines rfl fun _ => id
    · exact of_lines rfl fun _ => id

/-- The wait of a line ends (R63). -/
theorem makeReady (s : State) (k : Nat) : KeepsLines s (s.makeReady k) := by
  refine modLine k fun l => ⟨fun _ => ?_, fun h => ?_⟩
  · unfold Line.takeHeld
    split
    · rfl
    · split_ifs <;> rfl
  · have hready : (l.ready s.gtime).heldFaults = [] := h.1
    rw [Line.takeHeld, hready]
    exact h

/-- An answer writes registers and predicates of its line (R68). -/
theorem answer (s : State) (w : Who) (a : Answer) (mem : Bool) : KeepsLines s (s.answer w a mem) := by
  have hreg (t : State) (x : Reg × Word) : KeepsLines t (t.answerReg w mem x.1 x.2) := by
    unfold State.answerReg
    split_ifs
    · exact modLine _ fun l => ⟨id, fun h => ⟨h.1, by rw [List.length_set, h.2]⟩⟩
    · exact of_lines rfl fun _ => id
  have htrace (t : State) : KeepsLines t (t.tracePred w.key) := by
    unfold State.tracePred
    split
    · split
      · exact of_lines rfl fun _ => id
      · exact refl t
      · exact refl t
    · exact refl t
  have hflags (t : State) : KeepsLines t (t.modLine w.key fun l => l.orFlags a.flags) := modLine _ fun l => ⟨id, id⟩
  have hpred (t : State) (b : Bool) : KeepsLines t (t.modLine w.key fun l => l.setPred 15 b) := modLine _ fun l => ⟨id, id⟩
  unfold State.answer
  split
  · exact (((foldl hreg a.regs s).trans (hflags _)).trans (hpred _ _)).trans (htrace _)
  · exact (foldl hreg a.regs s).trans (hflags _)

/-- An entry in the log is beside the lines. -/
theorem logEvent (s : State) (src : LogSrc) (cls sub detail : Nat) : KeepsLines s (s.logEvent src cls sub detail) := by
  obtain ⟨_, h⟩ := logEvent_frame s src cls sub detail
  rw [h]
  exact of_lines rfl fun _ => id

/-- Messages, and copies dropped. -/
theorem of_sends (h : Sends s t) : KeepsLines s t := of_lines h.beside.lines fun _ hg => h.held ▸ hg

theorem of_copies (h : SameButCopies s t) : KeepsLines s t := of_lines h.beside.1.lines fun _ hg => h.beside.2 ▸ hg

theorem answerFault (s : State) (n : Node) (w : Who) (f : Flt) (async counted : Bool) (tok : Nat) (rec_ : Option (List Byte)) (dur : Bool) :
    KeepsLines s (s.answerFault n w f async counted tok rec_ dur) := by
  unfold State.answerFault
  split_ifs
  all_goals exact of_lines rfl fun _ => id

/-- A held `qpop` that ends becomes READY (R326). -/
theorem closePop (s : State) (w : Who) (va ga : Nat) : KeepsLines s (s.closePop w va ga) := by
  unfold State.closePop
  split
  · split
    · split_ifs
      · exact (answer ..).trans (makeReady ..)
      · exact refl s
    · exact refl s
  · exact refl s

theorem closeHeld (s : State) (sl : Nat) (w : Who) (va ga : Nat) : KeepsLines s (s.closeHeld sl w va ga) := by
  have hfail (t : State) (h : HeldReq) : KeepsLines t (t.failHeld sl h) := by
    unfold State.failHeld
    split
    · exact of_lines rfl fun _ => id
    · exact answerFault ..
  simp only [State.closeHeld]
  split_ifs
  · refine trans ?_ (closePop ..)
    have hdel : KeepsLines s { s with heldQ := tdel s.heldQ (ga / 64) } := of_lines rfl fun _ => tget_tdel_of_none
    exact hdel.trans (foldl hfail _ _)
  · exact refl s

theorem loseWrite (s : State) (src : Node) (x : Writer) (counted dur : Bool) (sub : Nat) : KeepsLines s (s.loseWrite src x counted dur sub) := by
  unfold State.loseWrite
  split_ifs
  · exact of_lines rfl fun _ => id
  all_goals exact answerFault ..

theorem loseWrites (s : State) (src : Node) (xs : List Writer) (counted dur : Bool) (sub : Nat) :
    KeepsLines s (xs.foldl (fun s x => s.loseWrite src x counted dur sub) s) := foldl (fun _ _ => loseWrite ..) xs s

/-- A dirty stash line written at its home, or lost (R180, R393). -/
theorem writeBack (s : State) (site : Nat) (x : StashLine) : KeepsLines s (s.writeBack site x) := by
  unfold State.writeBack
  simp only
  split
  · exact loseWrites ..
  · exact ((((wr ..).trans (of_sends (Sends.invalidate ..))).trans (of_copies (Recalled.noteSlice ..).frame)).trans
      (of_sends ((Sends.foldl (fun _ _ => Sends.ackWrite ..) _ _).trans (Sends.noteMirror ..)))).trans (closeHeld ..)

theorem recallStash (s : State) (site : Nat) (x : StashLine) (keep : Bool) : KeepsLines s (s.recallStash site x keep) := by
  have hdirty : KeepsLines s (if !x.dirty then s else if (s.core site).serves then s.writeBack site x else s.loseStash site x) := by
    split_ifs
    · exact refl s
    · exact writeBack ..
    · unfold State.loseStash
      exact (logEvent ..).trans (loseWrites ..)
  exact hdirty.trans (of_lines rfl fun _ => id)

theorem recallStashes (s : State) (g : Nat) (but : Option Nat) (write : Bool) : KeepsLines s (s.recallStashes g but write) := by
  refine foldl (fun t e => ?_) _ s
  split_ifs
  · exact refl t
  · refine foldl (fun t x => ?_) _ t
    split_ifs
    · exact recallStash ..
    · exact refl t

theorem giveUp (s : State) (site : Nat) (o : Owned) : KeepsLines s (s.giveUp site o) := by
  have hlost (t : State) : KeepsLines t (t.loseOwned site o) := by
    unfold State.loseOwned
    exact ((wr ..).trans (logEvent ..)).trans (loseWrites ..)
  unfold State.giveUp
  simp only
  split_ifs
  · exact of_lines rfl fun _ => id
  · exact after (of_copies (Recalled.noteSlice ..).frame) rfl rfl
  · exact after (hlost _) rfl rfl

theorem recallOwned (s : State) (g : Nat) (but : Option Nat) : KeepsLines s (s.recallOwned g but) := by
  refine foldl (fun t e => ?_) _ s
  split_ifs
  · exact refl t
  · exact foldl (fun t o => giveUp ..) _ t

theorem recalled (s : State) (g : Nat) : KeepsLines s (recalled s g) := (recallStashes ..).trans (recallOwned ..)

theorem storeLine (s : State) (home via ga : Nat) (data : List Byte) (dies : List Nat) : KeepsLines s (s.storeLine home via ga data dies).1 :=
  ((recalled s (ga / 64)).trans (wr ..)).trans (of_sends (Sends.invalidate ..))

/-- A write at a home that no device register takes (R138). -/
theorem performWrite {a : Acc} (hcls : a.leaf.cls ≠ 3) (s : State) (sl via : Nat) (data : List Byte) :
    KeepsLines s (s.performWrite sl via a data).1 := by
  simp only [State.performWrite, hcls, decide_false, Bool.false_and, Bool.false_eq_true, if_false]
  have hclosed (t : State) : KeepsLines t (({ t with lastBy := tset t.lastBy (a.ga / 64) a.w.site } : State).closeHeld sl a.w a.va a.ga) :=
    after (closeHeld ..) rfl rfl
  refine trans ?_ (hclosed _)
  exact ((storeLine ..).trans (of_copies (Recalled.noteSlice ..).frame)).trans (of_sends (Sends.noteMirror ..))

/-! ## Walks (R250) -/

theorem entryRead {part sl ga x : Nat} (h : s.entryRead part sl ga = .ok (t, x)) : KeepsLines s t := by
  unfold State.entryRead at h
  split at h
  · cases h
  · cases h
    exact (recallStashes ..).trans (recallOwned ..)

theorem entryOr (s : State) (part sl ga x : Nat) : KeepsLines s (s.entryOr part sl ga x) :=
  (storeLine ..).trans (of_copies (Recalled.noteSlice ..).frame)

theorem walkLevels {part sl table va : Nat} {levels : List Nat} {r : Nat × Nat × Nat} (h : s.walkLevels part sl levels table va = .ok (t, r)) :
    KeepsLines s t := by
  induction levels generalizing s table with
  | nil => cases h
  | cons level levels ih =>
    rw [State.walkLevels] at h
    split at h
    · cases h
    · next u x hread =>
      split_ifs at h
      · cases h
        exact entryRead hread
      · exact (entryRead hread).trans (ih h)

theorem walkTables {part sl asid va : Nat} {r : Nat × Nat × Nat} (h : s.walkTables part sl asid va = .ok (t, r)) : KeepsLines s t := by
  unfold State.walkTables at h
  split at h
  · cases h
  · next u e hread =>
    split_ifs at h
    exact (entryRead hread).trans (walkLevels h)

theorem tfill (s : State) (part asid va : Nat) (l : Leaf) (a : Bool) : KeepsLines s (s.tfill part asid va l a) := of_lines rfl fun _ => id

theorem contigFill (s : State) (part asid va at_ : Nat) : KeepsLines s (s.contigFill part asid va at_) := by
  refine foldl (fun t i => ?_) _ s
  split
  · exact refl t
  · next u x hread =>
    split_ifs
    · exact entryRead hread
    · exact (entryRead hread).trans (tfill ..)

theorem walk {part asid priv va : Nat} {c : Cat} {l : Leaf} (h : s.walk part asid priv va c = .ok (t, l)) : KeepsLines s t := by
  unfold State.walk at h
  simp only at h
  split at h
  · unfold State.walkRom at h
    split at h
    · cases h
    · split at h
      · cases h
      · cases h
        exact tfill ..
  · split at h
    · cases h
    · next u x level at_ hwalk =>
      split at h
      · cases h
      · cases h
        refine (walkTables hwalk).trans ?_
        generalize (x ||| 2 ^ 9 ||| if c.writes = true then 2 ^ 8 else 0) = y
        split_ifs
        · exact ((tfill ..).trans (contigFill ..))
        · exact ((entryOr ..).trans (tfill ..)).trans (contigFill ..)
        · exact tfill ..
        · exact (entryOr ..).trans (tfill ..)

theorem xlate {part asid priv va : Nat} {c : Cat} {l : Leaf} (h : s.xlate part asid priv va c = .ok (t, l)) : KeepsLines s t := by
  unfold State.xlate at h
  split at h
  · cases h
    exact refl s
  · cases h
  · split at h
    · cases h
    · next u l hwalk =>
      split at h
      · cases h
      · cases h
        exact walk hwalk

theorem leafAt (s : State) (w : Who) (c : Cat) (va : Nat) : KeepsLines s (s.leafAt w c va).1 := by
  unfold State.leafAt
  split
  · next t l h => exact xlate h
  · exact refl s

end KeepsLines

/-- A queue's entry lies on no DEVICE page (R254, R316). -/
theorem cls_of_leafVerdict {priv : Nat} {l : Leaf} (h : leafVerdict priv .entryPush l = none) : l.cls ≠ 3 := by
  intro hcls
  simp only [leafVerdict, classAdmits, hcls, prot12] at h
  split_ifs at h
  simp_all

section

variable {s t : State} {part asid priv va : Nat} {c : Cat} {l : Leaf}

/-- A cached translation that is used has passed the checks of R254. -/
theorem verdict_of_tcheck (h : s.tcheck part asid priv va c = some (.ok l)) : leafVerdict priv c l = none := by
  unfold State.tcheck at h
  split at h
  · cases h
  · split at h
    · cases h
    · next hverdict =>
      split_ifs at h
      split at h
      · cases h
      · cases h
        exact hverdict

/-- So has one that a walk ends in; the walk itself sets D alone. -/
theorem verdict_of_walk (h : s.walk part asid priv va c = .ok (t, l)) : ∃ x, leafVerdict priv c x = none ∧ x.cls = l.cls := by
  unfold State.walk at h
  simp only at h
  split at h
  · unfold State.walkRom at h
    split at h
    · cases h
    · split at h
      · cases h
      · next hverdict =>
        cases h
        exact ⟨_, hverdict, rfl⟩
  · split at h
    · cases h
    · split at h
      · cases h
      · next hverdict =>
        cases h
        exact ⟨_, hverdict, rfl⟩

/-- A translation that succeeds has passed the checks of R254, whether it was cached or walked. -/
theorem verdict_of_xlate (h : s.xlate part asid priv va c = .ok (t, l)) : ∃ x, leafVerdict priv c x = none ∧ x.cls = l.cls := by
  unfold State.xlate at h
  split at h
  · next hcheck =>
    cases h
    exact ⟨_, verdict_of_tcheck hcheck, rfl⟩
  · cases h
  · split at h
    · cases h
    · next hwalk =>
      split at h
      · cases h
      · cases h
        exact verdict_of_walk hwalk

end

theorem leafAt_cls (s : State) (w : Who) (va : Nat) : (s.leafAt w .entryPush va).2.cls ≠ 3 := by
  unfold State.leafAt
  split
  · next t l h =>
    obtain ⟨x, hverdict, hcls⟩ := verdict_of_xlate h
    exact hcls ▸ cls_of_leafVerdict hverdict
  · simp [leafOf, fld]

/-- An entry written at its home (R316). -/
theorem KeepsLines.poke (s : State) (w : Who) (va : Nat) (data : List Byte) : KeepsLines s (s.poke w .entryPush va data) := by
  unfold State.poke
  refine foldl (fun t x => ?_) _ s
  have hleaf := leafAt t w .entryPush x.1
  have hcls := leafAt_cls t w x.1
  generalize t.leafAt w .entryPush x.1 = r at hleaf hcls
  exact hleaf.trans (performWrite (by exact hcls) ..)

end Sys2Proof
end

section
/-! A push at a queue's home: the descriptor written, and its waiter woken (R312, R316). -/

namespace Sys2Proof

open Machine

/-! ## The bytes of a descriptor (R312) -/

section

variable {bs new : List Byte} {i o n : Nat}

/-- A field below the bytes replaced. -/
theorem leField_patchBytes_below (hi : i ≤ bs.length) (ho : o + n ≤ i) : leField (patchBytes bs i new) o n = leField bs o n := by
  have htake : ((bs.take i).drop o).take n = (bs.drop o).take n := by
    rw [List.drop_take, List.take_take, Nat.min_eq_left (by omega)]
  have hlen : o + n ≤ (bs.take i).length := by rw [List.length_take]; omega
  rw [leField, leField, ← htake, patchBytes, List.append_assoc, List.drop_append_of_le_length (by omega),
    List.take_append_of_le_length (by rw [List.length_drop]; omega)]

/-- The number that the bytes replaced begin with. -/
theorem leField_patchBytes_first (x : Nat) (hi : i ≤ bs.length) : leField (patchBytes bs i (leBytes n x ++ new)) i n = x % 256 ^ n := by
  have hlen : (bs.take i).length = i := by rw [List.length_take]; omega
  rw [leField, patchBytes, List.append_assoc, List.drop_left' hlen, List.append_assoc, List.take_left' (leBytes_length ..), leNat_leBytes]

end

section

variable {d : Desc} {bs : List Byte}

theorem indices_length (hbs : bs.length = 64) (hlen : d.len.length = 16) :
    (patchBytes bs 16 (leBytes 4 (d.widx % 2 ^ 32) ++ leBytes 4 (d.ridx % 2 ^ 32) ++ d.len)).length = 64 := by
  rw [patchBytes_length _ _ _ (by simp [hbs, hlen]), hbs]

theorem patch_length (hbs : bs.length = 64) (hlen : d.len.length = 16) : (d.patch bs).length = 64 := by
  have hindices := indices_length hbs hlen
  rw [Desc.patch, patchBytes_length _ _ _ (by rw [hindices, leBytes_length]; omega), hindices]

/-- The write index of a descriptor written. -/
theorem parseDesc_patch_widx (hbs : bs.length = 64) (hlen : d.len.length = 16) : (parseDesc (d.patch bs)).widx = d.widx % 2 ^ 32 := by
  have hindices := indices_length hbs hlen
  change leField (patchBytes _ 40 _) 16 4 = _
  rw [leField_patchBytes_below (by omega) (by omega), List.append_assoc, leField_patchBytes_first _ (by omega)]
  exact Nat.mod_mod _ _

end

section

variable {s t : State} {a : Acc} {d : Desc}

theorem rd_length (ga n : Nat) : (s.rd ga n).length = n := by simp [State.rd]

/-- The lengths of a descriptor are those of the sixteen entries of a mailbox. -/
theorem desc_len_length (ga : Nat) : (s.desc ga).len.length = 16 := by simp [State.desc, parseDesc, State.rd]

theorem desc_congr {ga : Nat} (h : ∀ i, i < 64 → t.rdByte (ga / 64 * 64 + i) = s.rdByte (ga / 64 * 64 + i)) : t.desc ga = s.desc ga := by
  have hrd : t.rd (ga / 64 * 64) 64 = s.rd (ga / 64 * 64) 64 := List.map_congr_left fun i hi => h i (List.mem_range.mp hi)
  rw [State.desc, State.desc, hrd]

/-- A descriptor written at its home (R312). -/
theorem setDesc_widx (hcls : a.leaf.cls ≠ 3) (hpop : NoPops s) (hlen : d.len.length = 16) (sl : Nat) :
    ((s.setDesc sl a d).desc a.ga).widx = d.widx % 2 ^ 32 := by
  have hwidx := parseDesc_patch_widx (rd_length (s := s) (a.ga / 64 * 64) 64) hlen
  have hlength := patch_length (rd_length (s := s) (a.ga / 64 * 64) 64) hlen
  have hwrote := (performWrite_beside (s := s) (a := { a with ga := a.ga / 64 * 64 }) hcls
    ((KeepsLines.recalled s _).pops hpop) sl (s.via a) (d.patch (s.rd (a.ga / 64 * 64) 64))).1
  have hrd : (s.setDesc sl a d).rd (a.ga / 64 * 64) 64 = d.patch (s.rd (a.ga / 64 * 64) 64) := by
    refine List.ext_getElem (by rw [hlength, rd_length]) fun i _ hi => ?_
    have hget : ((s.setDesc sl a d).rd (a.ga / 64 * 64) 64)[i]'(by rw [rd_length]; omega) = (s.setDesc sl a d).rdByte (a.ga / 64 * 64 + i) := by
      simp [State.rd]
    exact hget.trans ((hwrote.rdByte _).trans (State.rdByte_wr_in _ _ i hi))
  rw [State.desc, hrd, hwidx]

theorem fst_ne_of_tget_none {α : Type} {x : Table α} {k : Nat} {e : Nat × α} (h : tget x k = none) (he : e ∈ x) : e.1 ≠ k := by
  induction x with
  | nil => exact nomatch he
  | cons y x ih =>
    rw [tget_cons] at h
    split_ifs at h with hk
    rcases List.mem_cons.mp he with rfl | he
    · exact hk
    · exact ih h he

/-- A waiter woken is a line that was there (R76). -/
theorem wakeCid_frame {k : Nat} (hk : s.line? k = none) (part cid : Nat) :
    (∃ lines, s.wakeCid part cid = { s with lines := lines }) ∧ (s.wakeCid part cid).line? k = none := by
  unfold State.wakeCid
  split
  · exact ⟨⟨_, rfl⟩, hk⟩
  · next key l hl =>
    have hne : k ≠ key := (fst_ne_of_tget_none hk (List.mem_of_find?_eq_some hl)).symm
    split_ifs
    · have hready : (s.makeReady key).line? k = none := (State.line?_modLine_ne _ _ hne).trans hk
      obtain ⟨_, hlines⟩ : ∃ lines, s.makeReady key = { s with lines := lines } := State.modLine_frame ..
      unfold State.acquires
      split
      · exact ⟨⟨_, by rw [hlines]; rfl⟩, (tget_tset_ne _ _ hne).trans hready⟩
      · exact ⟨⟨_, hlines⟩, hready⟩
    · exact ⟨⟨_, rfl⟩, (State.line?_setLine_ne _ _ hne).trans hk⟩

/-- A descriptor after a push (R316). -/
def pushed (d : Desc) (len : Option Nat) : Desc :=
  { d with
    widx := d.widx + 1
    len := match len with
      | some n => d.len.set (d.widx % 16) (BitVec.ofNat 8 n)
      | none => d.len
    waiter := 0 }

theorem pushed_len (hlen : d.len.length = 16) (len : Option Nat) : (pushed d len).len.length = 16 := by
  cases len
  · exact hlen
  · exact (List.length_set ..).trans hlen

/-- A push writes the entry and the descriptor, and wakes the waiter. -/
theorem pushEntry_eq (sl : Nat) (w : Who) (data : List Byte) (len : Option Nat) : s.pushEntry sl a w d data len =
    let t := (s.poke w .entryPush (d.entry d.widx) data).setDesc sl a (pushed d len)
    if d.waiter = 0 then t else t.wakeCid a.w.part (d.waiter % 2 ^ 47) := rfl

theorem KeepsLines.setDesc (hcls : a.leaf.cls ≠ 3) (s : State) (sl : Nat) (d : Desc) : KeepsLines s (s.setDesc sl a d) :=
  performWrite (a := { a with ga := a.ga / 64 * 64 }) hcls ..

/-- An entry pushed at a queue whose descriptor is part of no context line (R316). -/
theorem pushEntry_widx (hcls : a.leaf.cls ≠ 3) (hline : s.line? (a.ga / 128) = none) (hpop : NoPops s) (hlen : d.len.length = 16)
    (sl : Nat) (w : Who) (data : List Byte) (len : Option Nat) :
    ((s.pushEntry sl a w d data len).desc a.ga).widx = (d.widx + 1) % 2 ^ 32 := by
  have hpoke := KeepsLines.poke s w (d.entry d.widx) data
  rw [pushEntry_eq]
  generalize s.poke w .entryPush (d.entry d.widx) data = u at hpoke
  have hwidx := setDesc_widx hcls (hpoke.pops hpop) (pushed_len hlen len) sl
  have hline := (KeepsLines.setDesc hcls u sl (pushed d len)).absent _ (hpoke.absent _ hline)
  generalize u.setDesc sl a (pushed d len) = v at hwidx hline
  simp only
  split_ifs
  · exact hwidx
  · obtain ⟨⟨lines, hwoken⟩, hnone⟩ := wakeCid_frame hline a.w.part (d.waiter % 2 ^ 47)
    have hbyte (i : Nat) (hi : i < 64) : (v.wakeCid a.w.part (d.waiter % 2 ^ 47)).rdByte (a.ga / 64 * 64 + i) =
        v.rdByte (a.ga / 64 * 64 + i) := by
      have hkey : (a.ga / 64 * 64 + i) / 128 = a.ga / 128 := by omega
      exact rdByte_congr (by rw [hkey, hnone, hline]) (by rw [hwoken])
    rw [desc_congr hbyte, hwidx]
    rfl

/-- A push leaves nothing held where nothing was. -/
theorem pushEntry_held (hcls : a.leaf.cls ≠ 3) {k : Nat} (hline : s.line? k = none) {g : Nat} (hheld : tget s.heldQ g = none)
    (sl : Nat) (w : Who) (data : List Byte) (len : Option Nat) : tget (s.pushEntry sl a w d data len).heldQ g = none := by
  rw [pushEntry_eq]
  have hkeeps := (KeepsLines.poke s w (d.entry d.widx) data).trans (KeepsLines.setDesc hcls _ sl (pushed d len))
  generalize (s.poke w .entryPush (d.entry d.widx) data).setDesc sl a (pushed d len) = v at hkeeps
  simp only
  split_ifs
  · exact hkeeps.held g hheld
  · obtain ⟨⟨lines, hwoken⟩, -⟩ := wakeCid_frame (hkeeps.absent k hline) a.w.part (d.waiter % 2 ^ 47)
    rw [hwoken]
    exact hkeeps.held g hheld

end

end Sys2Proof
end

section
/-! What is on its way, and which copies the slices hold, decides no byte and no line that a recall leaves (R14, R180, R393). -/

namespace Sys2Proof

open Machine

/-- What is on its way, and the copies that the slices hold. -/
structure Traffic where
  net : List Msg
  nextId : Nat
  slices : Table SliceLine
  visitors : Table (Nat × List Byte)
  hostHeld : Table HostHold

def withTraffic (s : State) (x : Traffic) : State :=
  { s with net := x.net, nextId := x.nextId, slices := x.slices, visitors := x.visitors, hostHeld := x.hostHeld }

/-- The states differ in these alone. -/
def SameButTraffic (s t : State) : Prop := ∃ x, t = withTraffic s x

namespace SameButTraffic

variable {s t u : State}

theorem of_eq {net : List Msg} {nextId : Nat} {slices : Table SliceLine} {visitors : Table (Nat × List Byte)} {hostHeld : Table HostHold}
    (h : t = { s with net := net, nextId := nextId, slices := slices, visitors := visitors, hostHeld := hostHeld }) : SameButTraffic s t :=
  ⟨⟨net, nextId, slices, visitors, hostHeld⟩, h⟩

theorem refl (s : State) : SameButTraffic s s := of_eq rfl

theorem symm (h : SameButTraffic s t) : SameButTraffic t s := by
  obtain ⟨_, rfl⟩ := h
  exact of_eq (net := s.net) (nextId := s.nextId) (slices := s.slices) (visitors := s.visitors) (hostHeld := s.hostHeld) rfl

theorem trans (hst : SameButTraffic s t) (htu : SameButTraffic t u) : SameButTraffic s u := by
  obtain ⟨_, rfl⟩ := hst
  obtain ⟨y, rfl⟩ := htu
  exact ⟨y, rfl⟩

/-- Two steps that change the traffic alone leave what was the same the same. -/
theorem around {s' t' : State} (h : SameButTraffic s t) (hs : SameButTraffic s s') (ht : SameButTraffic t t') : SameButTraffic s' t' :=
  (hs.symm.trans h).trans ht

theorem foldl {α : Type} {f : State → α → State} (hf : ∀ {s t} x, SameButTraffic s t → SameButTraffic (f s x) (f t x)) (l : List α)
    (h : SameButTraffic s t) : SameButTraffic (l.foldl f s) (l.foldl f t) := by
  induction l generalizing s t with
  | nil => exact h
  | cons x l ih => exact ih (hf x h)

/-! ### What reads the same -/

theorem lines (h : SameButTraffic s t) : t.lines = s.lines := by obtain ⟨_, rfl⟩ := h; rfl
theorem mem (h : SameButTraffic s t) : t.mem = s.mem := by obtain ⟨_, rfl⟩ := h; rfl
theorem cores (h : SameButTraffic s t) : t.cores = s.cores := by obtain ⟨_, rfl⟩ := h; rfl
theorem heldQ (h : SameButTraffic s t) : t.heldQ = s.heldQ := by obtain ⟨_, rfl⟩ := h; rfl
theorem core (h : SameButTraffic s t) : t.core = s.core := by obtain ⟨_, rfl⟩ := h; rfl
theorem line? (h : SameButTraffic s t) : t.line? = s.line? := by obtain ⟨_, rfl⟩ := h; rfl
theorem part (h : SameButTraffic s t) : t.part = s.part := by obtain ⟨_, rfl⟩ := h; rfl
theorem partOf (h : SameButTraffic s t) : t.partOf = s.partOf := by obtain ⟨_, rfl⟩ := h; rfl
theorem homeAt (h : SameButTraffic s t) : t.homeAt = s.homeAt := by obtain ⟨_, rfl⟩ := h; rfl
theorem unreached (h : SameButTraffic s t) : t.unreached = s.unreached := by obtain ⟨_, rfl⟩ := h; rfl
theorem rd (h : SameButTraffic s t) : t.rd = s.rd := by obtain ⟨_, rfl⟩ := h; rfl
theorem rdNat (h : SameButTraffic s t) : t.rdNat = s.rdNat := by obtain ⟨_, rfl⟩ := h; rfl
theorem gtime (h : SameButTraffic s t) : t.gtime = s.gtime := by obtain ⟨_, rfl⟩ := h; rfl
theorem cycle (h : SameButTraffic s t) : t.cycle = s.cycle := by obtain ⟨_, rfl⟩ := h; rfl
theorem mailboxLine (h : SameButTraffic s t) : t.mailboxLine = s.mailboxLine := by obtain ⟨_, rfl⟩ := h; rfl

/-! ### Steps that change the traffic alone -/

theorem send (s : State) (src dst : Node) (vn : Nat) (b : Body) : SameButTraffic s (s.send src dst vn b) :=
  of_eq (slices := s.slices) (visitors := s.visitors) (hostHeld := s.hostHeld) rfl

theorem drop (s : State) (m : Nat) : SameButTraffic s (s.drop m) :=
  of_eq (nextId := s.nextId) (slices := s.slices) (visitors := s.visitors) (hostHeld := s.hostHeld) rfl

theorem copies (s : State) (slices : Table SliceLine) (visitors : Table (Nat × List Byte)) (hostHeld : Table HostHold) :
    SameButTraffic s { s with slices := slices, visitors := visitors, hostHeld := hostHeld } :=
  of_eq (net := s.net) (nextId := s.nextId) rfl

theorem alone {α : Type} {f : State → α → State} (hf : ∀ s x, SameButTraffic s (f s x)) (l : List α) (s : State) :
    SameButTraffic s (l.foldl f s) := by
  induction l generalizing s with
  | nil => exact refl s
  | cons x l ih => exact (hf s x).trans (ih _)

theorem invalidate (s : State) (home via g : Nat) (dies : List Nat) (grp : Nat) : SameButTraffic s (s.invalidate home via g dies grp) := by
  refine alone (fun t d => ?_) dies s
  split_ifs
  · exact copies ..
  · exact send ..
  · exact refl t

theorem noteSlice (s : State) (home g : Nat) (old : List Byte) (ws : List Acc) (dur : Bool) :
    SameButTraffic s (s.noteSlice home g old ws dur) := by
  have hroom : SameButTraffic s (s.sliceRoom home g) := by
    unfold State.sliceRoom
    split_ifs
    · exact refl s
    · split
      · exact copies ..
      · split
        · exact copies ..
        · split
          · exact copies ..
          · exact refl s
  unfold State.noteSlice
  split_ifs
  · exact refl s
  · exact copies ..
  · exact hroom.trans (copies ..)

theorem ackWrite (s : State) (home : Nat) (w : Who) (tok grp : Nat) (dur : Bool) (ends : Option Answer) (scOp recRelease : Bool) :
    SameButTraffic s (s.ackWrite home w tok grp dur ends scOp recRelease) := by
  have hmirror (t : State) (e : Option Answer) : SameButTraffic t (t.mirrorWrite home w tok e true) := by
    simp only [State.mirrorWrite]
    split_ifs
    all_goals exact send ..
  cases dur
  · exact send ..
  · exact (send ..).trans (hmirror ..)

/-! ### Steps that do the same whatever the traffic is -/

theorem setCore (h : SameButTraffic s t) (site : Nat) (c : Core) : SameButTraffic (s.setCore site c) (t.setCore site c) := by
  obtain ⟨x, rfl⟩ := h
  exact ⟨x, rfl⟩

theorem modCore (h : SameButTraffic s t) (site : Nat) (f : Core → Core) : SameButTraffic (s.modCore site f) (t.modCore site f) := by
  rw [State.modCore, State.modCore, h.core]
  exact h.setCore ..

theorem setLine (h : SameButTraffic s t) (k : Nat) (l : Line) : SameButTraffic (s.setLine k l) (t.setLine k l) := by
  obtain ⟨x, rfl⟩ := h
  exact ⟨x, rfl⟩

theorem modLine (h : SameButTraffic s t) (k : Nat) (f : Line → Line) : SameButTraffic (s.modLine k f) (t.modLine k f) := by
  rw [State.modLine, State.modLine, h.line?]
  split
  · exact h.setLine ..
  · exact h

theorem endOp (h : SameButTraffic s t) (tok : Nat) : SameButTraffic (s.endOp tok) (t.endOp tok) := by
  obtain ⟨x, rfl⟩ := h
  exact ⟨x, rfl⟩

theorem logEvent (h : SameButTraffic s t) (src : LogSrc) (cls sub detail : Nat) :
    SameButTraffic (s.logEvent src cls sub detail) (t.logEvent src cls sub detail) := by
  obtain ⟨x, rfl⟩ := h
  exact ⟨x, by simp only [State.logEvent]; rfl⟩

theorem wr (h : SameButTraffic s t) (ga : Nat) (bs : List Byte) : SameButTraffic (s.wr ga bs) (t.wr ga bs) := by
  induction bs generalizing s t ga with
  | nil => exact h
  | cons b bs ih =>
    refine ih (?_ : SameButTraffic (s.wrByte ga b) (t.wrByte ga b)) (ga + 1)
    have hmem : SameButTraffic { s with mem := memSet s.mem ga b } { t with mem := memSet t.mem ga b } := by
      obtain ⟨x, rfl⟩ := h
      exact ⟨x, rfl⟩
    rw [State.wrByte, State.wrByte, h.line?]
    split
    · split_ifs
      · exact h.setLine ..
      · exact hmem
    · exact hmem

/-- The lines whose mirror is noted after a write of one (R402). -/
def mirrorNoted (gs : List Nat) (g : Nat) (dur : Bool) : List Nat :=
  if !dur then gs.filter fun x => x != g else if gs.contains g then gs else g :: gs

theorem noteMirror (h : SameButTraffic s t) (home g : Nat) (dur : Bool) :
    SameButTraffic (s.noteMirror home g dur) (t.noteMirror home g dur) := by
  have hnote (u : State) : SameButTraffic { u with mirrored := mirrorNoted u.mirrored g dur } (u.noteMirror home g dur) := by
    simp only [State.noteMirror, mirrorNoted]
    split_ifs
    · exact refl _
    · exact send ..
    · exact refl _
    · exact send ..
    · exact refl _
  refine around ?_ (hnote s) (hnote t)
  obtain ⟨x, rfl⟩ := h
  exact ⟨x, rfl⟩

theorem answer (h : SameButTraffic s t) (w : Who) (a : Answer) (mem : Bool) : SameButTraffic (s.answer w a mem) (t.answer w a mem) := by
  have hreg {s t : State} (x : Reg × Word) (h : SameButTraffic s t) :
      SameButTraffic (s.answerReg w mem x.1 x.2) (t.answerReg w mem x.1 x.2) := by
    simp only [State.answerReg, h.line?, h.cycle]
    split_ifs
    · exact h.modLine ..
    · exact h.modCore ..
  have htrace {s t : State} (h : SameButTraffic s t) : SameButTraffic (s.tracePred w.key) (t.tracePred w.key) := by
    simp only [State.tracePred, h.line?, h.gtime]
    split
    · split
      · exact h.modCore ..
      · exact h
      · exact h
    · exact h
  have hregs := foldl hreg a.regs h
  unfold State.answer
  split
  · exact htrace ((hregs.modLine ..).modLine ..)
  · exact hregs.modLine ..

theorem makeReady (h : SameButTraffic s t) (k : Nat) : SameButTraffic (s.makeReady k) (t.makeReady k) := by
  rw [State.makeReady, State.makeReady, h.gtime]
  exact h.modLine ..

theorem answerFault (h : SameButTraffic s t) (n : Node) (w : Who) (f : Flt) (async counted : Bool) (tok : Nat) (rec_ : Option (List Byte))
    (dur : Bool) : SameButTraffic (s.answerFault n w f async counted tok rec_ dur) (t.answerFault n w f async counted tok rec_ dur) := by
  unfold State.answerFault
  split_ifs
  · exact around (h.endOp tok) (send ..) (send ..)
  · exact around h (send ..) (send ..)

theorem closePop (h : SameButTraffic s t) (w : Who) (va ga : Nat) : SameButTraffic (s.closePop w va ga) (t.closePop w va ga) := by
  simp only [State.closePop, h.mailboxLine]
  split
  · split
    · split_ifs
      · exact (h.answer ..).makeReady ..
      · exact h
    · exact h
  · exact h

theorem closeHeld (h : SameButTraffic s t) (sl : Nat) (w : Who) (va ga : Nat) :
    SameButTraffic (s.closeHeld sl w va ga) (t.closeHeld sl w va ga) := by
  have hfail {s t : State} (x : HeldReq) (h : SameButTraffic s t) : SameButTraffic (s.failHeld sl x) (t.failHeld sl x) := by
    simp only [State.failHeld, deferredRecord, h.line?]
    split
    · exact around h (send ..) (send ..)
    · exact h.answerFault ..
  have hdel : SameButTraffic { s with heldQ := tdel s.heldQ (ga / 64) } { t with heldQ := tdel s.heldQ (ga / 64) } := by
    obtain ⟨x, rfl⟩ := h
    exact ⟨x, rfl⟩
  simp only [State.closeHeld, h.rdNat, h.heldQ]
  split_ifs
  · exact (foldl hfail _ hdel).closePop ..
  · exact h

theorem loseWrites (h : SameButTraffic s t) (src : Node) (xs : List Writer) (counted dur : Bool) (sub : Nat) :
    SameButTraffic (xs.foldl (fun s x => s.loseWrite src x counted dur sub) s) (xs.foldl (fun s x => s.loseWrite src x counted dur sub) t) := by
  refine foldl (fun {s t} x h => ?_) xs h
  simp only [State.loseWrite, deferredRecord, h.line?]
  split_ifs
  · exact h.endOp ..
  all_goals exact h.answerFault ..

/-- A dirty stash line written back or lost (R180, R393). -/
theorem writeBack (h : SameButTraffic s t) (site : Nat) (x : StashLine) : SameButTraffic (s.writeBack site x) (t.writeBack site x) := by
  simp only [State.writeBack, h.partOf, h.homeAt, h.unreached, h.part, h.rd, h.core]
  split
  · exact h.loseWrites ..
  · refine closeHeld (noteMirror ?_ _ _ _) _ _ _ _
    have hquiet (u : State) (home grp via : Nat) (old : List Byte) (ws : List Acc) : SameButTraffic u _ :=
      ((invalidate u home via x.ga [0, 1, 2, 3] grp).trans (noteSlice _ home x.ga old ws x.leaf.durable)).trans
        (alone (fun s (wr : Writer) => ackWrite s home wr.who wr.tok grp x.leaf.durable (if wr.ends then some Answer.none else none)
          (scWide wr.k.ordering.1 wr.k.ordering.2) (wr.k.ordering.2 == .recov)) x.writers _)
    exact around (h.wr ..) (hquiet ..) (hquiet ..)

theorem recallStash (h : SameButTraffic s t) (site : Nat) (x : StashLine) (keep : Bool) :
    SameButTraffic (s.recallStash site x keep) (t.recallStash site x keep) := by
  simp only [State.recallStash, h.core, h.partOf, h.homeAt, h.unreached]
  refine modCore ?_ _ _
  split_ifs
  · exact h
  · exact h.writeBack ..
  · exact (h.logEvent ..).loseWrites ..

theorem recallStashes (h : SameButTraffic s t) (g : Nat) (but : Option Nat) (write : Bool) :
    SameButTraffic (s.recallStashes g but write) (t.recallStashes g but write) := by
  rw [State.recallStashes, State.recallStashes, h.cores]
  refine foldl (fun e h => ?_) _ h
  split_ifs
  · exact h
  · refine foldl (fun x h => ?_) _ h
    split_ifs
    · exact h.recallStash ..
    · exact h

theorem giveUp (h : SameButTraffic s t) (site : Nat) (o : Owned) : SameButTraffic (s.giveUp site o) (t.giveUp site o) := by
  have hgiven := h.modCore site fun c => { c with owned := c.owned.filter fun x => x.ga != o.ga }
  simp only [State.giveUp, h.core]
  split_ifs
  · exact hgiven
  · exact around hgiven (noteSlice ..) (noteSlice ..)
  · exact ((hgiven.wr ..).logEvent ..).loseWrites ..

theorem recallOwned (h : SameButTraffic s t) (g : Nat) (but : Option Nat) : SameButTraffic (s.recallOwned g but) (t.recallOwned g but) := by
  rw [State.recallOwned, State.recallOwned, h.cores]
  refine foldl (fun e h => ?_) _ h
  split_ifs
  · exact h
  · refine foldl (fun o h => ?_) _ h
    exact h.giveUp ..

/-- A queue operation finds the same descriptor line whatever is on its way (R180, R312). -/
theorem descAt (h : SameButTraffic s t) (ga : Nat) : SameButTraffic (s.descAt ga) (t.descAt ga) := (h.recallStashes ..).recallOwned ..

end SameButTraffic

end Sys2Proof
end

section
/-! O53: queue descriptors at their homes (R161, R312, R314 to R316, R324 to R327, R369). -/

namespace Sys2Proof

open Machine

section

variable {s : State} {a : Acc} {sl : Nat}

/-- No request held at a full queue gets in (R316). -/
theorem serveHeld_of_full (hkinds : s.HeldKinds (a.ga / 64)) (hfull : s.room (a.ga / 64) (s.desc a.ga) 1 = false) : s.serveHeld sl a = s := by
  have hentries (x : FaultMsg) : s.room (a.ga / 64) (s.desc a.ga) x.entries.length = false := by
    have hlen : 1 ≤ x.entries.length := by
      unfold FaultMsg.entries
      split <;> simp
    simp only [State.room, decide_eq_false_iff_not, not_le] at hfull ⊢
    omega
  unfold State.serveHeld
  simp only
  split
  · rfl
  · next h rest hq =>
    have hkind := hkinds h (hq ▸ List.mem_cons_self)
    simp only [hfull, hentries, Bool.false_eq_true, if_false]
    split_ifs
    · rfl
    · split
      · rfl
      · rfl
      · rfl
      · rfl
      · next hmsg hentry hwenq hsend =>
        rw [hmsg, hentry] at hkind
        rcases hkind with hk | hk | ⟨p, c, q, hk⟩ | ⟨b, hk⟩
        · cases hk
        · cases hk
        · exact (hwenq p c q hk).elim
        · exact (hsend b hk).elim

theorem serveAll_of_full (hkinds : s.HeldKinds (a.ga / 64)) (hfull : s.room (a.ga / 64) (s.desc a.ga) 1 = false) : s.serveAll sl a = s :=
  List.foldl_fixed' (fun _ => serveHeld_of_full (a := { a with k := .eng [] .sys }) hkinds hfull) _

end

theorem HeldKinds.congr {s t : State} {g : Nat} (h : t.heldQ = s.heldQ) (hkinds : s.HeldKinds g) : t.HeldKinds g := by
  rw [State.HeldKinds, h]
  exact hkinds

theorem room_of_full (s : State) (g : Nat) {d : Desc} (h : d.cap ≤ d.c) : s.room g d 1 = false := by
  simp only [State.room, decide_eq_false_iff_not, not_le]
  omega

/-! ## `wenq` (R161) -/

/-- A `wenq` that meets its queue: its issuer's earlier stores are performed, and its pages and its queue's line are ready. -/
structure MeetsQueue (s : State) (m sl : Nat) (w : Who) (va : Nat) (payload : List Byte) (sc : Scope) (queue tok : Nat) (v : State) (a : Acc)
    (d : Desc) : Prop where
  msg : ∃ x wk, s.reqMsg? m = some x ∧ x.dst = .slice sl ∧ x.body = .req w va (.wenq payload sc queue) tok wk
  stores : s.forkOpen w tok = false
  path : s.pathWaits (dieOf w.site) (dieOfCl sl) = false
  reach : s.unreached (dieOf w.site) sl = none
  ready : ∃ u, s.xlateAll w (.wenq (sc == .recov)) (linesOf va payload.length) = .ok u ∧ u.probeDesc w queue 0 = .ok (v, a, d)

section

variable {s v : State} {m sl va queue tok : Nat} {w : Who} {payload : List Byte} {sc : Scope} {a : Acc} {d : Desc}

theorem exec_wenqAccept (h : MeetsQueue s m sl w va payload sc queue tok v a d) : exec (.wenqAccept m) s =
    match d.check queue (fun k => k == 0) true with
    | some sub => .next ((v.drop m).refuse sl w queue (.wenq payload sc queue) tok (0x0A, sub))
    | none =>
      let t := v.serveAll (v.homeAt w.part (a.ga / 64)) a
      if t.room (a.ga / 64) (t.desc a.ga) 1 && (tgetD t.heldQ (a.ga / 64) []).isEmpty then
        .next ((t.drop m).acceptWenq sl w va payload sc queue tok none)
      else if t.mayHold w.part (v.homeAt w.part (a.ga / 64)) (a.ga / 64) then
        .next ((t.drop m).holdReq (a.ga / 64)
          { who := w, k := .wenq payload sc queue, va := va, msg := none, tok := tok, entry := none })
      else .next ((t.drop m).refuse sl w queue (.wenq payload sc queue) tok (0x0A, 0x07)) := by
  obtain ⟨⟨x, wk, hx, hdst, hbody⟩, hstores, hpath, hreach, u, hpages, hprobe⟩ := h
  change execWenqAccept m s = _
  simp only [execWenqAccept, hx, hdst, hbody, hstores, hpath, hreach, hpages, hprobe, Bool.or_self, Bool.false_eq_true, if_false] <;> rfl

/-- With room in its queue it is accepted: the entry follows its data. -/
theorem wenqAccept_pushes (h : MeetsQueue s m sl w va payload sc queue tok v a d) (hcheck : d.check queue (fun k => k == 0) true = none)
    (hroom : v.room (a.ga / 64) (v.desc a.ga) 1 = true) (hheld : tget v.heldQ (a.ga / 64) = none) : ∃ t z e,
      exec (.wenqAccept m) s = .next t ∧ t.net.getLast? = some z ∧ z.body = .wenqPush w va queue e tok none ∧
      e.take 10 = leBytes 8 va ++ leBytes 2 payload.length ∧ e.length = 16 := by
  rw [exec_wenqAccept h, hcheck]
  simp only [serveAll_of_none hheld, hroom, tgetD, hheld, Option.getD_none, List.isEmpty_nil, Bool.and_self, if_true]
  refine ⟨_, _, _, rfl, List.getLast?_concat, rfl, ?_, ?_⟩
  · simp only [userEntry, List.append_assoc]
    rw [← List.append_assoc, List.take_left' (by simp)]
  · simp [userEntry]

/-- At a full queue it is held while there is room to hold it. -/
theorem wenqAccept_holds (h : MeetsQueue s m sl w va payload sc queue tok v a d) (hkinds : v.HeldKinds (a.ga / 64))
    (hcheck : d.check queue (fun k => k == 0) true = none) (hfull : v.room (a.ga / 64) (v.desc a.ga) 1 = false)
    (hhold : v.mayHold w.part (v.homeAt w.part (a.ga / 64)) (a.ga / 64) = true) : ∃ t, exec (.wenqAccept m) s = .next t ∧
      tget t.heldQ (a.ga / 64) =
        some (tgetD v.heldQ (a.ga / 64) [] ++
          [{ who := w, k := .wenq payload sc queue, va := va, msg := none, tok := tok, entry := none }]) := by
  rw [exec_wenqAccept h, hcheck]
  simp only [serveAll_of_full hkinds hfull, hfull, hhold, Bool.false_and, Bool.false_eq_true, if_false, if_true]
  exact ⟨_, rfl, tget_tset_eq ..⟩

/-- Refused, it raises QUEUE at the queue. -/
theorem wenqAccept_faults (h : MeetsQueue s m sl w va payload sc queue tok v a d) (hkinds : v.HeldKinds (a.ga / 64)) {sub : Nat}
    (hkey : w.key ≠ noKey) (hsub : d.check queue (fun k => k == 0) true = some sub ∨ (d.check queue (fun k => k == 0) true = none ∧
      v.room (a.ga / 64) (v.desc a.ga) 1 = false ∧ v.mayHold w.part (v.homeAt w.part (a.ga / 64)) (a.ga / 64) = false ∧ sub = 0x07)) :
    ∃ t z f, exec (.wenqAccept m) s = .next t ∧ t.net = (v.drop m).net ++ [z] ∧ z.dst = .line w.key ∧
      z.body = .fault w f false false tok none false ∧ f.cls = 0x0A ∧ f.sub = sub ∧ f.faddr = W queue := by
  have hrefuse : exec (.wenqAccept m) s = .next ((v.drop m).refuse sl w queue (.wenq payload sc queue) tok (0x0A, sub)) := by
    rw [exec_wenqAccept h]
    rcases hsub with hcheck | ⟨hcheck, hfull, hhold, rfl⟩
    · rw [hcheck]
    · rw [hcheck]
      simp only [serveAll_of_full hkinds hfull, hfull, hhold, Bool.false_and, Bool.false_eq_true, if_false]
  have hfault : (v.drop m).refuse sl w queue (.wenq payload sc queue) tok (0x0A, sub) = _ := answerFault_of_context hkey
  rw [hrefuse, hfault]
  exact ⟨_, _, _, rfl, rfl, rfl, rfl, rfl, rfl, rfl⟩

end

/-- Whether a write of an operation is on its way, or its acknowledgement (R161). -/
def writing (s : State) (tok : Nat) : Bool :=
  s.inFlight.any fun y => match y.body with
    | .acc b | .hostReq _ _ b | .bisnp _ _ (some b) => b.tok == tok && match b.k with
        | .eng _ _ => true
        | _ => false
    | .eack _ t _ _ _ _ => t == tok
    | _ => false

theorem writing_of_performed {s : State} {tok : Nat}
    (h : ∀ y ∈ s.inFlight,
      (∀ b, (y.body = .acc b ∨ (∃ g o, y.body = .hostReq g o b) ∨ ∃ g i, y.body = .bisnp g i (some b)) → b.tok ≠ tok) ∧
      ∀ w' n g na mi e, y.body = .eack w' n g na mi e → n ≠ tok) : writing s tok = false := by
  refine List.any_eq_false.mpr fun y hy => ?_
  obtain ⟨hacc, heack⟩ := h y hy
  split
  · next b hb => simp [hacc b (.inl hb)]
  · next g o b hb => simp [hacc b (.inr (.inl ⟨g, o, hb⟩))]
  · next g i b hb => simp [hacc b (.inr (.inr ⟨g, i, hb⟩))]
  · next w' n g na mi e hb => simp [heack w' n g na mi e hb]
  · exact Bool.false_ne_true

/-- Once its data is performed, the entry of an accepted `wenq` is pushed where nothing is held and there is room (R161). -/
theorem exec_wenqPush {s u : State} {m va queue tok : Nat} {w : Who} {entry : List Byte} {res : Option Nat} {a : Acc} {d : Desc}
    (hm : s.find? m = some (.wenqPush w va queue entry tok res)) (hwriting : writing s tok = false)
    (hprobe : s.probeDesc w queue 0 = .ok (u, a, d)) (hcheck : d.check queue (fun k => k == 0) true = none)
    (hheld : tget u.heldQ (a.ga / 64) = none) (hroom : (u.drop m).room (a.ga / 64) (u.desc a.ga) 1 = true) :
    exec (.wenqPush m) s = .next (((u.drop m).pushEntry (u.homeAt w.part (a.ga / 64)) a w (u.desc a.ga) entry none).endOp tok) := by
  have hserve : (u.drop m).serveAll (u.homeAt w.part (a.ga / 64)) a = u.drop m := serveAll_of_none hheld
  have hempty : (tgetD (u.drop m).heldQ (a.ga / 64) []).isEmpty = true := by
    rw [tgetD, show tget (u.drop m).heldQ (a.ga / 64) = none from hheld]
    rfl
  have hdesc : (u.drop m).desc a.ga = u.desc a.ga := rfl
  have hexec : exec (.wenqPush m) s = execWenqPush m s := rfl
  have hnot : ¬ writing s tok = true := by rw [hwriting]; exact Bool.false_ne_true
  simp only [hexec, execWenqPush, hm]
  refine (if_neg hnot).trans ?_
  simp only [hprobe, hcheck, hserve, ite_self, hdesc, hroom, hempty, Bool.and_self, Bool.or_true, if_true]

/-! ## `send` (R324) -/

section

variable {s : State} {k : Nat} {P Q : Line → Prop}

/-- A line changed in place. -/
theorem line_modLine (h : ∃ x, s.line? k = some x ∧ P x) {f : Line → Line} (hf : ∀ x, P x → Q { f x with touched := true }) :
    ∃ x, (s.modLine k f).line? k = some x ∧ Q x := by
  obtain ⟨x, hx, hP⟩ := h
  exact ⟨_, by rw [State.line?_modLine_eq, hx]; rfl, hf x hP⟩

/-- The words of an answer in the first registers of its line (R68). -/
def Answered (f : Nat → Word) (n : Nat) (x : Line) : Prop := x.heldFaults = [] ∧ x.v.length = 8 ∧ ∀ i, i < n → x.v.getD i 0#64 = f i

theorem answerRegs_answered {w : Who} (h : CalmAt s w.key) (f : Nat → Word) (mem : Bool) {n : Nat} (hn : n ≤ 8) :
    ∃ x, (((List.range n).map fun i => ((0 : Reg) + Fin.ofNat 16 i, f i)).foldl (fun s x => s.answerReg w mem x.1 x.2) s).line?
      w.key = some x ∧ Answered f n x := by
  induction n with
  | zero =>
    obtain ⟨x, hx, hheld, hlen⟩ := h
    exact ⟨x, hx, hheld, hlen, fun i hi => absurd hi (Nat.not_lt_zero i)⟩
  | succ n ih =>
    have hval : ((0 : Reg) + Fin.ofNat 16 n).val = n := by
      rw [zero_add]
      exact Nat.mod_eq_of_lt (by omega)
    rw [List.range_succ, List.map_append, List.foldl_append]
    simp only [List.map_cons, List.map_nil, List.foldl_cons, List.foldl_nil, State.answerReg, hval, show n < 8 by omega, if_true]
    refine line_modLine (ih (by omega)) fun x ⟨hheld, hlen, hv⟩ => ⟨hheld, by rw [← hlen]; exact List.length_set .., fun i hi => ?_⟩
    by_cases hin : i = n
    · subst hin
      simp [List.getD_eq_getElem?_getD, hlen, show i < 8 by omega]
    · rw [← hv i (by omega)]
      simp [List.getD_eq_getElem?_getD, Ne.symm hin]

theorem line?_tracePred (key j : Nat) : (s.tracePred key).line? j = s.line? j := by
  unfold State.tracePred
  split
  · split <;> rfl
  · rfl

/-- A word of a message (R324). -/
def messageWord (data : List Byte) (i : Nat) : Word := W (leField (fitBytes 32 data) (8 * i) 8)

/-- What a message answers to a `qpop` held at its mailbox. -/
def popAnswer (dst : Reg) (data : List Byte) : Answer :=
  { regs := (List.range 4).map fun i => (dst + Fin.ofNat 16 i, messageWord data i), flags := Flags.none, p15 := some true }

theorem completePop_eq {a : Acc} {d : Desc} {key sl : Nat} {p : PopWait} {data : List Byte} : s.completePop sl a d key p data =
    (((s.setDesc sl a { d with widx := d.widx + 1, ridx := d.ridx + 1 }).answer p.who (popAnswer p.dst data) true).makeReady key).acquires
      key := rfl

theorem answer_popAnswer {w : Who} (h : CalmAt s w.key) (data : List Byte) : ∃ x, (s.answer w (popAnswer 0 data) true).line? w.key = some x ∧
    Answered (messageWord data) 4 x ∧ x.pw.getLsbD 15 = true := by
  have hflags := line_modLine (Q := Answered (messageWord data) 4) (answerRegs_answered h (messageWord data) true (by decide))
    (f := fun l => l.orFlags Flags.none) fun _ => id
  obtain ⟨x, hx, hanswered⟩ := line_modLine (Q := fun x => Answered (messageWord data) 4 x ∧ x.pw.getLsbD 15 = true) hflags
    (f := fun l => l.setPred 15 true) fun x hx => ⟨hx, by simp [Line.setPred]⟩
  exact ⟨x, (line?_tracePred ..).trans hx, hanswered⟩

/-- A held `qpop` completed: the message's words are in its registers, p15 is set, and it goes on (R324, R326). -/
theorem completePop_answers {a : Acc} {d : Desc} {key : Nat} {p : PopWait} (hcls : a.leaf.cls ≠ 3) (hcalm : CalmAt s key)
    (hkey : p.who.key = key) (hdst : p.dst = 0) (sl : Nat) (data : List Byte) : ∃ y, (s.completePop sl a d key p data).line? key = some y ∧
      y.wt = 0#32 ∧ y.popWait = none ∧ y.pw.getLsbD 15 = true ∧ ∀ i, i < 4 → y.v.getD i 0#64 = messageWord data i := by
  subst hkey
  have hanswer := answer_popAnswer ((KeepsLines.setDesc hcls s sl { d with widx := d.widx + 1, ridx := d.ridx + 1 }).calm _ hcalm) data
  rw [completePop_eq, hdst]
  generalize (s.setDesc sl a { d with widx := d.widx + 1, ridx := d.ridx + 1 }).answer p.who (popAnswer 0 data) true = u at hanswer
  obtain ⟨x, hx, ⟨hheld, -, hv⟩, hpw⟩ := hanswer
  rw [makeReady_eq hx hheld]
  simp only [State.acquires, State.line?_setLine_eq]
  exact ⟨_, tget_tset_eq .., rfl, rfl, hpw, hv⟩

end

section

variable {s : State} {m sl : Nat} {a : Acc} {data : List Byte}

/-- A message to no live context is dropped, and its sender goes on (R324). -/
theorem exec_sendDelivery_drops (harr : s.Arrives m sl a) (hk : a.k = .send data)
    (hmail : ((s.descAt a.ga).drop m).mailboxLine a.w a.va a.ga = none) :
    exec (.sendDelivery m) s = .next (((s.descAt a.ga).drop m).reply sl a.w Answer.none) := by
  have hexec : exec (.sendDelivery m) s = execSendDelivery m s := rfl
  rw [hexec, execSendDelivery, homeArrival_of_arrives harr (by rw [hk])]
  simp only [hk, hmail]

variable {key : Nat} {l : Line}

theorem exec_sendDelivery_refused {sub : Nat} (harr : s.Arrives m sl a) (hk : a.k = .send data)
    (hmail : ((s.descAt a.ga).drop m).mailboxLine a.w a.va a.ga = some (key, l))
    (hcheck : ((s.descAt a.ga).desc a.ga).check a.va (fun k => k == 1) true = some sub) :
    exec (.sendDelivery m) s = .next (((s.descAt a.ga).drop m).queueFault sl a sub) := by
  have hexec : exec (.sendDelivery m) s = execSendDelivery m s := rfl
  have hdesc : ((s.descAt a.ga).drop m).desc a.ga = (s.descAt a.ga).desc a.ga := rfl
  rw [hexec, execSendDelivery, homeArrival_of_arrives harr (by rw [hk])]
  simp only [hk, hmail, hdesc, hcheck]

/-- One to a context that waits in `qpop` completes that, and its sender goes on (R324). -/
theorem exec_sendDelivery_completes {p : PopWait} (harr : s.Arrives m sl a) (hk : a.k = .send data)
    (hmail : ((s.descAt a.ga).drop m).mailboxLine a.w a.va a.ga = some (key, l))
    (hcheck : ((s.descAt a.ga).desc a.ga).check a.va (fun k => k == 1) true = none) (hpop : l.popWait = some p) :
    exec (.sendDelivery m) s =
      .next ((((s.descAt a.ga).drop m).completePop sl a ((s.descAt a.ga).desc a.ga) key p data).reply sl a.w Answer.none) := by
  have hexec : exec (.sendDelivery m) s = execSendDelivery m s := rfl
  have hdesc : ((s.descAt a.ga).drop m).desc a.ga = (s.descAt a.ga).desc a.ga := rfl
  rw [hexec, execSendDelivery, homeArrival_of_arrives harr (by rw [hk])]
  simp only [hk, hmail, hdesc, hcheck, hpop]

/-- A refused message is a precise fault of its sender (R316). -/
theorem queueFault_send {t : State} (hk : a.k = .send data) (hkey : a.w.key ≠ noKey) (sub : Nat) : ∃ f, t.queueFault sl a sub =
    t.send (.slice sl) (.line a.w.key) vnReply (.fault a.w f false false a.tok none false) ∧ f.cls = 0x0A ∧ f.sub = sub := by
  unfold State.queueFault State.accFault
  rw [hk]
  exact ⟨_, answerFault_of_context hkey, rfl, rfl⟩

/-! ## `qstat` and `qpush` (R325, R327) -/

/-- What `qstat` answers of a descriptor (R327). -/
def statAnswer (r : Reg) (d : Desc) : Answer :=
  { Answer.none with regs := [(r, W (d.c * 2 ^ 32 + d.log2n * 2 ^ 24 + d.kind * 2 ^ 16 +
      if d.overrun then 3 else if d.closed then 4 else if d.c = 0 then 0 else if d.c = d.cap then 2 else 1))] }

/-- `qstat` reads the descriptor (R327). -/
theorem exec_homeAccess_qstat {d : Reg} (harr : s.Arrives m sl a) (hk : a.k = .qstat d)
    (hbad : (((s.drop m).descAt a.ga).desc a.ga).bad a.va = false) : exec (.homeAccess m) s =
      .next (((s.drop m).descAt a.ga).reply sl a.w (statAnswer d (((s.drop m).descAt a.ga).desc a.ga))) := by
  have hexec : exec (.homeAccess m) s = execHomeAccess m s := rfl
  rw [hexec, execHomeAccess, homeArrival_of_arrives harr (by simp [Acc.elsewhere, hk])]
  simp only [State.performAt, hk, State.homeQstat, hbad]
  rfl

/-- After an answer alone a full queue is still full. -/
theorem serveAll_replied {w : Who} {b : Answer} (hkinds : s.HeldKinds (a.ga / 64)) (hfull : (s.desc a.ga).cap ≤ (s.desc a.ga).c) :
    ((s.drop m).reply sl w b).serveAll sl a = (s.drop m).reply sl w b := by
  have hdesc : ((s.drop m).reply sl w b).desc a.ga = s.desc a.ga := rfl
  exact serveAll_of_full (HeldKinds.congr rfl hkinds) (room_of_full _ _ (by rwa [hdesc]))

section

variable {u : State} {v : Word}

theorem performAt_qpush (hk : a.k = .qpush v) : s.performAt m sl a = s.homeQpush m sl a v := by
  unfold State.performAt
  rw [hk]

theorem homeQpush_full (hu : s.descAt a.ga = u) (hcheck : (u.desc a.ga).check a.va (fun k => k == 0) true = none)
    (hkinds : u.HeldKinds (a.ga / 64)) (hfull : (u.desc a.ga).cap ≤ (u.desc a.ga).c) :
    s.homeQpush m sl a v = (u.drop m).reply sl a.w (Answer.p false) := by
  have hserve : u.serveAll sl a = u := serveAll_of_full hkinds (room_of_full _ _ hfull)
  have hdesc : (u.drop m).desc a.ga = u.desc a.ga := rfl
  have hroom := room_of_full u (a.ga / 64) hfull
  unfold State.homeQpush
  rw [hu]
  simp only [hdesc, hcheck, hserve, hroom, Bool.false_and, Bool.false_eq_true, if_false]

/-- `qpush` to a full queue answers p15 = 0 (R325). -/
theorem exec_homeAccess_qpush_full (harr : s.Arrives m sl a) (hk : a.k = .qpush v) (hu : s.descAt a.ga = u)
    (hcheck : (u.desc a.ga).check a.va (fun k => k == 0) true = none) (hkinds : u.HeldKinds (a.ga / 64))
    (hfull : (u.desc a.ga).cap ≤ (u.desc a.ga).c) :
    exec (.homeAccess m) s = .next ((u.drop m).reply sl a.w (Answer.p false)) := by
  have hexec : exec (.homeAccess m) s = execHomeAccess m s := rfl
  rw [hexec, execHomeAccess, homeArrival_of_arrives harr (by simp [Acc.elsewhere, hk])]
  simp only [performAt_qpush hk, homeQpush_full hu hcheck hkinds hfull, serveAll_replied hkinds hfull, ite_self]

/-- One to a queue with room pushes its entry and answers p15 = 1 (R325). -/
theorem exec_homeAccess_qpush_room {x : State} (harr : s.Arrives m sl a) (hk : a.k = .qpush v) (hu : s.descAt a.ga = u)
    (hcheck : (u.desc a.ga).check a.va (fun k => k == 0) true = none) (hroom : u.room (a.ga / 64) (u.desc a.ga) 1 = true)
    (hheld : tget u.heldQ (a.ga / 64) = none)
    (hprobe : u.probe a.w .entryPush ((u.desc a.ga).entry (u.desc a.ga).widx) 16 true = .ok x)
    (hheldx : tget x.heldQ (a.ga / 64) = none) (hcls : a.leaf.cls ≠ 3) {k : Nat} (hline : x.line? k = none) :
    exec (.homeAccess m) s = .next (((x.drop m).pushEntry sl a a.w (u.desc a.ga) (userEntry (x.drop m) a.w v.toNat 0) none).reply sl a.w
      (Answer.p true)) := by
  have hserve : u.serveAll sl a = u := serveAll_of_none hheld
  have hdesc : (u.drop m).desc a.ga = u.desc a.ga := rfl
  have hempty : (tgetD u.heldQ (a.ga / 64) []).isEmpty = true := by
    rw [tgetD, hheld]
    rfl
  have hpush : s.homeQpush m sl a v = ((x.drop m).pushEntry sl a a.w (u.desc a.ga) (userEntry (x.drop m) a.w v.toNat 0) none).reply sl a.w
      (Answer.p true) := by
    unfold State.homeQpush
    rw [hu]
    simp only [hdesc, hcheck, hserve, hroom, hempty, Bool.and_self, if_true, withEntry, hprobe]
  have hline' : (x.drop m).line? k = none := hline
  have hheld' := pushEntry_held hcls hline' hheldx sl a.w (d := u.desc a.ga) (userEntry (x.drop m) a.w v.toNat 0) none
  have hreply (t : State) (b : Answer) : (t.reply sl a.w b).heldQ = t.heldQ := rfl
  have hperform := (performAt_qpush (s := s) (m := m) (sl := sl) hk).trans hpush
  rw [exec_homeAccess harr (by simp [Acc.elsewhere, hk]) (by rw [hperform, hreply, hheld']), hperform]

end

end

/-! ## Fault messages (R314, R315, R369) -/

section

variable {s : State} {mid : Nat} {m : FaultMsg}

/-- With no service table no descriptor takes a message. -/
theorem tryDesc_of_no_table (m : FaultMsg) (hbase : wfld (s.part m.part).svcq 11 43 = 0) (desc : Nat) : s.tryDesc mid m desc = .cannot := by
  simp only [State.tryDesc, hbase, Nat.zero_mul, if_true]

/-- With no service table the Regulator takes it, with ESC set (R315). -/
theorem exec_faultMessage_regulator (hm : s.find? mid = some (.msg m)) (hslot : (s.part m.part).faultSlot m = none)
    (hbase : wfld (s.part m.part).svcq 11 43 = 0) : exec (.faultMessage mid) s =
      .next ((s.drop mid).regulatorTakes { m with desc := 0, cause := m.cause ||| W (2 ^ 30) }) := by
  have hexec : exec (.faultMessage mid) s = s.routeFault mid true := rfl
  have hbase' : wfld (s.part ({ m with desc := 0, cause := m.cause ||| W (2 ^ 30) } : FaultMsg).part).svcq 11 43 = 0 := hbase
  simp only [hexec, State.routeFault, hm, hslot, if_true, Option.map_none, Option.getD_none, Bool.false_eq_true, if_false,
    tryDesc_of_no_table m hbase, tryDesc_of_no_table _ hbase']

/-- The Regulator keeps a message while it has room, and raises its cause (R315). -/
theorem regulatorTakes_kept (hroom : (tgetD s.reg.kept m.part []).length < 256) :
    tget (s.regulatorTakes m).reg.kept m.part = some (tgetD s.reg.kept m.part [] ++ [m]) ∧
      ((s.regulatorTakes m).part m.part).icause.testBit 17 = true ∧ (s.regulatorTakes m).net = s.net ∧
      (s.regulatorTakes m).lines = s.lines := by
  have hlog (src : LogSrc) (cls sub detail : Nat) : (s.logEvent src cls sub detail).reg.kept = s.reg.kept ∧
      (s.logEvent src cls sub detail).net = s.net ∧ (s.logEvent src cls sub detail).lines = s.lines := by
    simp [State.logEvent]
  obtain ⟨hkept, hnet, hlines⟩ := hlog (.core ((s.siteOfLogical m.core).getD m.core)) (wfld m.cause 0 8) (wfld m.cause 8 8) m.cid
  simp only [State.regulatorTakes, hroom, if_true, State.causeBit]
  generalize s.logEvent (.core ((s.siteOfLogical m.core).getD m.core)) (wfld m.cause 0 8) (wfld m.cause 8 8) m.cid = u at *
  refine ⟨?_, ?_, hnet, hlines⟩
  · rw [← hkept]
    exact tget_tset_eq ..
  · rw [State.part_modPart_eq]
    exact (Nat.testBit_or ..).trans (by rw [Nat.testBit_two_pow_self, Bool.or_true])

/-- A descriptor with room takes a message that has no record (R314). -/
theorem exec_faultMessage_pushes {u v : State} {a : Acc} {d : Desc} {w : Who} (hm : s.find? mid = some (.msg m))
    (hslot : (s.part m.part).faultSlot m = none) (hw : w = s.svcWho m.part ((s.siteOfLogical m.core).getD 0)) (hrecord : m.record = none)
    (hbase : wfld (s.part m.part).svcq 11 43 ≠ 0)
    (hprobe : s.probeDesc w (wfld (s.part m.part).svcq 11 43 * 2048 + 64 * m.desc) 2 = .ok (u, a, d))
    (hcheck : d.check (wfld (s.part m.part).svcq 11 43 * 2048 + 64 * m.desc) (fun k => k == 2) true = none)
    (hroom : u.room (a.ga / 64) (u.desc a.ga) 1 = true) (hheld : tget u.heldQ (a.ga / 64) = none)
    (hentry : u.probe w .entryPush ((u.desc a.ga).entry (u.desc a.ga).widx) 32 true = .ok v) : ∃ data,
      exec (.faultMessage mid) s =
        .next ((v.drop mid).pushEntry (u.homeAt m.part (a.ga / 64)) a w ((v.drop mid).desc a.ga) data none) := by
  have hserve : u.serveAll (u.homeAt m.part (a.ga / 64)) a = u := serveAll_of_none hheld
  have hempty : (tgetD u.heldQ (a.ga / 64) []).isEmpty = true := by
    rw [tgetD, hheld]
    rfl
  obtain ⟨data, hentries⟩ : ∃ data, m.entries = [data] := by
    unfold FaultMsg.entries
    rw [hrecord]
    exact ⟨_, rfl⟩
  have hone (t : State) (sl : Nat) : t.pushAll sl a w [data] = t.pushEntry sl a w (t.desc a.ga) data none := by
    rw [State.pushAll, List.foldl_cons, List.foldl_nil]
  have hnonzero : ¬ wfld (s.part m.part).svcq 11 43 * 2048 = 0 := by omega
  have htaken : s.tryDesc mid m m.desc =
      .taken ((v.drop mid).pushEntry (u.homeAt m.part (a.ga / 64)) a w ((v.drop mid).desc a.ga) data none) := by
    unfold State.tryDesc
    simp only [hnonzero, if_false, ← hw, hprobe, hcheck, hserve, hentries, List.length_singleton, hroom, hempty, Bool.and_self, if_true,
      Nat.add_sub_cancel, hentry, hone]
  have hexec : exec (.faultMessage mid) s = s.routeFault mid true := rfl
  refine ⟨data, ?_⟩
  simp only [hexec, State.routeFault, hm, hslot, if_true, Option.map_none, Option.getD_none, Bool.false_eq_true, if_false, htaken]

end

theorem endOp_rules (t : State) (tok ga : Nat) : tget (t.endOp tok).ops tok = none ∧ (t.endOp tok).desc ga = t.desc ga :=
  ⟨tget_tdel_eq .., rfl⟩

theorem reply_rules (t : State) (sl : Nat) (w : Who) (b : Answer) (ga : Nat) : (t.reply sl w b).desc ga = t.desc ga ∧
    (∀ k, (t.reply sl w b).line? k = t.line? k) ∧ ∃ z, (t.reply sl w b).net.getLast? = some z ∧ z.body = .reply w b false false 0 :=
  ⟨rfl, fun _ => rfl, _, List.getLast?_concat, rfl⟩

/-- Settles O53: each clause is the equation of its step; a push leaves the descriptor with the next write index. -/
theorem queueSteps : Obligations.QueueSteps := by
  refine ⟨fun s u v m sl va queue tok x w payload sc wk a d hx hdst hbody hstores hpath hreach hpages hprobe hkinds => ?accept,
    fun s u m va queue tok w entry res a d hm hdone hprobe hcheck hheld hroom => ?push, fun s m sl a harr => ?home,
    fun s mid m hm hslot => ⟨fun hbase hkept => ?kept,
      fun u v a d w hw hrecord hbase hprobe hcheck hroom hheld hentry hcls _ hline hpop => ?taken⟩⟩
  case accept =>
    have hmeets : MeetsQueue s m sl w va payload sc queue tok v a d :=
      ⟨⟨x, wk, hx, hdst, hbody⟩, hstores, hpath, hreach, u, hpages, hprobe⟩
    exact ⟨wenqAccept_pushes hmeets, wenqAccept_holds hmeets hkinds, fun _ => wenqAccept_faults hmeets hkinds⟩
  case push =>
    obtain ⟨hops, hdesc⟩ := endOp_rules ((u.drop m).pushEntry (u.homeAt w.part (a.ga / 64)) a w (u.desc a.ga) entry none) tok a.ga
    refine ⟨_, exec_wenqPush hm (writing_of_performed hdone) hprobe hcheck hheld hroom, hops, fun hcls _ hline hpop => ?_⟩
    rw [hdesc]
    exact pushEntry_widx (s := u.drop m) (hcls ▸ by decide) hline hpop (desc_len_length a.ga) _ w entry none
  case home =>
    intro u hu
    refine ⟨fun data hk => ⟨fun hmail => ?drops, fun sub key l hmail hkey hcheck => ?refused,
      fun key l p hmail hl hp hwho hdst hcheck hheld hlen hcls => ?completes⟩, fun d hk hbad => ?stat,
      fun v hk hcheck hkinds => ⟨fun hfull => ?full, fun x hroom hheld hcls _ hprobe hheldx hline hpop => ?room⟩⟩
    case drops =>
      subst hu
      exact ⟨_, _, exec_sendDelivery_drops harr hk hmail, rfl, rfl, rfl, rfl, rfl⟩
    case refused =>
      subst hu
      obtain ⟨f, hfault, hclass, hsub⟩ := queueFault_send (t := (s.descAt a.ga).drop m) (sl := sl) hk hkey sub
      exact ⟨_, _, f, none, (exec_sendDelivery_refused harr hk hmail hcheck).trans (congrArg _ hfault), rfl, rfl, rfl, rfl, hclass, hsub⟩
    case completes =>
      subst hu
      obtain ⟨y, hy, hwt, hnone, hpw, hv⟩ := completePop_answers (s := (s.descAt a.ga).drop m) (d := (s.descAt a.ga).desc a.ga) hcls
        ⟨l, hl, hheld, hlen⟩ hwho hdst sl data
      obtain ⟨-, hline, z, hz, hbody⟩ := reply_rules (((s.descAt a.ga).drop m).completePop sl a ((s.descAt a.ga).desc a.ga) key p data)
        sl a.w Answer.none a.ga
      exact ⟨_, y, z, exec_sendDelivery_completes harr hk hmail hcheck hp, (hline key).trans hy, hwt, hnone, hpw, hv, hz, hbody⟩
    case stat =>
      subst hu
      have hsame := (SameButTraffic.drop s m).descAt a.ga
      have hdesc : ((s.drop m).descAt a.ga).desc a.ga = (s.descAt a.ga).desc a.ga := by rw [State.desc, State.desc, hsame.rd]
      obtain ⟨-, -, z, hz, hbody⟩ := reply_rules ((s.drop m).descAt a.ga) sl a.w (statAnswer d (((s.drop m).descAt a.ga).desc a.ga)) a.ga
      refine ⟨_, z, _, exec_homeAccess_qstat harr hk (by rw [hdesc, hbad]), hsame.mem, hsame.lines, hz, ?_, rfl⟩
      rw [hbody, hdesc]
      rfl
    case full =>
      exact ⟨_, _, exec_homeAccess_qpush_full harr hk hu.symm hcheck hkinds hfull, rfl, rfl, rfl, rfl⟩
    case room =>
      have hne : a.leaf.cls ≠ 3 := hcls ▸ by decide
      obtain ⟨hdesc, -, z, hz, hbody⟩ := reply_rules ((x.drop m).pushEntry sl a a.w (u.desc a.ga) (userEntry (x.drop m) a.w v.toNat 0) none)
        sl a.w (Answer.p true) a.ga
      refine ⟨_, z, exec_homeAccess_qpush_room harr hk hu.symm hcheck hroom hheld hprobe hheldx hne hline, ?_, hz, hbody⟩
      rw [hdesc]
      exact pushEntry_widx (s := x.drop m) hne hline hpop (desc_len_length a.ga) sl a.w _ none
  case kept =>
    obtain ⟨hkept', hcause, hnet, hlines⟩ := regulatorTakes_kept (s := s.drop mid)
      (m := { m with desc := 0, cause := m.cause ||| W (2 ^ 30) }) hkept
    exact ⟨_, exec_faultMessage_regulator hm hslot hbase, hkept', hcause, hnet, hlines⟩
  case taken =>
    obtain ⟨data, hexec⟩ := exec_faultMessage_pushes hm hslot hw hrecord hbase hprobe hcheck hroom hheld hentry
    refine ⟨_, hexec, ?_⟩
    exact pushEntry_widx (s := v.drop mid) (hcls ▸ by decide) hline hpop (desc_len_length a.ga) _ w data none

end Sys2Proof
end

section
/-! O32: `ldh` and `sth` on the scratchpad (R174, R175, R176, R183, R216). -/

namespace Sys2Proof

open Machine

/-- Byte k of a little-endian number. -/
theorem leBytes_getElem {n k : Nat} (x : Nat) (h : k < (leBytes n x).length) : (leBytes n x)[k] = BitVec.ofNat 8 (x / 2 ^ (8 * k)) := by
  induction n generalizing x k with
  | zero => cases h
  | succ n ih =>
    cases k with
    | zero => simp [leBytes]
    | succ k =>
      simp only [leBytes, List.getElem_cons_succ, ih, Nat.div_div_eq_div_mul, Nat.mul_succ, pow_add, mul_comm (2 ^ (8 * k))]
      rfl

section

variable {s : State} {e : Env} {h : HNum} {x : Handle} {a b : Reg} {at_ row : Nat}

/-- `ldh` of an element whose row is checked reads the scratchpad. -/
theorem exec_ldh_of_scratch (d : Reg) (he : s.env? = some e) (hx : e.kslot.handle h.val = some x)
    (helem : elementAddr e.kslot x (e.reg a) = .ok (at_, row)) (hst : x.st ≠ .stash)
    (hchecked : (s.cl (clusterOf e.site)).uncheckedRow e.site e.ks h.val row = []) :
    exec (.ldh h d a) s = .next (s.put (e.commit s.cycle 4 d (W (leNat (memRead e.core.scratch at_ 8))))) := by
  have hexec : exec (.ldh h d a) s = .next _ := withEnv_some _ he
  simp only [hexec, hx, helem, if_neg hst, hchecked, List.isEmpty_nil, if_true]

/-- `sth` of an OPEN handle's element writes the scratchpad. -/
theorem exec_sth_of_open (he : s.env? = some e) (hx : e.kslot.handle h.val = some x)
    (helem : elementAddr e.kslot x (e.reg a) = .ok (at_, row)) (hst : x.st = .open_) :
    exec (.sth h a b) s = .next (s.put
      { e.adv 4 with core := { e.core with scratch := memWrite e.core.scratch at_ (leBytes 8 (e.reg b).toNat) } }) := by
  have hexec : exec (.sth h a b) s = .next _ := withEnv_some _ he
  simp only [hexec, hx, helem, hst, reduceCtorEq, if_false]
  rfl

/-- `sth` of a SEALED handle faults, whatever element it names. -/
theorem exec_sth_of_sealed (he : s.env? = some e) (hx : e.kslot.handle h.val = some x) (hst : x.st = .sealed_) :
    exec (.sth h a b) s = .next (s.handleFault e 0x02) := by
  have hexec : exec (.sth h a b) s = .next _ := withEnv_some _ he
  simp only [hexec, hx, hst, if_true]

end

/-- Settles O32: the two instructions by the state of the handle; the bytes of `sth` by the laws of a write of bytes. -/
theorem scratchAccess : Obligations.ScratchAccess := by
  intro s e h x d a b at_ row he hx helem
  refine ⟨fun hst hchecked => ?load, fun hst => ⟨_, exec_sth_of_open he hx helem hst, fun k hk => ?inside, fun q hq => ?outside⟩,
    fun hst => ⟨_, exec_sth_of_sealed he hx hst⟩⟩
  case load => exact exec_ldh_of_scratch d he hx helem (by rcases hst with hst | hst <;> simp [hst]) hchecked
  case inside =>
    have hk : k < (leBytes 8 (e.reg b).toNat).length := by rwa [leBytes_length]
    rw [memGet_memWrite_in _ _ _ k hk, leBytes_getElem]
  case outside => exact memGet_memWrite_out _ _ _ (by rwa [leBytes_length])

end Sys2Proof
end

section
/-! O34: copies, tile vector operations and `apndh` at issue (R184, R185, R190, R194–R196, R262). -/

namespace Sys2Proof

open Machine

section

variable {s : State} {e : Env} {i : Instr}

/-! ## Copies (R184, R185, R190) -/

/-- A good address passes the checks of R190. -/
theorem copyAddr_of_goodAddr {v : Word} {align : Nat} (size : Nat) (h : goodAddr v align) : copyAddr size align v = none := by
  obtain ⟨hcanon, halign⟩ := h
  simp only [copyAddr, (canonical_iff v).mpr hcanon, halign, Bool.not_true, Bool.false_eq_true, ne_eq, not_true_eq_false, if_false]

/-- So do the addresses that a copy names, whichever it has. -/
theorem copyAddrs_of_goodAddr {ra rd : Option Word} {align : Nat} (h : ∀ v, ra = some v ∨ rd = some v → goodAddr v align) :
    (ra.bind (copyAddr 0xF align)).or (rd.bind (copyAddr 0xF align)) = none := by
  have hnone (r : Option Word) (hr : ∀ v, r = some v → goodAddr v align) : r.bind (copyAddr 0xF align) = none :=
    Option.bind_eq_none_iff.mpr fun v hv => copyAddr_of_goodAddr 0xF (hr v hv)
  rw [hnone ra fun v hv => h v (.inl hv), hnone rd fun v hv => h v (.inr hv)]
  rfl

/-- A copy instruction issues the operands of its form (R185). -/
theorem exec_of_copyOf {x : CopyArgs} (he : s.env? = some e) (h : copyOf i e = some x) : exec i s = s.issueCopy x := by
  have hreg (r : Reg) : s.env?.map (fun e => e.reg r) = some (e.reg r) := by rw [he, Option.map_some]
  cases i with
  | cpyG2t sc h a b => cases h; rw [← hreg]; rfl
  | cpyT2g sc h a b => cases h; rw [← hreg]; rfl
  | cpyT2t sc h a b => cases h; rfl
  | cpyG2g sc d a b => cases h; rw [← hreg, ← hreg]; rfl
  | cpyG2q sc q a b => cases h; rw [← hreg]; rfl
  | cpyGat sc h a b => cases h; rw [← hreg]; rfl
  | cpySca sc h a b => cases h; rw [← hreg]; rfl
  | _ => cases h

/-- The copy that leaves for its engine with the operands of an instruction, after the writes `after` (R184, R189). -/
def issuedCopy (s : State) (e : Env) (x : CopyArgs) (shape : Handle) (after : List Nat) : Copy :=
  { id := s.nextId, who := s.who e, op := x.op, sc := x.sc, h := x.h, hA := x.hA, src := (x.ra.getD 0#64).toNat,
    dst := (x.rd.getD 0#64).toNat, opt := e.reg x.b, cw := if optCw (e.reg x.b) then some (e.reg (x.b + 1)).toNat else none,
    rows := shape.rows, cols := shape.cols, fmt := shape.fmt, after := after, cid := e.line.cid, started := false, srcRead := false,
    moved := 0, buf := [], recv := [], err := none }

/-- A copy that passes its checks becomes an operation, its context waits, and it leaves for the engine of its cluster. -/
theorem issueCopy_of_passes {x : CopyArgs} {shape : Handle} {align : Nat} (he : s.env? = some e) (h : copyPasses s e x shape align) :
    ∃ op after, s.issueCopy x = .next (((s.newOp op).2.leave e 9).send (.core e.site) (.engine (clusterOf e.site)) regVn
      (.copyReq (issuedCopy s e x shape after))) := by
  obtain ⟨hhandles, haddr, hindex, hopt, hreach, hpitch, hcw⟩ := h
  have hown : copyHandles e x (decide (optMask (e.reg x.b) = 0 ∨ (optMask (e.reg x.b)).testBit (localIdx e.site) = true)) =
      .ok (shape, align) := by
    rwa [Bool.decide_or, Bool.decide_eq_true]
  have hword : copyCw e x = none := by
    unfold copyCw
    split_ifs with hasked
    · exact copyAddr_of_goodAddr 3 (hcw hasked)
    · rfl
  have hcast : ¬ (optBad x.op (e.reg x.b) (decide (x.b.val % 2 = 1)) e.kslot.barShare = true ∨ x.op.casts = true ∧
      (!(maskSites (clusterOf e.site) (optMask (e.reg x.b))).all fun c =>
        s.enabled c && ((s.core c).slotOf e.line.part e.line.kid).isSome) = true) := by
    rintro (hbad | ⟨hcasts, hmiss⟩)
    · rw [hopt] at hbad
      cases hbad
    · rw [List.all_eq_true.mpr fun c hc => (Bool.and_eq_true _ _).mpr (hreach hcasts c hc)] at hmiss
      cases hmiss
  have haligned : ¬ (x.op.pitched = true ∧ optPitch (e.reg x.b) % align ≠ 0) := fun hbad => hbad.2 (hpitch hbad.1)
  have hissue : s.issueCopy x = .next _ := withEnv_some _ he
  simp only [hown, copyAddrs_of_goodAddr haddr, hindex, if_neg hcast, if_neg haligned, hword] at hissue
  exact ⟨_, _, hissue⟩

/-! ## Tile vector operations (R194) -/

/-- A tile vector instruction issues the operands of its form. -/
theorem exec_of_tileOf {k : TvKind} {hd ha hb : HNum} {r : Round} {sr : Bool} {red : RedOp} {all : Bool}
    (h : tileOf i = some (k, hd, ha, hb, r, sr, red, all)) : exec i s = s.issueTv k hd.val ha.val hb.val r sr red all := by
  cases i with
  | tvAdd | tvSub | tvMul | tvFma | tvMin | tvMax | tvAbs | tvExp2 | tvRcp | tvCvt | tvRed | tvBcast | tvTrans | tvSel | tvScale =>
    cases h; rfl
  | _ => cases h

/-- The operation that joins its core's queue with the operands of an instruction, a type 3 table, and the writes that it follows where a
handle is a STASH one (R194). -/
def issuedTv (s : State) (e : Env) (k : TvKind) (hd ha hb : Nat) (r : Round) (sr : Bool) (red : RedOp) (all : Bool) (dh ah bh : Handle)
    (no : Option Nat) (after : List Nat) : TvOp :=
  { id := s.nextId, who := s.who e, k := k, rm := r, sr := sr, red := red, all := all, d := hd, a := ha, b := hb, hd := dh, ha := ah,
    hb := bh, tab := (s.cl (clusterOf e.site)).table (no.getD 0), tabNo := no, after := after }

/-- One that passes its checks becomes an operation, its context waits, and it is the last of its core's queue. -/
theorem issueTv_of_passes {k : TvKind} {hd ha hb : Nat} {r : Round} {sr : Bool} {red : RedOp} {all : Bool} {dh ah bh : Handle}
    {no : Option Nat} (he : s.env? = some e) (hhandles : tvHandles e.kslot k.two hd ha hb = .ok (dh, ah, bh))
    (hfmt : tvFormatBad k r sr dh ah bh = false) (hshape : tvShapeBad k all dh ah bh = false)
    (hno : no = (if k = .cvt then (if ah.fmt = 10 then some ah.ttab else if dh.fmt = 10 then some dh.ttab else none) else none))
    (hswap : ∀ n, no = some n → (s.cl (clusterOf e.site)).t3swap.contains n = false) :
    ∃ op after, s.issueTv k hd ha hb r sr red all = .next (((s.newOp op).2.leave e 9).modCore e.site fun c =>
      { c with tvq := c.tvq ++ [issuedTv s e k hd ha hb r sr red all dh ah bh no after] }) := by
  have hfree : ¬ (no.any fun t => (s.cl (clusterOf e.site)).t3swap.contains t) = true := by
    cases no with
    | none => exact Bool.false_ne_true
    | some n => rw [Option.any_some, hswap n rfl]; exact Bool.false_ne_true
  have hissue : s.issueTv k hd ha hb r sr red all = .next _ := withEnv_some _ he
  simp only [hhandles, hfmt, hshape, Bool.false_eq_true, if_false, ← hno, if_neg hfree] at hissue
  exact ⟨_, _, hissue⟩

/-! ## `apndh` (R262) -/

/-- `apndh` of 8 to 256 bytes leaves for the copy engine of its cluster. -/
theorem exec_apndh {g : Guard} {h : HNum} {d a : Reg} {x : Handle} (he : s.env? = some e) (hg : e.line.guard g = true)
    (hcanon : (e.reg a).toNat < 2 ^ 54) (hx : e.kslot.handle h.val = some x) (hst : x.st = .open_ ∨ x.st = .sealed_)
    (hmult : x.rows * x.rowBytes % 8 = 0) (hlow : 8 ≤ x.rows * x.rowBytes) (hhigh : x.rows * x.rowBytes ≤ 256) :
    ∃ (tr : Env) (c : Copy), tr.key = e.key ∧ tr.line.pc = e.line.pc ∧
      exec (.apndh g h d a) s = .next ((s.leave tr 1).send (.core e.site) (.engine (clusterOf e.site)) regVn (.copyReq c)) ∧
      c.op = .apnd ∧ c.src = (e.reg a).toNat ∧ c.dst = d.val ∧ c.h = h.val := by
  have hhandle : copyHandle (some x) false = .ok x := by
    rcases hst with hst | hst <;> simp only [copyHandle, hst, Bool.false_eq_true, if_false]
  have hsize : ¬ (x.rows * x.rowBytes % 8 ≠ 0 ∨ x.rows * x.rowBytes < 8 ∨ 256 < x.rows * x.rowBytes) := by omega
  have hexec : exec (.apndh g h d a) s = .next _ := guarded_runs _ he hg
  simp only [canonFault_of_canonical 0xF hcanon, hx, hhandle, if_neg hsize] at hexec
  exact ⟨(e.trace s.gtime 3 (e.reg a).toNat).at (e.reg a).toNat _, _, rfl, rfl, hexec, rfl, rfl, rfl, rfl⟩

end

/-- Settles O34: each clause by what its instruction issues, and by what a context leaves in its line when it waits. -/
theorem engineIssue : Obligations.EngineIssue := by
  intro i s e he hlen
  refine ⟨fun x shape align hform hpass => ?copy, fun k hd ha hb r sr red all dh ah bh no hform hhandles hfmt hshape hno hswap => ?tile,
    fun g h d a x hi hg hcanon hx hst hmult hlow hhigh => ?append⟩
  case copy =>
    obtain ⟨op, after, hissue⟩ := issueCopy_of_passes he hpass
    obtain ⟨l, hl, hpc, hwt, hv, hpw, -, -⟩ := line?_leave (s.newOp op).2 e 9
    exact ⟨_, l, _, _, (exec_of_copyOf he hform).trans hissue, hl, hpc.trans (congrArg (e.line.pc + W ·) hlen), hwt, hv, hpw, rfl, rfl, rfl,
      rfl, rfl, rfl, rfl, rfl, rfl, rfl, rfl, rfl, rfl, rfl, rfl⟩
  case tile =>
    obtain ⟨op, after, hissue⟩ := issueTv_of_passes (red := red) he hhandles hfmt hshape hno hswap
    obtain ⟨l, hl, hpc, hwt, -⟩ := line?_leave (s.newOp op).2 e 9
    refine ⟨_, l, issuedTv s e k hd.val ha.val hb.val r sr red all dh ah bh no after, (exec_of_tileOf hform).trans hissue, hl,
      hpc.trans (congrArg (e.line.pc + W ·) hlen), hwt, ?_, rfl, rfl, rfl, rfl, rfl, rfl, rfl, rfl, rfl, rfl, rfl, rfl, rfl⟩
    rw [State.core_modCore_eq, core_leave]
  case append =>
    subst hi
    obtain ⟨tr, c, hkey, hpc', hexec, hop, hsrc, hdst, hh⟩ := exec_apndh he hg hcanon hx hst hmult hlow hhigh
    obtain ⟨l, hl, hpc, hwt, -⟩ := line?_leave s tr 1
    exact ⟨_, l, _, c, hexec, hkey ▸ hl, by rw [hpc, hpc', hlen]; rfl, hwt, rfl, rfl, hop, hsrc, hdst, hh⟩

end Sys2Proof
end

section
/-! O45: a `cpy.t2g` piece over two pages may be translated again when its bytes leave, and the walk then writes a page-table entry
(R250, R251, R252). -/

namespace Sys2Proof

open Machine

/-- The CONTIG leaf that maps a page of 4 KiB to itself, with V, R and W, and with A and D clear (R248). -/
def cleanLeaf (page : Nat) : Nat := 4096 * page + 0x88D

/-- The same leaf with A and D set. -/
def usedLeaf (page : Nat) : Nat := 4096 * page + 0xB8D

/-- The words of the page tables at address 0.  The first is the ASID entry, and leads to its own table at every level above 0; the leaves
of pages 16 to 31 keep the promise of R251. -/
def tableWord (page : Nat) : Nat :=
  if page = 0 then 1 else if page < 16 then 0 else if page = 18 then usedLeaf 18 else cleanLeaf page

/-- A scratchpad handle of one row of 32 bytes, which one copy reads. -/
def rowHandle : Handle :=
  { st := .open_, offset := 0, rows := 1, cols := 32, fmt := 3, ttab := 0, pitch := 32, sbase := 0, scoff := 0, refs := 1, asid := 0 }

/-- A context of core 0 at privilege 2, in partition 0. -/
def crossingWho : Who :=
  { key := noKey, gen := 0, site := 0, slot := 0, ks := 0, part := 0, asid := 0, priv := 2, pc := 0#64, enc := 0#32, len := 4 }

/-- Its started `cpy.t2g` of that row to address 73,712: 16 bytes end page 17 and 16 bytes begin page 18. -/
def crossingCopy : Copy :=
  { id := 1, who := crossingWho, op := .t2g, sc := .dev, h := 0, hA := 0, src := 73712, dst := 0, opt := 0#64, cw := none, rows := 1,
    cols := 32, fmt := 3, after := [], cid := 0, started := true, srcRead := false, moved := 0, buf := [], recv := [], err := none }

/-- The lines of the piece. -/
def crossingLines : List (Nat × Nat) := [(73712, 16), (73728, 16)]

/-- Page 17 is cached with A and D set, while software has cleared them in its leaf in memory; page 18 is not cached. -/
def crossingState : State :=
  { State.reset with
    mem := memWrite [] 0 ((List.range 32).flatMap fun page => leBytes 8 (tableWord page))
    cores := [(0, { Core.reset with ks := [{ KSlot.reset with kid := some 0, handles := [(0, rowHandle)] }] })]
    clusters := [(0, { Cluster.reset with
      copies := [crossingCopy]
      tcache := [(tkey 0 73712, { leaf := leafOf (usedLeaf 17) 0 73712, a := true, sealed_ := false })] })] }

theorem linesOf_crossing : crossingLines = linesOf (crossingCopy.globalAt (crossingState.core 0) ((crossingState.core 0).ks.getD 0 KSlot.reset))
    (memRead (crossingState.core 0).scratch
      (crossingCopy.scratchAt ((crossingState.core 0).ks.getD 0 KSlot.reset) crossingCopy.h) crossingCopy.piece).length := by decide

/-- The leaf of page 17 in memory. -/
def leafInMemory (m : Mem) : Nat := leNat (memRead m (8 * 17) 8)

/-- The leaf of page 17 after a check, and whether there is room for the pins. -/
def afterCheck (r : Except (Nat × Nat × Nat) State) : Option (Nat × Bool) :=
  match r with
  | .ok v => some (leafInMemory v.mem, v.pinRoom crossingWho (.engWrite false) crossingLines)
  | .error _ => none

/-- The leaf of page 17 after a step. -/
def afterStep (o : Out) : Option Nat :=
  match o with
  | .next t => some (leafInMemory t.mem)
  | .fault _ | .refused _ => none

/-- The check uses page 17's cached translation and walks for page 18, whose CONTIG leaf fills page 17 again from memory, with D clear. -/
theorem afterCheck_crossing : afterCheck (crossingState.engCheck crossingWho (.engWrite false) [] crossingLines) =
    some (cleanLeaf 17, true) := by decide +kernel

/-- When the bytes leave, a write to page 17 finds D = 0 and walks, which sets A and D in memory. -/
theorem afterStep_crossing : afterStep (exec (.sourceReadComplete 0 1) crossingState) = some (usedLeaf 17) := by decide +kernel

/-- Refutes O45: of a `cpy.t2g` whose lines pass their checks and have room for a pin, the statement says that memory stays what it was
after the checks.  Here the walk for the second line's page refills the first page's translation from a leaf whose D bit is clear
(R251), so that the engine's write of the first line walks again and sets A and D in that leaf (R250, R252): it reads 0x1188D
after the checks and 0x11B8D after the step. -/
theorem not_copySteps : ¬ Obligations.CopySteps := by
  intro h
  obtain ⟨-, -, hmove, -⟩ := h
  obtain ⟨-, -, hwrite⟩ := hmove crossingState 0 1 crossingCopy _ rfl rfl rfl rfl rfl rfl
  have hafter := afterCheck_crossing
  cases hcheck : crossingState.engCheck crossingWho (.engWrite false) [] crossingLines with
  | error f =>
    rw [hcheck] at hafter
    cases hafter
  | ok v =>
    rw [hcheck] at hafter
    obtain ⟨hentry, hroom⟩ := Prod.mk.inj (Option.some.inj hafter)
    obtain ⟨t, hexec, -, hmem, -⟩ := hwrite v _ crossingLines (.inl rfl) rfl linesOf_crossing hcheck hroom
    have hstep := afterStep_crossing
    rw [hexec] at hstep
    have hused : leafInMemory t.mem = usedLeaf 17 := Option.some.inj hstep
    rw [hmem, hentry] at hused
    exact absurd hused (by decide)

end Sys2Proof
end
